-- ==== Sys2Proof/Word.lean ====
section
/-! DEFINITION. The word types of the machine. -/

namespace Sys2Proof

/-- A 64-bit scalar register, address or control register (R12, R14). -/
abbrev Word := BitVec 64

/-- A byte of memory (R5). -/
abbrev Byte := BitVec 8

/-- A 16-bit instruction word (R39). -/
abbrev Half := BitVec 16

/-- A whole vector register: 1,024 bytes, byte 0 in bits [7:0] (R130). -/
abbrev VWord := BitVec 8192

end Sys2Proof
end

