-- ==== Sys2Proof/Syntax.lean ====
section
/-! DEFINITION. The instructions of the Falmus architecture and the events of the Bolven: one constructor of `Instr`
for each row of the table of operations. A constructor carries what the words of the instruction say (its guard,
its operands, its immediate), never how many words said it. -/

namespace Sys2Proof

/-- A scalar register number (R14, R45). -/
abbrev SReg := Fin 64
/-- A vector register number (R14, R45). -/
abbrev VReg := Fin 16
/-- A predicate bit (R15). -/
abbrev PBit := Fin 32
/-- A stream register (R45). -/
abbrev ZReg := Fin 8
/-- A queue register (R45). -/
abbrev QReg := Fin 8
/-- An operand slot (R45). -/
abbrev MSlot := Fin 16
/-- An accumulator (R45). -/
abbrev CAcc := Fin 8

/-- The guard of an instruction (R42): none, or one predicate bit, inverted when `neg`. -/
inductive Guard where
  | always
  | when (neg : Bool) (idx : PBit)
  deriving DecidableEq, Repr

/-- A scalar operand of pages 0 and 1 (R46): a scalar register, or the queue or stream register that PAG.Q makes of the field. -/
inductive SOp where
  | s (r : SReg)
  | q (i : QReg)
  | z (i : ZReg)
  deriving DecidableEq, Repr

/-- Conditions of CMP and of the integer VCMP (R48, R82). -/
inductive Cond where
  | eq | ne | lt | ltu | ge | geu
  deriving DecidableEq, Repr

/-- Conditions of FCMP and VCMP.f (R48, R107). -/
inductive FCond where
  | eq | lt | le | un
  deriving DecidableEq, Repr

/-- Order of a page-3 step (R47). -/
inductive Order where
  | relaxed | acquire | release | acqrel
  deriving DecidableEq, Repr

/-- Scope of a page-3 step or fence (R47, R273). -/
inductive Scope where
  | core | die | pkg | sys
  deriving DecidableEq, Repr

/-- Operations of AMO and RED (R48, R203). -/
inductive AmoOp where
  | add | and | or | xor | min | max | minu | maxu | swap | faddBf16 | faddF32
  deriving DecidableEq, Repr

/-- Width of RED (R53). -/
inductive RedWidth where
  | d | w | h
  deriving DecidableEq, Repr

/-- The five paths (R45, R276). -/
inductive Path where
  | core | copy | matrix | stream | bank
  deriving DecidableEq, Repr

/-- Element formats of VCVT (R48, R144). -/
inductive VFmt where
  | bf16 | e4m3 | t8 | i8 | t6 | f32 | i32
  deriving DecidableEq, Repr

/-- Operations of VREDR, VREDC and VSCAN (R145). -/
inductive RedOp where
  | add | fadd | min | max | minu | maxu | fmin | fmax | xor
  deriving DecidableEq, Repr

/-- Operations of TRED (R48, R359). -/
inductive TredOp where
  | faddF32 | faddBf16 | max | min
  deriving DecidableEq, Repr

/-- Register modes of a core (R14). -/
inductive Mode where
  | m16 | m32 | m64
  deriving DecidableEq, Repr

/-- The control registers (R16). -/
inductive CR where
  | tck | era | rnd | fmta | fmtb | fmtc | scla | sclb | vsh | did | sid | gid | rank | core | migp | stat
  | tvec | tcause | tval | tpc | ydl | cal0 | cal1 | cal2 | cal3
  deriving DecidableEq, Repr

/-- The cause codes (R31). -/
inductive Cause where
  | illegal | priv | misalign | xlate | prot | domain | bounds | seal | yieldOverrun | slotOverrun | poison
  | staleXlate | gate | stream | matrix | handlerOverrun | brk
  deriving DecidableEq, Repr

/-- A unit that can leave service by a fatal error (R446). -/
inductive Unit3 where
  | core (c : Nat)
  | slice (h : Nat)
  | bank (ch : Nat)
  deriving DecidableEq, Repr

/-- What a message from another package asks of a line here, or answers (R286, R452, R454). -/
inductive RemoteOp where
  | load (n : Nat)
  | store (n : Nat) (v : Nat)
  | amo (op : AmoOp) (n : Nat) (v : Nat)
  | cas (n : Nat) (e w : Nat)
  | red (op : AmoOp) (n : Nat) (v : Nat)
  /-- Steps on a reservation of a strand, named by its SID (R207 to R209). -/
  | lrw (sid : Nat)
  | sch (sid : Nat) (v : Nat)
  | rls (sid : Nat)
  /-- Steps on a barrier object (R211 to R214). -/
  | bari (ex : Nat)
  | bara
  | barx (n : Nat)
  | barw (k : Nat)
  | amsg (entry : Word) (va : Word) (arg : Word) (sid : Nat) (core : Nat)
  /-- The reply to an active message of a strand of this package (R190, R454). -/
  | reply (key : Nat) (value : Word) (cause : Nat) (tval : Word)
  deriving DecidableEq, Repr

/-- A message from another package (R457): its header and the step it asks for, or its answer. -/
structure RemoteMsg where
  src   : Nat
  seq   : Nat
  rdid  : Nat
  clock : Nat
  era   : Nat
  pa    : Nat
  op    : RemoteOp
  deriving DecidableEq, Repr

/-- The instructions, in the order of the table of operations, then the events of the table, which no word encodes. -/
inductive Instr where
  /-- Writes the 64-bit wrapping sum of two scalar registers (R80). -/
  | add (g : Guard) (a : SOp) (b : SOp) (c : SOp)
  /-- Writes the 64-bit wrapping difference of two scalar registers (R80). -/
  | sub (g : Guard) (a : SOp) (b : SOp) (c : SOp)
  /-- Writes the bitwise AND of two scalar registers (R80). -/
  | and (g : Guard) (a : SOp) (b : SOp) (c : SOp)
  /-- Writes the bitwise OR of two scalar registers (R80). -/
  | or (g : Guard) (a : SOp) (b : SOp) (c : SOp)
  /-- Writes the bitwise XOR of two scalar registers (R80). -/
  | xor (g : Guard) (a : SOp) (b : SOp) (c : SOp)
  /-- Selects one of two scalar registers by a predicate bit named in REX.Q (R84). -/
  | sel (g : Guard) (a : SOp) (b : SOp) (c : SOp) (n : Fin 16)
  /-- Compares two scalar registers under the REX.Q condition and writes a predicate bit (R82). -/
  | cmpReg (g : Guard) (a : PBit) (b : SOp) (c : SOp) (k : Cond)
  /-- Compares a scalar register with a sign-extended immediate and writes a predicate bit (R82). -/
  | cmpImm (g : Guard) (a : PBit) (b : SOp) (imm : Int) (k : Cond)
  /-- Loads a sign-extended immediate into a scalar register (R80). -/
  | li (g : Guard) (a : SOp) (imm : Int)
  /-- Jumps unconditionally to PC plus twice the immediate (R99). -/
  | j (g : Guard) (imm : Int)
  /-- Loads a sign-extended byte from memory (R94). -/
  | ldB (g : Guard) (a : SOp) (b : SOp) (off : Int)
  /-- Loads a zero-extended byte from memory (R94). -/
  | ldBu (g : Guard) (a : SOp) (b : SOp) (off : Int)
  /-- Loads a sign-extended halfword from memory (R94). -/
  | ldH (g : Guard) (a : SOp) (b : SOp) (off : Int)
  /-- Loads a zero-extended halfword from memory (R94). -/
  | ldHu (g : Guard) (a : SOp) (b : SOp) (off : Int)
  /-- Loads a sign-extended word from memory (R94). -/
  | ldW (g : Guard) (a : SOp) (b : SOp) (off : Int)
  /-- Loads a zero-extended word from memory (R94). -/
  | ldWu (g : Guard) (a : SOp) (b : SOp) (off : Int)
  /-- Loads a doubleword from memory (R94). -/
  | ldD (g : Guard) (a : SOp) (b : SOp) (off : Int)
  /-- Writes a base register plus offset without accessing memory (R80). -/
  | lea (g : Guard) (a : SOp) (b : SOp) (off : Int)
  /-- Stores the low byte of a scalar register (R94). -/
  | stB (g : Guard) (a : SOp) (b : SOp) (off : Int)
  /-- Stores the low halfword of a scalar register (R94). -/
  | stH (g : Guard) (a : SOp) (b : SOp) (off : Int)
  /-- Stores the low word of a scalar register (R94). -/
  | stW (g : Guard) (a : SOp) (b : SOp) (off : Int)
  /-- Stores a scalar register as a doubleword (R94). -/
  | stD (g : Guard) (a : SOp) (b : SOp) (off : Int)
  /-- Loads a 16-byte pair into an even register pair (R95). -/
  | ldq (g : Guard) (a : SReg) (b : SOp) (off : Int)
  /-- Stores an even register pair as 16 bytes (R95). -/
  | stq (g : Guard) (a : SReg) (b : SOp) (off : Int)
  /-- Copies one scalar register to another (R80). -/
  | mov (g : Guard) (a : SOp) (b : SOp)
  /-- Clears in a register the bits set in another (R80). -/
  | andn (g : Guard) (a : SReg) (b : SOp)
  /-- Shifts a register left by an amount in a register (R81). -/
  | shlReg (g : Guard) (a : SReg) (b : SOp)
  /-- Shifts a register right logically by an amount in a register (R81). -/
  | shrReg (g : Guard) (a : SReg) (b : SOp)
  /-- Shifts a register right arithmetically by an amount in a register (R81). -/
  | sraReg (g : Guard) (a : SReg) (b : SOp)
  /-- Shifts a register left by an immediate amount (R81). -/
  | shlImm (g : Guard) (a : SReg) (k : Nat)
  /-- Shifts a register right logically by an immediate amount (R81). -/
  | shrImm (g : Guard) (a : SReg) (k : Nat)
  /-- Shifts a register right arithmetically by an immediate amount (R81). -/
  | sraImm (g : Guard) (a : SReg) (k : Nat)
  /-- ANDs one predicate bit into another (R83). -/
  | psetAnd (g : Guard) (a : PBit) (b : PBit)
  /-- ORs one predicate bit into another (R83). -/
  | psetOr (g : Guard) (a : PBit) (b : PBit)
  /-- XORs one predicate bit into another (R83). -/
  | psetXor (g : Guard) (a : PBit) (b : PBit)
  /-- ANDs the complement of one predicate bit into another (R83). -/
  | psetAndn (g : Guard) (a : PBit) (b : PBit)
  /-- Copies one predicate bit to another (R83). -/
  | psetMov (g : Guard) (a : PBit) (b : PBit)
  /-- Writes the complement of one predicate bit to another (R83). -/
  | psetNot (g : Guard) (a : PBit) (b : PBit)
  /-- Jumps to the address in a register, trapping MISALIGN on an odd target (R101). -/
  | jr (g : Guard) (a : SOp)
  /-- Does nothing but advance PC and YDL (R102). -/
  | nop (g : Guard)
  /-- Branches when a predicate bit is 1 (R98). -/
  | bTrue (g : Guard) (a : PBit) (imm : Int)
  /-- Branches when a predicate bit is 0 (R98). -/
  | bFalse (g : Guard) (a : PBit) (imm : Int)
  /-- Writes the link and jumps to PC plus twice the immediate (R100). -/
  | jal (g : Guard) (a : SOp) (imm : Int)
  /-- Writes the low 64 bits of a product (R86). -/
  | mul (g : Guard) (a : SOp) (b : SOp) (c : SOp)
  /-- Writes the high 64 bits of a signed product (R86). -/
  | mulh (g : Guard) (a : SOp) (b : SOp) (c : SOp)
  /-- Writes the high 64 bits of an unsigned product (R86). -/
  | mulhu (g : Guard) (a : SOp) (b : SOp) (c : SOp)
  /-- Writes the signed quotient, with defined results for zero and overflow (R87). -/
  | div (g : Guard) (a : SOp) (b : SOp) (c : SOp)
  /-- Writes the unsigned quotient, all ones for a zero divisor (R87). -/
  | divu (g : Guard) (a : SOp) (b : SOp) (c : SOp)
  /-- Writes the signed remainder (R87). -/
  | rem (g : Guard) (a : SOp) (b : SOp) (c : SOp)
  /-- Writes the unsigned remainder (R87). -/
  | remu (g : Guard) (a : SOp) (b : SOp) (c : SOp)
  /-- Writes the signed minimum (R88). -/
  | min (g : Guard) (a : SOp) (b : SOp) (c : SOp)
  /-- Writes the signed maximum (R88). -/
  | max (g : Guard) (a : SOp) (b : SOp) (c : SOp)
  /-- Writes the unsigned minimum (R88). -/
  | minu (g : Guard) (a : SOp) (b : SOp) (c : SOp)
  /-- Writes the unsigned maximum (R88). -/
  | maxu (g : Guard) (a : SOp) (b : SOp) (c : SOp)
  /-- Rotates a register left (R89). -/
  | rol (g : Guard) (a : SOp) (b : SOp) (c : SOp)
  /-- Rotates a register right (R89). -/
  | ror (g : Guard) (a : SOp) (b : SOp) (c : SOp)
  /-- Writes the low half of a carry-less product (R92). -/
  | clmul (g : Guard) (a : SOp) (b : SOp) (c : SOp)
  /-- Writes the high half of a carry-less product (R92). -/
  | clmulh (g : Guard) (a : SOp) (b : SOp) (c : SOp)
  /-- Extracts a bit field described by a register (R91). -/
  | bext (g : Guard) (a : SOp) (b : SOp) (c : SOp)
  /-- Inserts a bit field described by a register (R91). -/
  | bins (g : Guard) (a : SReg) (b : SOp) (c : SOp)
  /-- Counts leading zero bits (R90). -/
  | clz (g : Guard) (a : SOp) (b : SOp)
  /-- Counts trailing zero bits (R90). -/
  | ctz (g : Guard) (a : SOp) (b : SOp)
  /-- Counts one bits (R90). -/
  | popc (g : Guard) (a : SOp) (b : SOp)
  /-- Reverses the bits of a register (R90). -/
  | brev (g : Guard) (a : SOp) (b : SOp)
  /-- Reverses the bytes of a register (R90). -/
  | bswap (g : Guard) (a : SOp) (b : SOp)
  /-- Sign-extends the low byte (R90). -/
  | sextB (g : Guard) (a : SOp) (b : SOp)
  /-- Sign-extends the low halfword (R90). -/
  | sextH (g : Guard) (a : SOp) (b : SOp)
  /-- Sign-extends the low word (R90). -/
  | sextW (g : Guard) (a : SOp) (b : SOp)
  /-- Zero-extends the low byte (R90). -/
  | zextB (g : Guard) (a : SOp) (b : SOp)
  /-- Zero-extends the low halfword (R90). -/
  | zextH (g : Guard) (a : SOp) (b : SOp)
  /-- Zero-extends the low word (R90). -/
  | zextW (g : Guard) (a : SOp) (b : SOp)
  /-- Copies the predicate word into a scalar register (R85). -/
  | mfp (g : Guard) (a : SOp)
  /-- Writes predicate bits 0-30 from a scalar register (R85). -/
  | mtp (g : Guard) (a : SOp)
  /-- Adds two FP32 values with one rounding (R104). -/
  | fadd (g : Guard) (a : SOp) (b : SOp) (c : SOp)
  /-- Subtracts two FP32 values with one rounding (R104). -/
  | fsub (g : Guard) (a : SOp) (b : SOp) (c : SOp)
  /-- Multiplies two FP32 values with one rounding (R104). -/
  | fmul (g : Guard) (a : SOp) (b : SOp) (c : SOp)
  /-- Divides two FP32 values with one rounding (R104). -/
  | fdiv (g : Guard) (a : SOp) (b : SOp) (c : SOp)
  /-- Returns the smaller FP32 operand (R106). -/
  | fmin (g : Guard) (a : SOp) (b : SOp) (c : SOp)
  /-- Returns the larger FP32 operand (R106). -/
  | fmax (g : Guard) (a : SOp) (b : SOp) (c : SOp)
  /-- Fused FP32 multiply-add into the destination with one rounding (R104). -/
  | ffma (g : Guard) (a : SReg) (b : SOp) (c : SOp)
  /-- Compares two FP32 values into a predicate bit (R107). -/
  | fcmp (g : Guard) (a : PBit) (b : SOp) (c : SOp) (k : FCond)
  /-- Converts a signed 64-bit integer to FP32 (R108). -/
  | fcvtF32S64 (g : Guard) (a : SOp) (b : SOp)
  /-- Converts FP32 to a clamped signed 64-bit integer (R108). -/
  | fcvtS64F32 (g : Guard) (a : SOp) (b : SOp)
  /-- Converts an unsigned 64-bit integer to FP32 (R108). -/
  | fcvtF32U64 (g : Guard) (a : SOp) (b : SOp)
  /-- Converts FP32 to a clamped unsigned 64-bit integer (R108). -/
  | fcvtU64F32 (g : Guard) (a : SOp) (b : SOp)
  /-- Widens BF16 exactly to FP32 (R108). -/
  | fcvtF32Bf16 (g : Guard) (a : SOp) (b : SOp)
  /-- Rounds FP32 to BF16 (R108). -/
  | fcvtBf16F32 (g : Guard) (a : SOp) (b : SOp)
  /-- Element-wise wrapping integer add (R138). -/
  | vAdd (g : Guard) (a : VReg) (b : VReg) (c : VReg)
  /-- Element-wise wrapping integer subtract (R138). -/
  | vSub (g : Guard) (a : VReg) (b : VReg) (c : VReg)
  /-- Element-wise low integer product (R138). -/
  | vMul (g : Guard) (a : VReg) (b : VReg) (c : VReg)
  /-- Element-wise integer multiply-add into the destination (R138). -/
  | vFma (g : Guard) (a : VReg) (b : VReg) (c : VReg)
  /-- Element-wise signed minimum (R138). -/
  | vMin (g : Guard) (a : VReg) (b : VReg) (c : VReg)
  /-- Element-wise signed maximum (R138). -/
  | vMax (g : Guard) (a : VReg) (b : VReg) (c : VReg)
  /-- Element-wise AND (R138). -/
  | vAnd (g : Guard) (a : VReg) (b : VReg) (c : VReg)
  /-- Element-wise OR (R138). -/
  | vOr (g : Guard) (a : VReg) (b : VReg) (c : VReg)
  /-- Element-wise XOR (R138). -/
  | vXor (g : Guard) (a : VReg) (b : VReg) (c : VReg)
  /-- Element-wise left shift (R138). -/
  | vShl (g : Guard) (a : VReg) (b : VReg) (c : VReg)
  /-- Element-wise logical right shift (R138). -/
  | vShr (g : Guard) (a : VReg) (b : VReg) (c : VReg)
  /-- Element-wise integer compare into an all-ones mask (R139). -/
  | vCmp (g : Guard) (a : VReg) (b : VReg) (c : VReg) (k : Cond)
  /-- Element-wise select by the destination as mask (R139). -/
  | vSel (g : Guard) (a : VReg) (b : VReg) (c : VReg)
  /-- Element-wise carry-less product, low half (R138). -/
  | vClmul (g : Guard) (a : VReg) (b : VReg) (c : VReg)
  /-- Element-wise integer absolute value (R140). -/
  | vAbs (g : Guard) (a : VReg) (b : VReg)
  /-- Element-wise integer negation (R140). -/
  | vNeg (g : Guard) (a : VReg) (b : VReg)
  /-- Element-wise population count (R140). -/
  | vPopc (g : Guard) (a : VReg) (b : VReg)
  /-- Element-wise floating add with one rounding (R142). -/
  | vAddF (g : Guard) (a : VReg) (b : VReg) (c : VReg)
  /-- Element-wise floating subtract (R142). -/
  | vSubF (g : Guard) (a : VReg) (b : VReg) (c : VReg)
  /-- Element-wise floating multiply (R142). -/
  | vMulF (g : Guard) (a : VReg) (b : VReg) (c : VReg)
  /-- Element-wise fused floating multiply-add (R142). -/
  | vFmaF (g : Guard) (a : VReg) (b : VReg) (c : VReg)
  /-- Element-wise floating minimum (R142). -/
  | vMinF (g : Guard) (a : VReg) (b : VReg) (c : VReg)
  /-- Element-wise floating maximum (R142). -/
  | vMaxF (g : Guard) (a : VReg) (b : VReg) (c : VReg)
  /-- Element-wise floating compare into a mask (R143). -/
  | vCmpF (g : Guard) (a : VReg) (b : VReg) (c : VReg) (k : FCond)
  /-- Element-wise clearing of the sign bit (R142). -/
  | vAbsF (g : Guard) (a : VReg) (b : VReg)
  /-- Element-wise inversion of the sign bit (R142). -/
  | vNegF (g : Guard) (a : VReg) (b : VReg)
  /-- Element-wise 2^x, correctly rounded (R151). -/
  | vExp2 (g : Guard) (a : VReg) (b : VReg)
  /-- Element-wise log2 x (R151). -/
  | vLog2 (g : Guard) (a : VReg) (b : VReg)
  /-- Element-wise reciprocal (R151). -/
  | vRcp (g : Guard) (a : VReg) (b : VReg)
  /-- Element-wise reciprocal square root (R151). -/
  | vRsq (g : Guard) (a : VReg) (b : VReg)
  /-- Element-wise hyperbolic tangent (R151). -/
  | vTanh (g : Guard) (a : VReg) (b : VReg)
  /-- Sets the vector shape register (R134). -/
  | vShape (g : Guard) (lrows : Fin 16) (esz : Fin 4)
  /-- Loads the rows of a vector register with a row stride, precisely (R135). -/
  | vLd (g : Guard) (a : VReg) (b : SReg) (c : SReg)
  /-- Stores the rows of a vector register with a row stride (R135). -/
  | vSt (g : Guard) (a : VReg) (b : SReg) (c : SReg)
  /-- Broadcasts a scalar into every element (R137). -/
  | vBcast (g : Guard) (a : VReg) (b : SReg)
  /-- Transposes a vector register (R148). -/
  | vTrn (g : Guard) (a : VReg) (b : VReg)
  /-- Reads one indexed element into a scalar register (R137). -/
  | vMovxToScalar (g : Guard) (a : SReg) (b : VReg) (c : SReg)
  /-- Writes a scalar into one indexed element (R137). -/
  | vMovxToElement (g : Guard) (a : VReg) (b : SReg) (c : SReg)
  /-- Converts element formats, source in REX.Q and destination in f (R144). -/
  | vCvt (g : Guard) (dst : VFmt) (src : VFmt) (a : VReg) (b : VReg)
  /-- Reduces each row in a fixed tree (R145). -/
  | vRedr (g : Guard) (op : RedOp) (a : VReg) (b : VReg)
  /-- Reduces each column in a fixed tree (R145). -/
  | vRedc (g : Guard) (op : RedOp) (a : VReg) (b : VReg)
  /-- Inclusive scan along each row (R147). -/
  | vScan (g : Guard) (op : RedOp) (a : VReg) (b : VReg)
  /-- Gathers elements within one register by indices (R149). -/
  | vPerm (g : Guard) (a : VReg) (b : VReg) (c : VReg)
  /-- Packs byte equality of one row into a scalar mask (R150). -/
  | vMaskb (g : Guard) (a : SReg) (b : VReg) (c : SReg) (row : Fin 16)
  /-- Requests a queued reservation on a doubleword and waits for the grant (R207). -/
  | lrw (g : Guard) (sc : Scope) (a : SReg) (b : SReg)
  /-- Stores to the reserved word and hands the reservation on (R208). -/
  | sch (g : Guard) (sc : Scope) (a : SReg) (b : SReg)
  /-- Gives up the reservation without writing (R209). -/
  | rls (g : Guard) (sc : Scope) (b : SReg)
  /-- Doubleword atomic operation at the home, returning the old value (R203). -/
  | amoD (g : Guard) (o : Order) (sc : Scope) (op : AmoOp) (a : SReg) (b : SReg) (c : SReg)
  /-- Word atomic operation at the home, returning the old value (R203). -/
  | amoW (g : Guard) (o : Order) (sc : Scope) (op : AmoOp) (a : SReg) (b : SReg) (c : SReg)
  /-- Halfword BF16 atomic add at the home (R203). -/
  | amoH (g : Guard) (o : Order) (sc : Scope) (op : AmoOp) (a : SReg) (b : SReg) (c : SReg)
  /-- Doubleword compare-and-swap at the home (R204). -/
  | casD (g : Guard) (o : Order) (sc : Scope) (a : SReg) (b : SReg) (c : SReg)
  /-- 16-byte compare-and-swap at the home (R204). -/
  | casQ (g : Guard) (o : Order) (sc : Scope) (a : SReg) (b : SReg) (c : SReg)
  /-- Posts an atomic reduction to the home without returning a value (R205). -/
  | red (g : Guard) (o : Order) (sc : Scope) (w : RedWidth) (op : AmoOp) (b : SReg) (c : SReg)
  /-- Waits for all CORE-path acknowledgements and raises Clock to the store horizon (R274). -/
  | fence (g : Guard) (sc : Scope)
  /-- Waits for acknowledgements and raises the store floor only (R274). -/
  | fenceS (g : Guard) (sc : Scope)
  /-- Orders one path's earlier work before the next work of another path (R275). -/
  | fenceX (g : Guard) (sc : Scope) (k1 : Path) (k2 : Path)
  /-- Merges an era-tagged clock value into Clock (R281). -/
  | clkmax (g : Guard) (a : SReg)
  /-- Reads the clock with its era (R282). -/
  | rdtck (g : Guard) (a : SReg)
  /-- Waits until the monitored line is written (R217). -/
  | mwait (g : Guard)
  /-- Loads a doubleword from its home, never from a leased copy (R215). -/
  | poll (g : Guard) (sc : Scope) (a : SReg) (b : SReg)
  /-- Arms the strand's monitor on a line (R216). -/
  | mon (g : Guard) (sc : Scope) (b : SReg)
  /-- Initialises a barrier object's expected count (R213). -/
  | bari (g : Guard) (sc : Scope) (a : SReg) (b : SReg)
  /-- Arrives at a barrier and returns its phase (R213). -/
  | bara (g : Guard) (sc : Scope) (a : SReg) (b : SReg)
  /-- Adds pending bytes to a barrier (R213). -/
  | barx (g : Guard) (sc : Scope) (a : SReg) (b : SReg)
  /-- Waits until a barrier phase has completed (R214). -/
  | barw (g : Guard) (sc : Scope) (a : SReg) (b : SReg)
  /-- Defines a stream from a scratchpad record and returns a handle (R326). -/
  | sdef (g : Guard) (a : SReg) (b : SReg)
  /-- Binds a defined stream to a stream register (R327). -/
  | sbind (g : Guard) (a : ZReg) (b : SReg)
  /-- Starts or resumes a detached stream (R328). -/
  | sgo (g : Guard) (b : SReg)
  /-- Recalls a detached stream and waits until its context is home (R329). -/
  | srecall (g : Guard) (b : SReg)
  /-- Reads one doubleword of a stream context (R330). -/
  | sstat (g : Guard) (a : SReg) (b : SReg)
  /-- Waits for a detached stream to stop (R331). -/
  | swait (g : Guard) (b : SReg)
  /-- Frees a stream context (R332). -/
  | sfree (g : Guard) (b : SReg)
  /-- Seals a shape record by raising its version and CRC (R345). -/
  | tseal (g : Guard) (b : SReg)
  /-- Prefetches the lines of a box into their home slices (R360). -/
  | tpref (g : Guard) (b : SReg)
  /-- Reads a copy token without waiting (R356). -/
  | tstat (g : Guard) (a : SReg) (b : SReg)
  /-- Starts a copy of a box from memory to scratchpad (R352). -/
  | tcopySp (g : Guard) (a : SReg) (b : SReg) (c : SReg)
  /-- Starts a copy of a box from memory to an operand slot (R352). -/
  | tcopySlot (g : Guard) (a : SReg) (b : SReg) (c : SReg)
  /-- Starts a copy of a box from memory to the weight store (R227). -/
  | tcopyWs (g : Guard) (a : SReg) (b : SReg) (c : SReg)
  /-- Starts a copy of a box from scratchpad to memory (R352). -/
  | tcopyMem (g : Guard) (a : SReg) (b : SReg) (c : SReg)
  /-- Starts a multicast copy to several cores' scratchpads (R357). -/
  | tcopym (g : Guard) (a : SReg) (b : SReg) (c : SReg)
  /-- Starts a box reduction from scratchpad into memory at each element's home (R359). -/
  | tred (g : Guard) (op : TredOp) (a : SReg) (b : SReg) (c : SReg)
  /-- Issues a tile multiply-accumulate and leaves the rotation until it completes (R379). -/
  | mma (g : Guard) (a : CAcc) (b : MSlot) (c : MSlot)
  /-- Claims an operand slot for the domain (R385). -/
  | mclmSlot (g : Guard) (a : MSlot)
  /-- Claims an accumulator for the domain (R385). -/
  | mclmAcc (g : Guard) (a : CAcc)
  /-- Releases an operand slot, zeroed in command order (R385). -/
  | mrelSlot (g : Guard) (a : MSlot)
  /-- Releases an accumulator, zeroed in command order (R385). -/
  | mrelAcc (g : Guard) (a : CAcc)
  /-- Zeroes an accumulator and clears its poison mark (R385). -/
  | mzero (g : Guard) (a : CAcc)
  /-- Reads the matrix engine state for the domain (R386). -/
  | mstat (g : Guard) (a : SReg)
  /-- Issues a fill of slot bytes from scratchpad (R375). -/
  | mfill (g : Guard) (a : MSlot) (b : SReg) (c : SReg)
  /-- Issues a fill of a slot chunk from a vector register (R375). -/
  | mfillV (g : Guard) (a : MSlot) (b : VReg)
  /-- Issues a copy of 8 KiB from the weight store into a slot (R376). -/
  | mldw (g : Guard) (a : MSlot) (b : SReg)
  /-- Issues a replacement of a slot's scale sidecar (R377). -/
  | mscl (g : Guard) (a : MSlot) (b : SReg)
  /-- Issues a conversion of an accumulator into FMTC stored to scratchpad (R384). -/
  | mstc (g : Guard) (a : CAcc) (b : SReg) (c : SReg)
  /-- Issues a conversion of an accumulator into vector registers (R384). -/
  | mstcV (g : Guard) (a : CAcc) (b : VReg)
  /-- Migrates the strand to the home core of an address (R187). -/
  | mig (g : Guard) (b : SReg)
  /-- Migrates the strand to the bank core of an address's channel (R187). -/
  | migBank (g : Guard) (b : SReg)
  /-- Waits until the domain's mailbox share is not empty (R199). -/
  | mbwait (g : Guard)
  /-- Removes the head mailbox entry into memory (R199). -/
  | mbrecv (g : Guard) (a : SReg) (b : SReg)
  /-- Appends a message to the domain's mailbox share on a core (R199). -/
  | mbsend (g : Guard) (a : SReg) (b : SReg)
  /-- Reads a queue register's fill level (R197). -/
  | qstat (g : Guard) (a : SReg) (b : QReg)
  /-- Zeroes a completion pair as a release (R400). -/
  | bkseq (g : Guard) (b : SReg)
  /-- Reports how many bank commands on a pair have not ended (R411). -/
  | bkstat (g : Guard) (a : SReg) (b : SReg)
  /-- Issues a bank command zeroing chunks by row clone (R403). -/
  | drzero (g : Guard) (a : SReg) (b : SReg)
  /-- Sends an active message and waits for its reply (R190). -/
  | amsg (g : Guard) (a : SReg) (b : SReg) (c : SReg)
  /-- Issues a BF16 element-wise add bank command (R404). -/
  | bkadd (g : Guard) (a : SReg) (b : SReg) (c : SReg)
  /-- Issues a BF16 element-wise multiply bank command (R404). -/
  | bkmul (g : Guard) (a : SReg) (b : SReg) (c : SReg)
  /-- Issues a BF16 element-wise multiply-add bank command (R404). -/
  | bkfma (g : Guard) (a : SReg) (b : SReg) (c : SReg)
  /-- Issues a bank command copying chunks inside the DRAM (R405). -/
  | drcpy (g : Guard) (a : SReg) (b : SReg)
  /-- Ends the strand after its stores and commands complete (R181). -/
  | retire (g : Guard)
  /-- Returns from the trap handler to TPC (R36). -/
  | tret
  /-- Returns through the gate last entered (R433). -/
  | gret
  /-- Arrives at the gang barrier and waits (R161). -/
  | gsync (g : Guard)
  /-- Changes the core's register mode, merging or splitting slots (R157). -/
  | repart (g : Guard) (m : Mode)
  /-- Reads the global time counter (R254). -/
  | rdgtc (g : Guard) (a : SReg)
  /-- Reads a calendar value, including the signed room or wait (R261). -/
  | rdcal (g : Guard) (a : SReg) (n : Fin 5)
  /-- Loads a pending slot table for the core (R158). -/
  | slotset (g : Guard) (b : SReg)
  /-- Raises the domain's eviction-schedule step counter (R240). -/
  | step (g : Guard) (b : SReg)
  /-- Reads a control register (R33). -/
  | mfc (g : Guard) (a : SReg) (cr : CR)
  /-- Writes a control register (R34). -/
  | mtc (g : Guard) (cr : CR) (a : SReg)
  /-- Raises BREAK into the domain's handler (R35). -/
  | trap (g : Guard) (imm : Int)
  /-- Reloads the yield deadline, charges the region and may unseat the strand (R179). -/
  | yield (d : Fin 128)
  /-- Enters a gate into another domain, saving the caller state (R432). -/
  | gate (n : Fin 256)
  /-- Appends a launch record with a direct gang count (R173). -/
  | launch (g : Guard) (a : SReg) (b : SReg) (c : SReg)
  /-- Appends a launch record, parking until the share has room (R173). -/
  | launchW (g : Guard) (a : SReg) (b : SReg) (c : SReg)
  /-- Appends a launch record with an indirect gang count (R173). -/
  | launchi (g : Guard) (a : SReg) (b : SReg) (c : SReg)
  /-- Appends an indirect launch record, parking until room (R173). -/
  | launchiW (g : Guard) (a : SReg) (b : SReg) (c : SReg)
  /-- Writes back the dirty lines of a range at their homes (R250). -/
  | clnr (g : Guard) (a : SReg) (b : SReg)
  /-- Drops the lines of a range without write-back (R250). -/
  | invr (g : Guard) (a : SReg) (b : SReg)
  /-- Writes back and drops the lines of a range (R250). -/
  | flsr (g : Guard) (a : SReg) (b : SReg)
  /-- Posts prefetches for the lines of a range (R251). -/
  | pref (g : Guard) (a : SReg) (b : SReg)
  /-- Drops this core's TLB entries of a domain over a range (R248). -/
  | tlbi (g : Guard) (a : SReg) (b : SReg)
  /-- Raises a domain's generation and shoots down translations package-wide (R248). -/
  | tlbsd (g : Guard) (a : SReg) (b : SReg)
  -- events: no word encodes them
  /-- A held asynchronous cause is delivered at an instruction boundary (R28). -/
  | asyncCauseDelivery
  /-- An instruction starting with YDL at 0 ends the strand and fails its task (R179). -/
  | yieldOverrun
  /-- A handler instruction starting with YDL at 0 ends the handler and fails the sender's task (R194). -/
  | handlerOverrun
  /-- An instruction a bank core cannot run sends the strand back to a full core as a migration packet (R397). -/
  | bankReturnTrap
  /-- A load's data arrives and is written, letting the strand issue again (R97). -/
  | loadCompletion (k : Nat)
  /-- A posted store is performed at its line's home with a new store time (R268). -/
  | storeHomePerform (k : Nat) (id : Nat)
  /-- A store acknowledgement arrives and raises the store horizon (R269). -/
  | storeAcknowledgement (k : Nat) (id : Nat)
  /-- A posted reduction is applied at the word's home in one step (R205). -/
  | redHomeStep (k : Nat) (id : Nat)
  /-- A posted prefetch brings a line into its home slice (R251). -/
  | prefetchFill
  /-- A translation holder drops its translations after the use in progress and reports (R249). -/
  | shootdownHolderDrop (h : Nat)
  /-- A remote scratchpad access is performed at the target core in one handler-slot turn (R184). -/
  | remoteScratchpadAccess (k : Nat) (id : Nat)
  /-- A queued active message starts in the handler slot of the target core (R191). -/
  | handlerStart (c : Nat)
  /-- The reply of an active message reaches the sender, completing or trapping its AMSG (R190). -/
  | amsgReply (k : Nat)
  /-- A destination core grants a run-queue entry reserved for a migration packet (R189). -/
  | migrationRunqGrant (c : Nat)
  /-- A migration packet arrives and becomes a run-queue entry of its domain (R189). -/
  | migrationPacketArrival (k : Nat)
  /-- A core seats the oldest fitting run-queue entry of a domain in free slots (R178). -/
  | seatEntry (c : Nat) (d : Nat)
  /-- The Maltster picks a ready region and places one work packet on a run queue (R170). -/
  | maltsterDispatch (die : Nat)
  /-- The Maltster sees a launch word written and takes newly published queue entries (R165). -/
  | launchWordWatch (r : Nat)
  /-- The Maltster rereads a region's fence word when its line is written (R166). -/
  | regionDependenceReread (r : Nat)
  /-- A region ready for 2^20 cycles without dispatch rises one priority level (R171). -/
  | priorityAging (r : Nat)
  /-- The Maltster reads an indirect launch count when the record reaches the head of a ready region (R175). -/
  | launchiCountRead (r : Nat)
  /-- A parked LAUNCH.W appends its record when a record of its share frees (R173). -/
  | launchParkRelease (k : Nat)
  /-- The last gang member arrives and all waiters resume with merged clocks (R161). -/
  | gsyncComplete (gid : Nat)
  /-- A slot in rotation changes owner once its strand is unseated, waits or retires (R430). -/
  | slotRotationHandover (c : Nat) (slot : Nat)
  /-- A hardware message held for a full share is delivered when an entry frees (R198). -/
  | heldMessageDelivery (c : Nat) (d : Nat)
  /-- Strands waiting in MBWAIT are released when the share becomes non-empty (R199). -/
  | mbwaitWake (c : Nat) (d : Nat)
  /-- A waiting LRW receives the reservation with the latest value (R207). -/
  | reservationGrant (pa : Nat)
  /-- A BARW waiter returns once its phase has completed (R214). -/
  | barwWake (k : Nat)
  /-- A coherent write to the monitored line ends MWAIT (R217). -/
  | mwaitWake (k : Nat)
  /-- A SWAIT returns when the stream stops (R331). -/
  | swaitWake (k : Nat)
  /-- A minor maintenance slot begins with DRAM and weight-store refresh (R255). -/
  | minorSlotStart
  /-- A major maintenance slot begins with trimming, calibration and sweeps (R255). -/
  | majorSlotStart
  /-- At 128 ticks before an interval, copies and channel streams park and bank work is cut off (R262). -/
  | drainDeadline
  /-- A maintenance interval ends; parked and held work resumes and stalled accesses proceed (R262). -/
  | intervalEnd
  /-- A detached stream reads and folds its next element, hopping first if needed (R318). -/
  | streamElement (c : Nat) (x : Nat) (float : Bool)
  /-- A recalled context arrives home with STATE 6 and releases held stores (R320). -/
  | streamRecallArrive (c : Nat) (x : Nat)
  /-- A coupled read stream reads ahead an element into its window (R314). -/
  | streamWindowFill (c : Nat) (x : Nat)
  /-- A coupled write stream writes an accepted push to memory (R315). -/
  | streamPushWrite (c : Nat) (x : Nat)
  /-- The copy engine performs one burst of a command's box (R352). -/
  | copyBurst (c : Nat) (id : Nat)
  /-- A copy completes or fails and writes its token with Tc (R354). -/
  | copyCompletion (c : Nat) (id : Nat)
  /-- An MMA writes its accumulator and its strand becomes ready (R382). -/
  | mmaCompletion (c : Nat)
  /-- A queued fill, load, scale, store or zero command is performed in issue order (R371). -/
  | matrixCommandCompletion (c : Nat)
  /-- A bank core performs one row operation of a command part (R406). -/
  | bankRowOperation (ch : Nat)
  /-- An ended bank command writes its record and the completion step in ticket order (R408). -/
  | bankCommandEnd (id : Nat)
  /-- A reassigned scratchpad bank is zeroed after the old holder's accesses and served to the new holder (R421). -/
  | scratchpadBankHandover (c : Nat) (bank : Nat)
  /-- Stops a partition's strands and engine items, reports them and replays or fails its regions (R436). -/
  | partitionReset (d : Nat)
  /-- An uncorrectable logic error takes a unit out of service and resets the charged partitions (R446). -/
  | fatalError (u : Unit3)
  /-- A monitor store to a domain partition register without behaviour of its own, checked and acknowledged once in force (R420). -/
  | partitionRegisterWrite (addr : Word) (val : Word)
  /-- Assigns a slot's owner, starting, replacing or cancelling a rotation (R430). -/
  | slotownWrite (c : Nat) (slot : Nat) (d : Nat)
  /-- Reassigns scratchpad banks, to be zeroed before the new holder is served (R421). -/
  | spbankWrite (c : Nat) (d : Nat) (m : BitVec 16)
  /-- Reassigns weight-store granules, zeroing each one that changes hands (R226). -/
  | wsgWrite (c : Nat) (d : Nat) (m : BitVec 16)
  /-- Force-releases a domain's claims on operand slots (R421). -/
  | frelm (c : Nat) (d : Nat) (m : BitVec 16)
  /-- Force-releases a domain's claims on accumulators (R421). -/
  | frelc (c : Nat) (d : Nat) (m : BitVec 8)
  /-- Resizes a domain's mailbox share on a core, discarding held messages when set to 0 (R423). -/
  | mboxWrite (c : Nat) (d : Nat) (n : Nat)
  /-- Sets a stream quota; a quota of 0 fails the domain's contexts on the core (R335). -/
  | strqWrite (c : Nat) (d : Nat) (n : Nat)
  /-- Moves or resizes an L2 set range, first emptying the sets given up (R237). -/
  | setRangeWrite (sl : Nat) (i : Nat) (val : Word)
  /-- Installs an eviction schedule and zeroes the step counter (R239). -/
  | schedWrite (d : Nat) (val : Word)
  /-- A monitor store of RESET requests a partition reset (R425). -/
  | partitionResetRequest (d : Nat)
  /-- A monitor store of CREATE takes a partition from absent to running and clears its counters (R425). -/
  | partitionCreate (d : Nat)
  /-- Selects the host port for a domain's later host-memory accesses (R451). -/
  | hportWrite (d : Nat) (port : Nat)
  /-- Returns the health state from WARN to GOOD (R449). -/
  | healthWclr
  /-- A DID 0 store requests a bias flip of an HDM page (R461). -/
  | biasFlipRequest (val : Word)
  /-- A host's bias-flip command through its logical device flips a page's bias (R461). -/
  | hostBiasFlipCommand (ld : Nat) (page : Nat) (host : Bool)
  /-- A host write to a device-bias line is performed at its home above the host clock (R460). -/
  | hostWrite (fn : Nat) (port : Nat) (ld : Nat) (addr : Nat) (data : List Byte) (ro : Bool)
  /-- A host read of a device-bias line is performed at its home and raises the host clock (R460). -/
  | hostRead (fn : Nat) (port : Nat) (ld : Nat) (addr : Nat) (n : Nat)
  /-- The fabric manager binds a logical device to a domain or unbinds it (R459). -/
  | ldBind (ld : Nat) (d : Option Nat)
  /-- A strand's store to the interrupt window requests an MSI-X vector of a bound function (R463). -/
  | interruptRequest (val : Word)
  /-- The coalescing timer or count expires and pending vectors are delivered (R464). -/
  | interruptCoalesceExpiry (d : Nat)
  /-- A frame arrives on a port, checked by FEC and CRC and replayed if bad (R456). -/
  | thaythFrameReceive (port : Nat) (good : Bool)
  /-- Sixteen consecutive failed replays take a port out of service (R456). -/
  | thaythPortDown (port : Nat)
  /-- A request or reply from another package arrives and is performed or delivered once (R457). -/
  | remoteMessageReceive (m : RemoteMsg)
  /-- The boot ROM verifies firmware, which trains links, starts the GTC and loads the monitor (R466). -/
  | packageReset (good : Bool)
  /-- Signs an attestation report with a fresh leaf index (R467). -/
  | attestationRequest (nonce : BitVec 256)
  /-- Sustained power or junction temperature makes the controller lower the core clock (R469). -/
  | clockThrottle (low : Bool)
  /-- A strand decodes a chain that is no instruction, such as PAG page 9 or a run of 0xFFFF words, and raises ILLEGAL with the words read in TVAL (R59). -/
  | illegalEncoding (w : Word)
  /-- The fetch of the next instruction raises XLATE, PROT or POISON with TPC at its first word (R61). -/
  | instructionFetchFault (cause : Cause) (tval : Word)
  /-- A write-back waiting in a channel's write queue reaches the DRAM arrays and becomes visible to the BANK path, releasing a waiting FENCE.X CORE, BANK (R280). -/
  | writebackReachesArrays (line : Nat)
  /-- A host port whose lanes fail trains again to x8 or x4 (R458). -/
  | hostPortLaneFailure (port : Nat) (lanes : Nat)
  /-- A virtual function is bound to a DID or left unbound, which decides which interrupt stores raise DOMAIN (R463). -/
  | virtualFunctionBind (fn : Nat) (d : Option Nat)
  deriving DecidableEq, Repr

end Sys2Proof
end

