-- ==== Sys2Proof/Machine/Bits.lean ====
section
/-! DEFINITION. Bit fields, byte order and finite maps: the helpers the machine is written with. -/

namespace Sys2Proof.Machine

/-- Bits hi down to lo of a number, inclusive (R4). -/
def bits (x hi lo : Nat) : Nat := x / 2 ^ lo % 2 ^ (hi + 1 - lo)

/-- Bits hi down to lo of a word, as a number (R4). -/
def wbits (x : Word) (hi lo : Nat) : Nat := bits x.toNat hi lo

/-- Bit i of a number. -/
def bit (x i : Nat) : Bool := x / 2 ^ i % 2 == 1

/-- `x` with bits hi down to lo replaced by `v`. -/
def setBits (x hi lo v : Nat) : Nat :=
  x - bits x hi lo * 2 ^ lo + v % 2 ^ (hi + 1 - lo) * 2 ^ lo

/-- A Bool as a number. -/
def b2n (b : Bool) : Nat := if b then 1 else 0

/-- The word of a number, modulo 2^64. -/
def w64 (x : Nat) : Word := BitVec.ofNat 64 x

/-- The word of an integer, modulo 2^64. -/
def wInt (x : Int) : Word := BitVec.ofInt 64 x

/-- The low `n` bits of `x`, sign-extended to an integer. -/
def sextN (n x : Nat) : Int :=
  let y := x % 2 ^ n
  if 2 * y < 2 ^ n then (y : Int) else (y : Int) - (2 ^ n : Nat)

/-- The low `n` bits of `x`, sign-extended to 64 bits (R38). -/
def sext (n x : Nat) : Word := wInt (sextN n x)

/-- The value of bytes in little-endian order (R5). -/
def leVal : List Byte → Nat
  | [] => 0
  | b :: bs => b.toNat + 256 * leVal bs

/-- The `n` bytes of a value in little-endian order (R5). -/
def leBytes : Nat → Nat → List Byte
  | 0, _ => []
  | n + 1, v => BitVec.ofNat 8 v :: leBytes n (v / 256)

/-- `n` numbers from `a` up. -/
def upto (a n : Nat) : List Nat := (List.range n).map (a + ·)

/-- The aligned block of size `n` that holds `a`, as its first address. -/
def alignDown (a n : Nat) : Nat := a / n * n

/-- `a` raised to a multiple of `n`. -/
def alignUp (a n : Nat) : Nat := (a + n - 1) / n * n

/-- log2 of a power of two, by counting. -/
def ceilDiv (a b : Nat) : Nat := (a + b - 1) / b

/-- A finite map from numbers, in ascending order of key. -/
abbrev KMap (α : Type) := List (Nat × α)

/-- The entry of a key. -/
def kget? {α : Type} : KMap α → Nat → Option α
  | [], _ => none
  | (k, v) :: m, i => if k = i then some v else kget? m i

/-- The entry of a key, or the value an absent key has. -/
def kget {α : Type} (m : KMap α) (i : Nat) (d : α) : α := (kget? m i).getD d

/-- The map with one key set. -/
def kset {α : Type} : KMap α → Nat → α → KMap α
  | [], i, v => [(i, v)]
  | (k, w) :: m, i, v =>
    if i < k then (i, v) :: (k, w) :: m
    else if i = k then (i, v) :: m
    else (k, w) :: kset m i v

/-- The map without a key. -/
def kdel {α : Type} (m : KMap α) (i : Nat) : KMap α := m.filter (fun e => e.1 != i)

/-- Insert at the end unless present. -/
def addNew (l : List Nat) (x : Nat) : List Nat := if l.contains x then l else l ++ [x]

/-- The first element of a list for which a test holds, removed from the list. -/
def takeFirst {α : Type} (f : α → Bool) : List α → Option (α × List α)
  | [] => none
  | x :: xs =>
    if f x then some (x, xs)
    else match takeFirst f xs with
      | some (y, ys) => some (y, x :: ys)
      | none => none

/-- The list with `f` applied to every element for which a test holds. -/
def mapIf {α : Type} (t : α → Bool) (f : α → α) (l : List α) : List α :=
  l.map (fun x => if t x then f x else x)

/-- The element of a list with the least measure, the first such. -/
def minBy {α : Type} (f : α → Nat) : List α → Option α
  | [] => none
  | x :: xs => match minBy f xs with
    | none => some x
    | some y => if f y < f x then some y else some x

/-- The code of a register mode (R22). -/
def modeCode : Mode → Nat
  | .m16 => 0
  | .m32 => 1
  | .m64 => 2

/-- The register mode of a code. -/
def modeOf : Nat → Mode
  | 0 => .m16
  | 1 => .m32
  | _ => .m64

/-- Scalar registers a strand can name (R14). -/
def modeS : Mode → Nat
  | .m16 => 16
  | .m32 => 32
  | .m64 => 64

/-- Vector registers a strand can name (R14). -/
def modeV : Mode → Nat
  | .m16 => 4
  | .m32 => 8
  | .m64 => 16

/-- Barrel slots of a core (R154). -/
def modeSlots : Mode → Nat
  | .m16 => 32
  | .m32 => 16
  | .m64 => 8

/-- The cause codes (R31). -/
def causeCode : Cause → Nat
  | .illegal => 0x01 | .priv => 0x02 | .misalign => 0x03 | .xlate => 0x04 | .prot => 0x05 | .domain => 0x06
  | .bounds => 0x07 | .seal => 0x08 | .yieldOverrun => 0x09 | .slotOverrun => 0x0A | .poison => 0x0B
  | .staleXlate => 0x0C | .gate => 0x0D | .stream => 0x0E | .matrix => 0x0F | .handlerOverrun => 0x10 | .brk => 0x11

/-- The cause of a code (R31). -/
def causeOf (n : Nat) : Option Cause :=
  [Cause.illegal, .priv, .misalign, .xlate, .prot, .domain, .bounds, .seal, .yieldOverrun, .slotOverrun, .poison, .staleXlate, .gate, .stream,
    .matrix, .handlerOverrun, .brk].find? (fun c => causeCode c == n)

/-- The rank of a cause among those of one instruction (R29); causes that R29 does not order come last. -/
def causeRank : Cause → Nat
  | .illegal => 0 | .priv => 1 | .misalign => 2 | .xlate => 3 | .staleXlate => 4 | .prot => 5 | .domain => 6
  | .bounds => 7 | .seal => 8 | .gate => 9 | .stream => 10 | .matrix => 11 | .poison => 12
  | .yieldOverrun => 13 | .slotOverrun => 14 | .handlerOverrun => 15 | .brk => 16

end Sys2Proof.Machine
end

