-- ==== Sys2Proof/Machine/Num.lean ====
section
/-! DEFINITION. Number formats and exact arithmetic: decoding into exact values, the one rounding of R122, conversion to integers, and
the exact operations the scalar, vector, stream, copy, atomic, matrix and bank units share. -/

namespace Sys2Proof.Machine

/-- An exact value (the wide internal form): a NaN, an infinity, or a sign and a magnitude num/den. -/
inductive Num where
  | nan
  | inf (neg : Bool)
  | fin (neg : Bool) (num den : Nat)
  deriving DecidableEq, Repr

/-- The floating formats (R110). -/
inductive Fmt where
  | f32 | bf16 | e4m3 | t8 | t6 | e5m3 | e2m1
  deriving DecidableEq, Repr

/-- Width of the fraction of an IEEE-style format. -/
def fracW : Fmt → Nat
  | .f32 => 23 | .bf16 => 7 | .e4m3 => 3 | .e5m3 => 3 | .e2m1 => 1
  | .t8 => 0 | .t6 => 0

/-- Every magnitude is a multiple of 2^-unitExp. -/
def unitExp : Fmt → Nat
  | .f32 => 149 | .bf16 => 133 | .e4m3 => 9 | .t8 => 12 | .t6 => 4 | .e5m3 => 17 | .e2m1 => 1

/-- Width of the magnitude code, which is also the sign's bit number. -/
def magW : Fmt → Nat
  | .f32 => 31 | .bf16 => 15 | .e4m3 => 7 | .t8 => 7 | .t6 => 5 | .e5m3 => 8 | .e2m1 => 3

/-- The magnitude code of the largest finite value (R122). -/
def maxCode : Fmt → Nat
  | .f32 => 0x7F7FFFFF | .bf16 => 0x7F7F | .e4m3 => 0x7E | .t8 => 0x7F | .t6 => 0x1F | .e5m3 => 0xFE | .e2m1 => 7

/-- The format has infinities (R122). -/
def hasInf : Fmt → Bool
  | .f32 => true | .bf16 => true
  | .e4m3 => false | .t8 => false | .t6 => false | .e5m3 => false | .e2m1 => false

/-- The format has a NaN (R113, R122). -/
def hasNan : Fmt → Bool
  | .e2m1 => false
  | .f32 => true | .bf16 => true | .e4m3 => true | .t8 => true | .t6 => true | .e5m3 => true

/-- The format has a negative zero (R114, R122). -/
def hasNegZero : Fmt → Bool
  | .f32 => true | .bf16 => true | .e4m3 => true | .e2m1 => true
  | .t8 => false | .t6 => false | .e5m3 => false

/-- The canonical NaN (R111, R112, R114, R117). -/
def nanCode : Fmt → Nat
  | .f32 => 0x7FC00000 | .bf16 => 0x7FC0 | .e4m3 => 0x7F | .t8 => 0x80 | .t6 => 0x20 | .e5m3 => 0xFF | .e2m1 => 0

/-- The infinity's magnitude code. -/
def infCode : Fmt → Nat
  | .f32 => 0x7F800000 | .bf16 => 0x7F80
  | .e4m3 => 0 | .t8 => 0 | .t6 => 0 | .e5m3 => 0 | .e2m1 => 0

/-- Length of the run of bits equal to `r` from bit i - 1 of a magnitude down (R114). -/
def runLen (mag : Nat) (r : Bool) : Nat → Nat
  | 0 => 0
  | i + 1 => if bit mag i == r then runLen mag r i + 1 else 0

/-- The magnitude of a taper code of n bits in units (R114): `e1` says whether an exponent bit follows the regime. -/
def taperUnits (n u : Nat) (e1 : Bool) (mag : Nat) : Nat :=
  if mag = 0 then 0
  else
    let r := bit mag (n - 1)
    let m := runLen mag r n
    let w := n - m - 1
    let rest := if w = 0 then 0 else mag % 2 ^ w
    let fw := if e1 then w - 1 else w
    let e := if e1 && w != 0 then rest / 2 ^ fw else 0
    let f := rest % 2 ^ fw
    let k : Int := if r then (m : Int) - 1 else -(m : Int)
    let x : Int := (if e1 then 2 * k else k) + (e : Int) + (u : Int) - (fw : Int)
    if x < 0 then (2 ^ fw + f) / 2 ^ x.natAbs else (2 ^ fw + f) * 2 ^ x.toNat

/-- The magnitude of a code, in units of 2^-unitExp; the code after the largest finite one gives V (R122). -/
def magUnits (f : Fmt) (c : Nat) : Nat :=
  match f with
  | .t8 => if c = 0x80 then 8192 * 4096 else taperUnits 7 12 true c
  | .t6 => if c = 0x20 then 32 * 16 else taperUnits 5 4 false c
  | f =>
    let fw := fracW f
    if c / 2 ^ fw = 0 then c else (2 ^ fw + c % 2 ^ fw) * 2 ^ (c / 2 ^ fw - 1)

/-- A code decoded exactly (R111 to R117). -/
def decodeNum (f : Fmt) (c : Nat) : Num :=
  let neg := f != .e5m3 && bit c (magW f)
  let m := c % 2 ^ magW f
  match f with
  | .t8 => if m = 0 && neg then .nan else .fin neg (magUnits f m) (2 ^ unitExp f)
  | .t6 => if m = 0 && neg then .nan else .fin neg (magUnits f m) (2 ^ unitExp f)
  | f =>
    if hasInf f && m == infCode f then .inf neg
    else if hasNan f && decide (maxCode f < m) then .nan
    else .fin neg (magUnits f m) (2 ^ unitExp f)

/-- The greatest number below 2^n, built from the top bit down, for which a test holds. -/
def searchBits (p : Nat → Bool) : Nat → Nat → Nat
  | 0, acc => acc
  | i + 1, acc => searchBits p i (if p (acc + 2 ^ i) then acc + 2 ^ i else acc)

/-- The magnitude code that rounds num/den (R122), the mode and the sign given; the code after Max stands for V. -/
def roundMag (f : Fmt) (mode : Nat) (neg : Bool) (num den : Nat) : Nat :=
  let x := num * 2 ^ unitExp f
  let lo := searchBits (fun c => decide (c ≤ maxCode f) && decide (magUnits f c * den ≤ x)) (magW f) 0
  let a := magUnits f lo * den
  let b := magUnits f (lo + 1) * den
  if a = x then lo
  else
    let up : Bool := match mode with
      | 1 => false
      | 2 => neg
      | 3 => !neg
      | 4 => decide (a + b ≤ 2 * x)
      | 5 => lo % 2 == 0 && lo != maxCode f
      | _ => decide (a + b < 2 * x) || (a + b == 2 * x && lo % 2 == 1)
    if up then lo + 1 else lo

/-- The sign bit of a format. -/
def signBit (f : Fmt) (neg : Bool) : Nat := if neg && f != .e5m3 then 2 ^ magW f else 0

/-- Round(x, fmt, RND) (R122): `mode` and `sat` are the fields of RND (R17). A negative value rounded to the unsigned E5M3, which no instruction does, gives the code
of its magnitude; NaN rounded to E2M1 gives +0. DESIGN CHOICE: log entry 74. -/
def roundTo (f : Fmt) (mode : Nat) (sat : Bool) (x : Num) : Nat :=
  match x with
  | .nan => nanCode f
  | .inf neg => if hasInf f then signBit f neg + infCode f else if hasNan f then nanCode f else signBit f neg + maxCode f
  | .fin neg num den =>
    let m := roundMag f mode neg num den
    if maxCode f < m then
      if sat || (!hasInf f && !hasNan f) then signBit f neg + maxCode f
      else if hasInf f then signBit f neg + infCode f
      else nanCode f
    else if m = 0 then (if neg && hasNegZero f then signBit f true else 0)
    else signBit f neg + m

/-- RND.MODE (R17). -/
def rndMode (r : Word) : Nat := r.toNat % 8

/-- RND.SAT (R17). -/
def rndSat (r : Word) : Bool := bit r.toNat 3

/-- Round under a strand's RND. -/
def roundRnd (f : Fmt) (r : Word) (x : Num) : Nat := roundTo f (rndMode r) (rndSat r) x

/-- A finite value is zero. -/
def isZero : Num → Bool
  | .fin _ n _ => n == 0
  | .nan => false
  | .inf _ => false

/-- A finite value as numerator and denominator with sign. -/
def signed (neg : Bool) (n : Nat) : Int := if neg then -(n : Int) else n

/-- The exact sum of two values; `rdn` gives the sign of an exact zero sum of opposite signs (R105). -/
def addNum (rdn : Bool) : Num → Num → Num
  | .nan, _ => .nan
  | _, .nan => .nan
  | .inf a, .inf b => if a == b then .inf a else .nan
  | .inf a, .fin _ _ _ => .inf a
  | .fin _ _ _, .inf b => .inf b
  | .fin a n d, .fin b m e =>
    let t := signed a (n * e) + signed b (m * d)
    if t = 0 then
      if n = 0 && m = 0 then (if a == b then .fin a 0 1 else .fin rdn 0 1) else .fin rdn 0 1
    else .fin (decide (t < 0)) t.natAbs (d * e)

/-- The value with its sign turned. -/
def negNum : Num → Num
  | .nan => .nan
  | .inf a => .inf (!a)
  | .fin a n d => .fin (!a) n d

/-- The exact product, IEEE 754 signs (R104, R105). -/
def mulNum : Num → Num → Num
  | .nan, _ => .nan
  | _, .nan => .nan
  | .inf a, .inf b => .inf (a != b)
  | .inf a, .fin b m _ => if m = 0 then .nan else .inf (a != b)
  | .fin a n _, .inf b => if n = 0 then .nan else .inf (a != b)
  | .fin a n d, .fin b m e => .fin (a != b) (n * m) (d * e)

/-- The exact quotient; a non-zero number by zero gives an infinity computed from finite operands, which `sat` turns into Max (R105). -/
def divNum : Num → Num → Num
  | .nan, _ => .nan
  | _, .nan => .nan
  | .inf _, .inf _ => .nan
  | .inf a, .fin b _ _ => .inf (a != b)
  | .fin a _ _, .inf b => .fin (a != b) 0 1
  | .fin a n d, .fin b m e => if m = 0 then (if n = 0 then .nan else .inf (a != b)) else .fin (a != b) (n * e) (d * m)

/-- Both values are finite and the result is an infinity: RND.SAT turns it into the largest finite value (R105). -/
def satInf (f : Fmt) (sat : Bool) (x y r : Num) (c : Nat) : Nat :=
  match x, y, r with
  | .fin _ _ _, .fin _ _ _, .inf neg => if sat then signBit f neg + maxCode f else c
  | _, _, _ => c

/-- x is below y, as exact values; NaN compares with nothing. -/
def ltNum : Num → Num → Bool
  | .nan, _ => false
  | _, .nan => false
  | .inf a, .inf b => a && !b
  | .inf a, .fin _ _ _ => a
  | .fin _ _ _, .inf b => !b
  | .fin a n d, .fin b m e => decide (signed a (n * e) < signed b (m * d))

/-- x equals y, as exact values (R107). -/
def eqNum : Num → Num → Bool
  | .inf a, .inf b => a == b
  | .fin a n d, .fin b m e => decide (signed a (n * e) = signed b (m * d))
  | .nan, _ => false
  | .inf _, _ => false
  | .fin _ _ _, .nan => false
  | .fin _ _ _, .inf _ => false

/-- A value is NaN. -/
def isNan : Num → Bool
  | .nan => true
  | .inf _ => false
  | .fin _ _ _ => false

/-- A value is an infinity or a NaN. -/
def notFinite : Num → Bool
  | .fin _ _ _ => false
  | .nan => true
  | .inf _ => true

/-- FMIN, or FMAX, of two codes of a format (R106): −0 is smaller than +0; one NaN gives the other operand, two the canonical NaN. -/
def minMaxCode (f : Fmt) (isMax : Bool) (a b : Nat) : Nat :=
  let x := decodeNum f a
  let y := decodeNum f b
  if isNan x then (if isNan y then nanCode f else b)
  else if isNan y then a
  else
    let aLess := ltNum x y || (eqNum x y && bit a (magW f) && !bit b (magW f))
    if isMax then (if aLess then b else a) else (if aLess || eqNum x y && !(bit b (magW f) && !bit a (magW f)) then a else b)

/-- A value rounded onto the integer grid (R108, R121). -/
def roundInt (mode : Nat) (neg : Bool) (num den : Nat) : Int :=
  let lo := num / den
  let r := num % den
  if r = 0 then signed neg lo
  else
    let up : Bool := match mode with
      | 1 => false
      | 2 => neg
      | 3 => !neg
      | 4 => decide (den ≤ 2 * r)
      | 5 => lo % 2 == 0
      | _ => decide (den < 2 * r) || (den == 2 * r && lo % 2 == 1)
    signed neg (if up then lo + 1 else lo)

/-- An integer clamped to a range. -/
def clampInt (lo hi x : Int) : Int := if x < lo then lo else if hi < x then hi else x

/-- A conversion to an integer range: NaN gives 0, infinities the ends (R121). -/
def toInt (mode : Nat) (lo hi : Int) : Num → Int
  | .nan => 0
  | .inf neg => if neg then lo else hi
  | .fin neg num den => clampInt lo hi (roundInt mode neg num den)

/-- An integer as an exact value. -/
def ofInt (x : Int) : Num := .fin (decide (x < 0)) x.natAbs 1

/-- One code converted to another format, rounding at most once (R123). -/
def convCode (g f : Fmt) (mode : Nat) (sat : Bool) (c : Nat) : Nat := roundTo f mode sat (decodeNum g c)

/-- A sum of two codes of a format rounded once; exact zero sums of opposite signs follow the mode (R105). -/
def addCode (f : Fmt) (mode : Nat) (sat : Bool) (a b : Nat) : Nat :=
  roundTo f mode sat (addNum (mode == 2) (decodeNum f a) (decodeNum f b))

/-- A difference of two codes rounded once. -/
def subCode (f : Fmt) (mode : Nat) (sat : Bool) (a b : Nat) : Nat :=
  roundTo f mode sat (addNum (mode == 2) (decodeNum f a) (negNum (decodeNum f b)))

/-- A product of two codes rounded once. -/
def mulCode (f : Fmt) (mode : Nat) (sat : Bool) (a b : Nat) : Nat :=
  roundTo f mode sat (mulNum (decodeNum f a) (decodeNum f b))

/-- A quotient of two codes rounded once, with RND.SAT on an infinity from finite operands (R105). -/
def divCode (f : Fmt) (mode : Nat) (sat : Bool) (a b : Nat) : Nat :=
  let x := decodeNum f a
  let y := decodeNum f b
  let r := divNum x y
  satInf f sat x y r (roundTo f mode sat r)

/-- a × b + c rounded once (R104). -/
def fmaCode (f : Fmt) (mode : Nat) (sat : Bool) (a b c : Nat) : Nat :=
  roundTo f mode sat (addNum (mode == 2) (mulNum (decodeNum f a) (decodeNum f b)) (decodeNum f c))

/-- The format of a code of FMTA, FMTB or FMTC (R18), for the codes of plain floating formats. -/
def fmtOf : Nat → Fmt
  | 0 => .bf16 | 1 => .e4m3 | 2 => .t8 | 4 => .t6
  | _ => .f32

/-- floor(log2 (num/den)) of a positive magnitude. -/
def log2Q (num den : Nat) : Int :=
  let e : Int := (Nat.log2 num : Int) - (Nat.log2 den : Int)
  let ge (k : Int) : Bool := if k < 0 then decide (den ≤ num * 2 ^ k.natAbs) else decide (den * 2 ^ k.toNat ≤ num)
  if ge e then e else e - 1

/-! ### Blocks (R117 to R120) -/

/-- The scale of an SX4 or MXFP4 block (R117, R118). -/
def scaleNum (mx : Bool) (c : Nat) : Num :=
  if mx then (if c = 0xFF then .nan else if c < 127 then .fin false 1 (2 ^ (127 - c)) else .fin false (2 ^ (c - 127)) 1)
  else decodeNum .e5m3 c

/-- A block of 32 values encoded (R120): the scale and the 32 element codes. -/
def encodeBlock (mx : Bool) (mode : Nat) (sat : Bool) (xs : List Num) : Nat × List Nat :=
  if xs.any notFinite then (0xFF, xs.map (fun _ => 0))
  else
    let mag (x : Num) : Num := match x with
      | .fin _ n d => .fin false n d
      | .nan => .nan
      | .inf _ => .inf false
    let amax := xs.foldl (fun m x => if ltNum m (mag x) then mag x else m) (.fin false 0 1)
    let sc : Nat := match amax with
      | .fin _ n d =>
        if n = 0 then 0
        else if mx then (clampInt 0 0xFE (log2Q n d - 2 + 127)).toNat
        else
          let c := roundMag .e5m3 3 false n (6 * d)
          min c 0xFE
      | .nan => 0xFF
      | .inf _ => 0xFF
    let s := scaleNum mx sc
    (sc, xs.map (fun x => if isZero s then signBit .e2m1 (match x with
        | .fin neg _ _ => neg
        | .nan => false
        | .inf neg => neg)
      else roundTo .e2m1 mode sat (divNum x s)))

/-! ### Sums of the matrix engine (R124 to R127) -/

/-- A product as the matrix engine forms it: zero by finite is +0 (R124). DEDUCED: log entry 28. -/
def mmaMul (a b : Num) : Num :=
  match mulNum a b with
  | .fin neg n d => if n = 0 then .fin false 0 1 else .fin neg n d
  | .nan => .nan
  | .inf neg => .inf neg

/-- Terms as integers of one power-of-two scale 2^-800, which holds every product of two operands and every FP32 value exactly. -/
def scaled (x : Num) : Int :=
  match x with
  | .fin neg n d => signed neg (n * 2 ^ 800 / d)
  | .nan => 0
  | .inf _ => 0

/-- The sum of terms with the special cases first (R124, rules 3 to 5): exact, or truncated to 60 bits below the greatest term (R126). DEDUCED: log entry 28. -/
def mmaSum (trunc : Bool) (ts : List Num) : Nat :=
  if ts.any isNan || (ts.any (· == .inf true) && ts.any (· == .inf false)) then 0x7FC00000
  else if ts.any (· == .inf true) then 0xFF800000
  else if ts.any (· == .inf false) then 0x7F800000
  else
    let xs := ts.map scaled
    let xs := if trunc then
        let top := xs.foldl (fun m x => max m x.natAbs) 0
        let q := 2 ^ (Nat.log2 top - 60)
        if top = 0 then xs else xs.map (fun x => signed (decide (x < 0)) (x.natAbs / q * q))
      else xs
    let t := xs.foldl (· + ·) (0 : Int)
    if t = 0 then 0 else roundTo .f32 0 false (.fin (decide (t < 0)) t.natAbs (2 ^ 800))

/-! ### The bank ALUs (R129, R404) -/

/-- A bank operand: a subnormal becomes zero of its sign (R404, In). -/
def bankIn (c : Nat) : Num :=
  let m := c % 2 ^ 15
  if m < 0x80 then .fin (bit c 15) 0 1 else decodeNum .bf16 c

/-- A bank result (R404, BRound). -/
def bankRound (x : Num) : Nat :=
  let y := roundTo .bf16 0 false x
  if y % 2 ^ 15 < 0x80 then y / 2 ^ 15 * 2 ^ 15 else y

/-- Sums of atomics and reductions: RNE, SAT 0 (R203, R359). -/
def redAdd (f : Fmt) (a b : Nat) : Nat := addCode f 0 false a b

end Sys2Proof.Machine
end

