-- ==== Sys2Proof/Config.lean ====
section
/-! DEFINITION. What the package fixes outside the spec's numbers: the product form, and the free values of the model,
which have no body, so that no proof can see what they are. -/

namespace Sys2Proof

/-- `true` for the BLV4-P512, whose addresses at or above 512 GiB name no DRAM (R1, R2). No body: every claim holds of both forms. DESIGN CHOICE: log entry 7. -/
opaque Config.isP512 : Bool

/-- The energy, in microjoules, that one charge adds to a counter (R468): the spec gives no figures. The argument is the model's `fresh` counter. -/
opaque Config.energy : Nat → Nat

/-- The cause code, less 1, that a partition reset by a fatal error reports (R437, R446): the spec names none. The argument is the model's `fresh` counter. -/
opaque Config.fatalCause : Nat → Fin 17

/-- The fault with which another package answers an access, as a cause code less 1, or none (R454). The argument is the model's `fresh` counter. -/
opaque Config.peerFault : Nat → Option (Fin 17)

/-- The number of the package, the firmware's and the monitor's measurement, and the signature of an attestation report (R467): bytes the spec leaves to the key pair and the image. The argument is the model's `fresh` counter. -/
opaque Config.signature : Nat → List Byte

/-- The firmware's and the monitor's measurements of an attestation report (R467). -/
opaque Config.measurement : Nat → List Byte

/-- Which of the 16 entries of a group that differ a translation uses (R244): the spec lets it use any one. The arguments are the GTC and the address. -/
opaque Config.groupEntry : Nat → Nat → Fin 16

/-- Which of several free save areas is taken (R179, R427): the spec names none. The arguments are the GTC and the address of the pool. -/
opaque Config.areaChoice : Nat → Nat → Nat

/-- The package id that the fabric manager assigns at boot (R452): the spec gives none. The argument is the model's `fresh` counter. DESIGN CHOICE: log entry 7. -/
opaque Config.pkgid : Nat → BitVec 12

/-- The last vector of a function's MSI-X table of at most 2,048 (R463): the spec leaves the size of each table open. The argument is the function index. DESIGN CHOICE: log entry 16. -/
opaque Config.msixLast : Nat → Fin 2048

/-- The monitor as the firmware loads it into DID 0 (R466): its memory range and its bytes there, the root of its page table and its trap vector, and the entry point of its
first strand. The spec gives none of it. -/
structure MonitorImage where
  base  : Nat
  len   : Nat
  root  : Nat
  tvec  : BitVec 64
  entry : BitVec 64
  bytes : List (Nat × BitVec 8)
  deriving Inhabited

/-- The image of the monitor. The argument is the model's `fresh` counter. DESIGN CHOICE: log entry 8. -/
opaque Config.monitor : Nat → MonitorImage

/-- The id of the switch at the other end of a port, as training finds it (R457). The arguments are the model's `fresh` counter and the port. DESIGN CHOICE: log entry 7. -/
opaque Config.switchId : Nat → Nat → BitVec 16

/-- The hash that chooses the Thayth port for the messages of a destination and line (R457): it is the implementation's. The arguments are the source, the destination and the line. -/
opaque Config.portHash : Nat → Nat → Nat → Nat

end Sys2Proof
end

