-- ==== Sys2Proof/Machine/State.lean ====
section
/-! DEFINITION. The state of the package: every strand, core, bank core, memory level, engine and register the spec names, as plain
data, and the state right after reset. -/

namespace Sys2Proof.Machine

/-- Why the machine stops. -/
inductive Fault where
  /-- The package is held in recovery mode because its firmware image failed verification (R466): no program runs. Raised by `step` and by every instruction through `issue`; safe, the hardware runs nothing either. -/
  | recovery
  deriving DecidableEq, Repr

/-- Why an instruction has no meaning. -/
inductive Refusal where
  /-- An instruction that has no meaning yet, by its mnemonic. Raised by `exec` only; safe. -/
  | notModelled (mnemonic : String)
  deriving DecidableEq, Repr

/-- Where a strand is seated (R154, R191, R395). -/
inductive Seat where
  | none
  /-- A barrel slot of the core named by the strand's CORE. -/
  | slot (n : Nat)
  /-- The handler slot of that core. -/
  | handler
  /-- A slot of the bank core of a channel. -/
  | bank (ch slot : Nat)
  deriving DecidableEq, Repr

/-- Why a strand is not ready (R155, R218, R428). -/
inductive Wait where
  | none
  /-- Its next instruction cannot issue or complete yet; it is tried again. -/
  | retry
  /-- An instruction that could not issue or complete is tried again now: its strand has the turn, or is to have it. -/
  | again
  /-- A load is outstanding (R97). -/
  | load
  | gsync | lrw | barw | mwait | mbwait | launch | swait
  /-- An active message waits for its reply (R190). -/
  | reply
  /-- MIG waits for a run-queue entry at the destination (R187). -/
  | grant
  /-- An MMA is not complete (R373). -/
  | mma
  deriving DecidableEq, Repr

/-- What a posted write does at its home (R97, R205, R213). -/
inductive PostOp where
  | store
  | red (op : AmoOp)
  | bari
  | barx
  deriving DecidableEq, Repr

/-- A write of a strand on its way to its home (R97, R267): the core whose L1 copy it updates, or 4096 from a bank core, its clock and floor at issue, and, once performed, its time. -/
structure Posted where
  id    : Nat
  op    : PostOp
  /-- Key of the first byte: a physical address, or a scratchpad key. -/
  key   : Nat
  n     : Nat
  val   : Nat
  clock : Nat
  floor : Nat
  core  : Nat
  did   : Nat
  /-- The write leaves the package (R286). -/
  far   : Bool
  /-- Held for a detached stream of the owner: core and context (R317). -/
  held  : List (Nat × Nat)
  /-- Its time once performed at the home; the acknowledgement is still on its way. -/
  done  : Option Nat
  /-- No time joins the store horizon (R269). -/
  plain : Bool
  /-- Bytes of it that a later write of the strand has overwritten, of which the strand has heard, or which has been performed (R267). -/
  gone  : List Nat := []
  deriving DecidableEq, Repr

/-- What the data of an outstanding load does when it arrives (R97). -/
inductive LoadDest where
  | reg (r : Nat)
  | pair (r : Nat)
  | queue (q : Nat)
  | stream (z : Nat)
  deriving DecidableEq, Repr

/-- The outstanding load of a strand (R97, R266). -/
structure Load where
  va     : Word
  key    : Nat
  n      : Nat
  signed : Bool
  dest   : LoadDest
  next   : Word
  /-- The clock with which the request left. -/
  clock  : Nat
  /-- Performed at the scratchpad of another core in a handler-slot turn (R184). -/
  remote : Bool
  /-- The queue (false) or stream register (true) that gave the address: its element is popped when the load completes (R78). -/
  pop    : Option (Bool × Nat)
  /-- The number that was next when it was issued: a bank handed over since does not hold it back (R421). -/
  id     : Nat
  deriving DecidableEq, Repr

/-- The elements of a VLD that are still to be read (R135, R136). -/
structure VLoad where
  reg  : Nat
  /-- Element size in bytes. -/
  n    : Nat
  next : Word
  /-- Address and key of each element not read yet, in ascending linear index. -/
  todo : List (Word × Nat)
  /-- The elements read, the last first. -/
  got  : List Nat
  /-- A load of translated memory was made, so that the instruction creeps (R266). -/
  crept : Bool
  /-- The clock at issue. -/
  clock : Nat
  /-- The number that was next when it was issued (R421). -/
  id    : Nat
  deriving DecidableEq, Repr

/-- An obligation of FENCE.X: the first instruction that begins k2 work waits for the k1 work issued before (R275). -/
structure FenceX where
  scope : Scope
  k1    : Path
  k2    : Path
  /-- The work waited for: posted writes, copies, matrix commands, write-backs, bank commands, by number. -/
  work  : List Nat
  /-- Pushes waited for: core, context, its serial number and the count of written pushes to reach. -/
  push  : List (Nat × Nat × Nat × Nat)
  /-- The greatest completion time of the k1 commands that had completed at issue. -/
  tc    : Nat
  deriving DecidableEq, Repr

/-- What an instruction that waits has already changed of its strand, as it was at issue: a trap of the instruction puts it back (R27). -/
structure Pre where
  tck    : Nat
  fencex : List FenceX
  floors : KMap Nat
  chain  : List Half
  deriving DecidableEq, Repr

/-- A message for a handler slot (R190). -/
structure HMsg where
  entry  : Word
  addr   : Word
  arg    : Word
  did    : Nat
  sid    : Nat
  core   : Nat
  clock  : Nat
  caller : Option Nat
  /-- For a message from another package: the package and the sequence number that its reply names (R454). -/
  pkg    : Nat
  seq    : Nat
  /-- The era of that package when it sent the message (R286), and the line that the message is for, which chooses its path and that of its reply (R457). -/
  era    : Nat
  line   : Nat := 0
  deriving DecidableEq, Repr

/-- A strand, or a message handler (R12, R191). -/
structure Strand where
  /-- The model's name of the strand: its SID, or 2^32 plus a number for a handler. -/
  key    : Nat
  sid    : Nat
  gid    : Nat
  rank   : Nat
  did    : Nat
  core   : Nat
  pc     : Word
  s      : Vector Word 64
  p      : BitVec 32
  v      : Vector VWord 16
  /-- The context bound to each stream register (R312). -/
  z      : Vector (Option Nat) 8
  tck    : Nat
  h      : Nat
  sf     : Nat
  rnd    : Word
  fmta   : Word
  fmtb   : Word
  fmtc   : Word
  scla   : Word
  sclb   : Word
  vsh    : Word
  migp   : Word
  th     : Bool
  tcause : Word
  tval   : Word
  tpc    : Word
  ydl    : Nat
  seat   : Seat
  wait   : Wait
  /-- What an instruction that waits in LRW, BARW, MWAIT, MBWAIT, SWAIT, AMSG, MMA or LAUNCH keeps: NextPC, a destination register, a key and a value. -/
  wnext  : Word
  wreg   : Nat
  wkey   : Nat
  wval   : Nat
  /-- The virtual address of the object a strand waits for in BARW (R214, R249). -/
  wva    : Nat
  /-- The completion time of the stream a strand has waited for in SWAIT, once it has stopped (R331). -/
  wtc    : Nat
  /-- Writes the barrier's line had taken when BARW read it last (R214). -/
  wn     : Nat
  /-- Monitored line and wm (R216). -/
  mon    : Option (Nat × Nat)
  /-- Writes that line had taken when the monitor was armed (R217), and the monitors that the gates entered have saved, each with its count (R432). -/
  monN   : Nat
  gmon   : List (Option (Nat × Nat) × Nat)
  /-- The physical doubleword reserved, and the gate depth at which it was taken (R207, R433). -/
  rsv    : Option (Nat × Nat)
  /-- Writes not yet acknowledged, and the strand's own stores above its clock (R267), oldest first. -/
  posted : List Posted
  /-- Write-backs produced by the strand's CLNR and FLSR steps, by number (R280). -/
  wbs    : List Nat
  /-- Pending token registers (R354). -/
  pend   : List Nat
  /-- Vector registers an MSTC.V has not written yet (R153). -/
  vpend  : List Nat
  /-- The completion time a token register carries (R354). -/
  tc     : KMap Nat
  fencex : List FenceX
  /-- The time at or above which work of a path starts (R275), by path number. -/
  floors : KMap Nat
  /-- Completion times of the commands a FENCE.X waits for, by number, and the greatest of each path, at key 2^64 + path. -/
  ends   : KMap Nat
  /-- Asynchronous causes held for the strand, oldest first (R28). -/
  async  : List (Cause × Word)
  /-- Gate stack: area of the caller and its DID (R432). -/
  gates  : List (Nat × Nat)
  region : Word
  task   : Nat
  /-- Core that holds the gang barrier (R160). -/
  gcore  : Nat
  load   : Option Load
  vload  : Option VLoad
  /-- Arrival time in the gang barrier (R161). -/
  arr    : Option Nat
  /-- The save area that holds an unseated strand, or the TAREA of a packet (R399, R429). -/
  area   : Option Nat
  /-- The run queue that a strand unseated without joining it goes back to, a core or 4096 + channel: one held aside (R172), or one that waits in GSYNC (R162). -/
  aside  : Option Nat
  /-- The strand that waits for the handler's reply, or none when it is of another package (R190). -/
  caller : Option Nat
  /-- A destination core, or 4096 + channel, that has granted a run-queue entry (R187). -/
  dest   : Option (Nat × Bool)
  /-- The GTC up to which the region has been charged (R172). -/
  chargedAt : Nat
  /-- Ranges that a TLBSD has dropped under a strand on a bank core: its next access in one raises STALE_XLATE (R249, R398). -/
  stale  : List (Nat × Nat)
  /-- Its task has failed while it was in the middle of an instruction: the pc, YDL and TH at which it stood then; it ends at its next instruction boundary (R435). -/
  ending : Option (Word × Nat × Bool)
  /-- The clock and the obligations with which the instruction that waits was issued (R27), and its words: one that has begun is not fetched again. -/
  pre    : Option Pre
  /-- The message that a handler runs (R190, R191). -/
  msg    : Option HMsg
  /-- The strand has ended; only its writes on their way keep it (R97, R436). -/
  dead   : Bool
  deriving DecidableEq, Repr

/-- A mailbox entry (R198). -/
structure MboxMsg where
  kind    : Nat
  src     : Nat
  sid     : Nat
  time    : Nat
  era     : Nat
  payload : Nat
  /-- For a message held at its source: the stream or copy that posted it. -/
  origin  : Option Nat
  deriving DecidableEq, Repr

/-- What one DID holds on one core (R421). -/
structure DomCore where
  qmask  : Nat
  accm   : Nat
  opsm   : Nat
  spbank : Nat
  wsg    : Nat
  l1base : Nat
  l1n    : Nat
  strq   : Nat
  mbox   : Nat
  /-- Bank cores only. -/
  bslots : Nat
  deriving DecidableEq, Repr

/-- A leased L1 copy (R232, R264). -/
structure L1Line where
  did  : Nat
  line : Nat
  wts  : Nat
  rts  : Nat
  data : List Byte
  deriving DecidableEq, Repr

/-- A work packet or template as its eight doublewords (R168). -/
abbrev Packet := List Nat

/-- An entry of a run queue (R177). -/
inductive RunEntry where
  /-- A dispatched gang packet: its packet, DID, start time, GID and task. -/
  | gang (did : Nat) (pkt : Packet) (ts : Nat) (gid : Nat) (task : Nat)
  /-- An unseated strand with its save area, by key. -/
  | saved (key : Nat)
  /-- A migrated strand, by key. -/
  | migrated (key : Nat)
  deriving DecidableEq, Repr

/-- A matrix command (R371). -/
inductive MatOp where
  | mma (a b c : Nat)
  | mfill (slot src off len : Nat)
  | mfillV (slot chunk : Nat) (data : VWord)
  | mldw (slot off : Nat)
  | msclSp (slot src : Nat)
  | mscl (slot off : Nat)
  | mstc (acc dst stride : Nat)
  | mstcV (acc reg : Nat)
  | mzero (acc : Nat)
  | zeroSlot (slot : Nat)
  | zeroAcc (acc : Nat)
  deriving DecidableEq, Repr

/-- A queued matrix command with what it captured at issue (R374). -/
structure MatCmd where
  id   : Nat
  key  : Nat
  sid  : Nat
  did  : Nat
  op   : MatOp
  fa   : Nat
  fb   : Nat
  fc   : Nat
  offa : Nat
  offb : Nat
  rnd  : Word
  deriving DecidableEq, Repr

/-- What a copy command does (R351). -/
inductive CopyKind where
  | sp | slot | ws | mem | multi
  | tred (op : TredOp)
  deriving DecidableEq, Repr

/-- A copy command in flight (R352). -/
structure CopyCmd where
  id    : Nat
  key   : Nat
  sid   : Nat
  did   : Nat
  kind  : CopyKind
  tok   : Nat
  rp    : Word
  /-- The record and the descriptor as numbers of 128 and 64 bytes (R343, R346). -/
  shape : Nat
  box   : Nat
  /-- Start time, running clock, greatest time. -/
  ts    : Nat
  clk   : Nat
  tc    : Nat
  next  : Nat
  bytes : Nat
  /-- Receivers of TCOPYM, and how many have been served (R357). -/
  recv  : List Nat
  served : Nat
  /-- The barrier object's address, translated for each step on it (R249, R346, R358). -/
  bar   : Option Word
  fail  : Option Cause
  parked : Bool
  deriving DecidableEq, Repr

/-- A stream record as its fields (R306). -/
structure StreamRec where
  base   : Nat
  esz    : Nat
  write  : Bool
  etype  : Nat
  rank   : Nat
  op     : Nat
  sink   : Nat
  fpol   : Nat
  floc   : Nat
  emask  : Nat
  sinka  : Nat
  counts : List Nat
  strides : List Int
  cword  : Nat
  deriving DecidableEq, Repr

/-- A stream context (R311) with what travels beside it. -/
structure Ctx where
  state  : Nat
  lock   : Nat
  loc    : Nat
  did    : Nat
  owner  : Nat
  eidx   : Nat
  hops   : Nat
  lastev : Nat
  fcode  : Nat
  fcause : Nat
  zreg   : Nat
  ser    : Nat
  part   : Nat
  tstart : Nat
  era    : Nat
  srec   : StreamRec
  rnd    : Word
  /-- Key of the owning strand. -/
  okey   : Nat
  clk    : Nat
  tc     : Nat
  /-- Prefetch window: element bytes, read time and physical address, the head first (R314). -/
  window : List (Nat × Nat × Nat)
  /-- Accepted pushes not yet written (R315), and how many have been written. -/
  pushes : List Nat
  written : Nat
  /-- A recall waits for the element or hop in flight (R329). -/
  recalled : Bool
  deriving DecidableEq, Repr

/-- One of the 4,096 cores. -/
structure CoreSt where
  mode    : Mode
  slotown : List Nat
  curown  : List Nat
  table   : List Nat
  pendTab : Option (List Nat)
  /-- The issuing strand of the last SLOTSET: its gang (R158). -/
  pendGid : Nat
  doms    : KMap DomCore
  queues  : Vector (List (Word × Nat)) 8
  /-- Strands waiting to read queue q, at key q, and to write it, at key 8 + q, in the order in which they began (R196). -/
  qwait   : KMap (List Nat)
  mbox    : KMap (List MboxMsg)
  held    : KMap (List MboxMsg)
  runq    : List RunEntry
  /-- Reservations granted and asked for, by key (R187). -/
  granted : List Nat
  asking  : List Nat
  hq      : List HMsg
  hwait   : List HMsg
  /-- Claims of slots 0 to 15 and, at 16 + c, of accumulators (R367). -/
  claims  : KMap Nat
  /-- Non-finite flags of a slot: BF16, E4M3, T8, T6, Scale in bits 0 to 4 (R378). -/
  nonfin  : KMap Nat
  acc     : Vector (BitVec 32768) 8
  accPois : BitVec 8
  matq    : List MatCmd
  copies  : List CopyCmd
  ctxs    : KMap Ctx
  l1      : List L1Line
  /-- Scratchpad banks waiting to be zeroed for a new holder (R421): bank, new holder, and the number from which on commands and writes have been issued since; earlier ones finish first. -/
  handover : List (Nat × Nat × Nat)
  /-- The strands whose copy commands the engine has served, the last one last: its rotation among them (R352). -/
  copyTurn : List Nat
  deriving DecidableEq, Repr

/-- One of the 512 bank cores (R395). -/
structure BankSt where
  runq    : List RunEntry
  granted : List Nat
  asking  : List Nat
  doms    : KMap DomCore
  deriving DecidableEq, Repr

/-- A chunk of a bank command (R403, R406). -/
structure Chunk where
  dst   : Nat
  src1  : Nat
  src2  : Nat
  /-- The virtual pages that hold the operands, as base, size and the generation of the translation used, for shootdowns (R403, R407). -/
  pages : List (Nat × Nat × Nat)
  /-- 0 not finished, 1 COMPLETE, 2 FAILED. -/
  state : Nat
  cause : Nat
  ops   : Nat
  /-- The rows read so far. -/
  bufs  : List (List Byte)
  deriving DecidableEq, Repr

/-- The operations of bank commands (R402). -/
inductive BankOp where
  | add | mul | fma | copy | zero
  deriving DecidableEq, Repr

/-- A bank command that has taken a ticket (R403). -/
structure BankCmd where
  id     : Nat
  key    : Nat
  sid    : Nat
  did    : Nat
  op     : BankOp
  scalar : Nat
  useY   : Bool
  chunks : List Chunk
  ticket : Nat
  cpair  : Nat
  cpairVa : Word
  recPa  : Option Nat
  tb     : Nat
  begun  : Bool
  /-- The core that issued it, or 4096 + channel for a bank core: it holds an entry of that core's buffer (R403). -/
  core   : Nat
  deriving DecidableEq, Repr

/-- The times of a line (R264). -/
structure Times where
  wts : Nat
  rts : Nat
  /-- Writes the line has taken at its home: what MWAIT and BARW wait for (R214, R217). -/
  n   : Nat
  deriving DecidableEq, Repr

/-- A line in an L2 slice (R234), listed in order of insertion. -/
structure L2Line where
  line  : Nat
  /-- The set range it is cached in: 0 to 20 a DID, 21 + j a shared range (R424). -/
  range : Nat
  set   : Nat
  dirty : Bool
  /-- Fetched by a prefetch and not yet used, and the DID that asked for it (R242). -/
  pref  : Option Nat
  data  : List Byte
  deriving DecidableEq, Repr

/-- A write-back in a channel's write queue (R280). -/
structure WbLine where
  id   : Nat
  line : Nat
  data : List Byte
  deriving DecidableEq, Repr

/-- The package block of one DID (R425), the counters (R242, R468) and the RAS block (R443). -/
structure PkgDom where
  troot  : Nat
  llease : Nat
  gen    : Nat
  tvec   : Word
  sched  : Nat
  /-- The schedule in force: base line, lines, DEAD of each entry (R239). -/
  sched' : List (Nat × Nat × Nat)
  stepc  : Nat
  pls    : Nat
  resrec : Nat
  pstate : Nat
  rrn    : Nat
  hport  : Nat
  ranges : List (Nat × Nat)
  biastab : Nat
  /-- PFISS, PFUSED, PFLATE, PFUNUSED, L2WB, CWFAIL (R242). -/
  cnt    : List Nat
  /-- ECORE, EMEM, EFAB, SLOTCYC, HCYC, REMFAIL (R468). -/
  energy : List Nat
  rcore  : Nat
  rasEn  : Bool
  cerep  : Bool
  cecnt  : Nat
  uecnt  : Nat
  lost   : Nat
  /-- Resets since creation (R439). -/
  resets : Nat
  ctime  : Nat
  ccount : Nat
  /-- MSI-X requests not yet delivered: function and vector, and how many requests arrived (R464). -/
  msi    : List (Nat × Nat)
  msiN   : Nat
  /-- The GTC of the first request since a delivery, at which the coalescing timer started (R464). -/
  mstart : Option Nat
  deriving DecidableEq, Repr

/-- A shared memory range (R425). -/
structure Shared where
  base    : Nat
  len     : Nat
  creator : Nat
  admits   : Nat
  deriving DecidableEq, Repr

/-- A topology entry (R448). -/
structure Topo where
  phys    : Nat
  present : Bool
  subst   : Nat
  spare   : Bool
  tgen    : Nat
  deriving DecidableEq, Repr

/-- A translation held (R246). -/
structure Tlb where
  /-- A core, 4096 + channel for a bank core and its bank unit, 5000 + slice or 7000 + channel for a floated context. -/
  holder : Nat
  did    : Nat
  gen    : Nat
  va     : Nat
  size   : Nat
  pa     : Nat
  perm   : Nat
  deriving DecidableEq, Repr

/-- A shootdown in progress (R249): the strand that waits, what is dropped, and the holders that have not reported. -/
structure Shoot where
  key     : Nat
  did     : Nat
  /-- The generation it has raised the DID to (R245). -/
  gen     : Nat
  base    : Nat
  top     : Nat
  holders : List Nat
  deriving DecidableEq, Repr

/-- A launch record of a pending-launch store (R173, R174). -/
structure Record where
  id       : Nat
  die      : Nat
  /-- The DID its gangs run under, and the DID whose share holds the record (R173). -/
  did      : Nat
  dom      : Nat
  pkt      : Packet
  n        : Nat
  indirect : Bool
  tl       : Nat
  /-- The count once known (R175), and the gangs sent out. -/
  count    : Option Nat
  gidx     : Nat
  task     : Nat
  deriving DecidableEq, Repr

/-- A task (R176): a queue entry or a launch record being run. -/
structure Task where
  id      : Nat
  did     : Nat
  /-- Of a launch record: its die, the DID whose share holds it and its release time. -/
  die     : Nat
  dom     : Nat
  tl      : Nat
  region  : Word
  cword   : Nat
  /-- `some i` for queue entry i of the region. -/
  entry   : Option Nat
  /-- The template, for a replay (R438), the count, and the address of a count that could not be read (R175). -/
  pkt     : Packet
  total   : Nat
  addr    : Option Nat
  /-- Its start time (R169). -/
  ts      : Nat
  /-- Gangs with strands not yet ended: gid and strands left. -/
  gangs   : KMap Nat
  retired : Nat
  placed  : Nat
  /-- Gangs one of whose strands failed. -/
  badGangs : List Nat
  /-- The code of the first failure (R176): a cause, or what TCAUSE.CODE held where R399 fails the task with it. -/
  fail    : Option Nat
  /-- The greatest clock at RETIRE. -/
  clk     : Nat
  allSent : Bool
  deriving DecidableEq, Repr

/-- A region the Maltsters know (R165, R171). -/
structure Region where
  addr   : Word
  /-- Physical address of its RCB, which names the region for good. -/
  pa     : Nat
  /-- Queue entries published and completed at the last launch-word read (R165). -/
  pub    : Nat
  ndone  : Nat
  did    : Nat
  die    : Nat
  /-- The GTC since which it is ready without a dispatch, if it is ready (R171). -/
  ready  : Option Nat
  /-- Its place in the rotation of its level. -/
  rot    : Nat
  boost  : Nat
  /-- The task of the queue entry being run. -/
  cur    : Option Nat
  /-- The launch-word reads that have published entries not yet taken: how many each published, and its time (R165, R169). -/
  pubs    : List (Nat × Nat)
  /-- Times of the dependence reads and of the last DONE write (R169). -/
  tDep    : Nat
  tDone   : Nat
  /-- Whether the next packet comes from a launch record (R170). -/
  recTurn : Bool
  failed  : Bool
  /-- Whether every dependence has been met at the last read (R166). -/
  depsOk  : Bool
  /-- The BUDGET that it was under at the Maltster's last read of it, 0 for unlimited (R164, R172). -/
  budget  : Nat
  deriving DecidableEq, Repr

/-- The queue of a reservation (R207): holder, then waiters with their request clocks. -/
structure Resv where
  holder  : Option Nat
  waiters : List (Nat × Nat)
  /-- A grant on its way to the holder: value and time. -/
  grant   : Option (Nat × Nat)
  deriving DecidableEq, Repr

/-- A partition reset requested (R436): its DID, cause and trigger, and the strands that have ended with a failure since, as SID and PC (R439). -/
structure ResetReq where
  did   : Nat
  cause : Nat
  trig  : Nat
  ended : List (Nat × Word)
  deriving DecidableEq, Repr

/-- A Thayth port (R456, R457). -/
structure Port where
  up      : Bool
  lanes   : Nat
  replays : Nat
  switch  : Nat
  /-- Consecutive failed replays, and whether the frame that comes next is a replay (R456). -/
  failed  : Nat
  replay  : Bool
  deriving DecidableEq, Repr

/-- The health register and the units out of service (R446, R449). -/
structure Health where
  spares : List Nat
  state  : Nat
  repl   : Bool
  hkovr  : Nat
  tgen   : Nat
  /-- Cores that wait for a spare at the next major slot (R447). -/
  pending : List Nat
  /-- Consecutive overruns of a housekeeping task (R258, R445), and channels and slices out of service. -/
  overrun : KMap Nat
  deadCh  : List Nat
  deadSl  : List Nat
  /-- Bank cores out of service (R446). -/
  deadBk  : List Nat
  /-- Health interrupts raised on both ports (R465). -/
  intr    : Nat
  deriving DecidableEq, Repr

/-- The boot, the attestation store and the module's controller (R466 to R469). -/
structure Boot where
  recovery : Bool
  leaf     : Nat
  reports  : List (List Byte)
  /-- Reports refused as exhausted (R467). -/
  refused  : Nat
  throttled : Bool
  deriving DecidableEq, Repr

/-- A host access that waits for its home or for an earlier one (R460): a write with its data, or a read. -/
structure HostAcc where
  fn    : Nat
  port  : Nat
  ld    : Nat
  addr  : Nat
  n     : Nat
  data  : Option (List Byte)
  /-- The relaxed-ordering attribute (R460). -/
  relaxed : Bool
  deriving DecidableEq, Repr

/-- The hosts' side (R458 to R464). -/
structure HostSide where
  /-- Host clock of function f on port p, at key 2f + p (R460). -/
  hc     : KMap Nat
  /-- DID bound to LD i of port p, at key 16p + i (R459). -/
  ld     : KMap Nat
  /-- DID bound to a virtual function (R463). -/
  vf     : KMap Nat
  /-- Lanes of the two ports (R458). -/
  lanes  : List Nat
  /-- MSI-X messages delivered: function and vector, oldest first (R463). -/
  sent   : List (Nat × Nat)
  /-- Vectors masked in the MSI-X tables, and those with their pending bit set: function and vector (R464). -/
  masked : List (Nat × Nat)
  pba    : List (Nat × Nat)
  /-- Accesses that have arrived and are not performed yet, the oldest first (R460). -/
  queue  : List HostAcc
  /-- Data and status the last host access returned: bytes, or none for an error (R459). -/
  reply  : Option (List Byte)
  deriving DecidableEq, Repr

/-- What happens next, when it is not the strand in turn that goes on: plain data, one entry a step (R264: the order of the package's agents is not fixed). -/
inductive Act where
  /-- An event of the table of operations. -/
  | event (i : Instr)
  /-- The turn passes to a strand, by key. -/
  | turn (key : Nat)
  /-- Ticks pass (R253). -/
  | pass (n : Nat)
  /-- A holder drops a translation on its own (R246): holder, DID, page address. -/
  | drop (holder did va : Nat)
  /-- An L1 copy is dropped (R440): core, line. -/
  | dropL1 (core line : Nat)
  /-- Uncorrectable data is found (R440 to R442) by an access of a DID, 0x1F for scrubbing: in the granule of a key, at byte o of accumulator a of core c at
2^51 + 4096 × (8 × c + a) + o, or at byte o of the registers of strand k at 2^52 + 2^15 × k + o. -/
  | poison (key : Nat) (adid : Nat)
  /-- A corrected error of storage (R440). -/
  | corrected (key : Nat) (adid : Nat)
  /-- A housekeeping task overruns its slot (R258): the refresh of channel `u`, of the weight store of core `u` - 512, or from 8192 on a task of major slots. -/
  | overrun (u : Nat)
  /-- Another agent writes memory beyond the package: key, bytes, value (R451). -/
  | far (pa n v : Nat)
  /-- The end-to-end acknowledgement of a message comes back: destination package and sequence number (R457). -/
  | linkAck (pkg seq : Nat)
  /-- A host masks, or unmasks, a vector of a function's MSI-X table (R463, R464). -/
  | mask (fn vec : Nat) (on : Bool)
  deriving DecidableEq, Repr

/-- An answer to another package (R286, R454, R457): its destination, its own sequence number, its DID and ERA; the message it answers, value, time in the sender's era,
cause and TVAL. -/
structure PeerReply where
  pkg   : Nat
  own   : Nat
  did   : Nat
  era   : Nat
  /-- The line whose path the request has taken, and the reply takes (R457). -/
  line  : Nat
  seq   : Nat
  value : Nat
  time  : Nat
  cause : Nat
  tval  : Nat
  /-- The port that it is sent over (R457). -/
  path  : Nat
  deriving DecidableEq, Repr

/-- A message of this package that the other end has not acknowledged (R457): its destination, the DID it is sent for, and the message. -/
structure OutMsg where
  dst : Nat
  did : Nat
  msg : RemoteMsg
  /-- The port that it is sent over (R457). -/
  path : Nat
  deriving DecidableEq, Repr

/-- The whole package. -/
structure State where
  /-- The strand whose turn it is; it exists when `live`. -/
  me     : Strand
  live   : Bool
  others : List Strand
  agenda : List Act
  /-- Address after the instruction in flight, and its words as TVAL holds them (R31, R38). -/
  nextPc : Word
  words  : Word
  /-- The words of the instruction in flight, first to last (R38). -/
  chain  : List Half
  gtc    : Nat
  /-- The GTC up to which calendar events have been performed. -/
  calMark : Nat
  era    : Nat
  rblast : Bool
  majn   : Nat
  /-- Every byte of storage: DRAM and memory beyond by physical address, then scratchpads, weight stores, slots and sidecars. -/
  mem    : List Host.Cell
  /-- Poisoned 64-byte granules, by key / 64 (R441). -/
  poison : List Nat
  lines  : KMap Times
  l2     : List L2Line
  wq     : List WbLine
  /-- Prefetches posted and not yet performed (R251): line, DID, and the core or 4096 + channel whose translation each has used (R249). -/
  prefq  : List (Nat × Nat × Nat)
  cores  : KMap CoreSt
  banks  : KMap BankSt
  doms   : KMap PkgDom
  shared : KMap Shared
  /-- Set ranges: slice × 32 + range, the register of R424. -/
  sets   : KMap Nat
  /-- Gate table: ENTRY, and the second doubleword (R431). -/
  gates  : KMap (Word × Word)
  /-- Peer windows: DID × 256 + w (R452). -/
  peers  : KMap Word
  topo   : KMap Topo
  health : Health
  pkgid  : Nat
  ports  : KMap Port
  /-- Sequence numbers received, by source package, of the latest 2^30 on either side of the last (R457). -/
  seen   : List (Nat × Nat)
  /-- Replies to other packages (R286, R454), each kept until its end-to-end acknowledgement (R457). -/
  replies : List PeerReply
  /-- Messages to other packages, each kept until its end-to-end acknowledgement (R457). -/
  outbox : List OutMsg
  /-- The next sequence number to each package (R457). -/
  seqs   : KMap Nat
  /-- Messages of other packages that have arrived and are not performed yet: held at the ports in a major slot, waiting for their home, or for a phase of a barrier (R214, R262, R457). -/
  inbox  : List RemoteMsg
  /-- Requests of other packages' strands for a reservation, by the key that stands for the strand in the queue: package, sequence number, era and RDID (R207, R454). -/
  peerWait : KMap (Nat × Nat × Nat × Nat)
  host   : HostSide
  boot   : Boot
  tlb    : List Tlb
  shoots : List Shoot
  resv   : KMap Resv
  records : List Record
  tasks  : List Task
  regions : List Region
  bank   : List BankCmd
  /-- Migration packets in flight (R188): strand and destination core, or 4096 + channel. -/
  packets : List (Strand × Nat)
  /-- Partition resets requested, the oldest first (R436). -/
  resets : List ResetReq
  nextSid : Nat
  nextGid : Nat
  /-- Next number of a posted write, command, record, task or write-back. -/
  nextId : Nat
  /-- DID to which a root region that inherits its DID is bound, by the physical address of its RCB (R164). -/
  bound  : KMap Nat
  /-- Launch records that wait for a free record of their share, by strand (R173). -/
  parked : KMap Record
  /-- Free values taken so far. -/
  fresh  : Nat
  deriving DecidableEq, Repr

/-- The strand before any is seated: the reset values of R17 to R24, zero elsewhere. DESIGN CHOICE: log entry 2. -/
def Strand.reset : Strand :=
  { key := 0, sid := 0, gid := 0, rank := 0, did := 0, core := 0, pc := 0, s := Vector.replicate 64 0, p := 0x80000000#32,
    v := Vector.replicate 16 0, z := Vector.replicate 8 none, tck := 0, h := 0, sf := 0, rnd := 0, fmta := 0, fmtb := 0,
    fmtc := 0, scla := 0, sclb := 0, vsh := 0x32, migp := 2, th := false, tcause := 0, tval := 0, tpc := 0, ydl := 0,
    seat := .none, wait := .none, wnext := 0, wreg := 0, wkey := 0, wval := 0, wva := 0, wtc := 0, wn := 0, mon := none, monN := 0, gmon := [], rsv := none, posted := [], wbs := [], pend := [], vpend := [], tc := [],
    fencex := [], floors := [], ends := [], async := [], gates := [], region := 0, task := 0, gcore := 0, load := none, vload := none,
    arr := none, area := none, aside := none, caller := none, dest := none, chargedAt := 0, stale := [], ending := none, pre := none, msg := none, dead := false }

/-- What a DID holds on a core at reset (R421). -/
def DomCore.reset : DomCore :=
  { qmask := 0, accm := 0, opsm := 0, spbank := 0, wsg := 0, l1base := 0, l1n := 0, strq := 0, mbox := 0, bslots := 0 }

/-- A core at reset (R159, R363, R421). DESIGN CHOICE: log entry 3. -/
def CoreSt.reset : CoreSt :=
  { mode := .m16, slotown := List.replicate 32 0x1F, curown := List.replicate 32 0x1F, table := List.replicate 32 0x80,
    pendTab := none, pendGid := 0, doms := [], queues := Vector.replicate 8 [], qwait := [], mbox := [], held := [], runq := [], granted := [],
    asking := [], hq := [], hwait := [], claims := [], nonfin := [], acc := Vector.replicate 8 0, accPois := 0, matq := [],
    copies := [], ctxs := [], l1 := [], handover := [], copyTurn := [] }

/-- A bank core at reset (R421). -/
def BankSt.reset : BankSt := { runq := [], granted := [], asking := [], doms := [] }

/-- The package block of a DID at reset (R425). -/
def PkgDom.reset : PkgDom :=
  { troot := 0, llease := 8, gen := 0, tvec := 0, sched := 0, sched' := [], stepc := 0, pls := 0, resrec := 0, pstate := 0,
    rrn := 0, hport := 0, ranges := [(0, 0), (0, 0), (0, 0), (0, 0)], biastab := 0, cnt := [0, 0, 0, 0, 0, 0],
    energy := [0, 0, 0, 0, 0, 0], rcore := 0, rasEn := false, cerep := false, cecnt := 0, uecnt := 0, lost := 0, resets := 0,
    ctime := 0, ccount := 0, msi := [], msiN := 0, mstart := none }

/-- A shared range at reset (R425). -/
def Shared.reset : Shared := { base := 0, len := 0, creator := 0, admits := 0 }

/-- The topology entry of a core at reset (R448). DESIGN CHOICE: log entry 6. -/
def Topo.reset (c : Nat) : Topo :=
  { phys := c % 1024, present := true, subst := c, spare := false, tgen := 0 }

/-- A stream record with every field zero. -/
def StreamRec.zero : StreamRec :=
  { base := 0, esz := 0, write := false, etype := 0, rank := 0, op := 0, sink := 0, fpol := 0, floc := 0, emask := 0, sinka := 0,
    counts := [], strides := [], cword := 0 }

/-- A stream context at reset (R311). -/
def Ctx.reset : Ctx :=
  { state := 0, lock := 0, loc := 0, did := 0, owner := 0, eidx := 0, hops := 0, lastev := 0, fcode := 0, fcause := 0, zreg := 0,
    ser := 0, part := 0, tstart := 0, era := 0, srec := .zero, rnd := 0, okey := 0, clk := 0, tc := 0, window := [], pushes := [],
    written := 0, recalled := false }

/-- A Thayth port at reset (R457). -/
def Port.reset : Port := { up := false, lanes := 0, replays := 0, switch := 0, failed := 0, replay := false }

/-- The package right after reset (R466): no strand, no partition, nothing mapped, the GTC at 0. DESIGN CHOICE: log entry 2. DESIGN CHOICE: log entry 4. DESIGN CHOICE: log entry 5. DESIGN CHOICE: log entry 6. -/
def State.reset : State :=
  { me := .reset, live := false, others := [], agenda := [], nextPc := 0, words := 0, chain := [], gtc := 0, calMark := 0, era := 0,
    rblast := false, majn := 1, mem := [], poison := [], lines := [], l2 := [], wq := [], prefq := [], cores := [], banks := [],
    doms := [], shared := [], sets := [], gates := [], peers := [], topo := [],
    health := { spares := [16, 16, 16, 16], state := 0, repl := false, hkovr := 0, tgen := 0, pending := [], overrun := [],
                deadCh := [], deadSl := [], deadBk := [], intr := 0 },
    pkgid := 0, ports := [], seen := [], replies := [], outbox := [], seqs := [], inbox := [], peerWait := [],
    host := { hc := [], ld := [], vf := [], lanes := [16, 16], sent := [], masked := [], pba := [], queue := [], reply := none },
    boot := { recovery := false, leaf := 0, reports := [], refused := 0, throttled := false },
    tlb := [], shoots := [], resv := [], records := [], tasks := [], regions := [], bank := [], packets := [], resets := [],
    nextSid := 1, nextGid := 1, nextId := 1, bound := [], parked := [], fresh := 0 }

end Sys2Proof.Machine
end

