-- ==== Sys2Proof/Machine/Mem.lean ====
section
/-! DEFINITION. Storage: the byte store in its canonical form, the calendar's phase, home slices and the L2, line times and leases,
L1 copies, page-table walks and translations, memory ranges, poison and RAS records. -/

namespace Sys2Proof.Machine

/-! ### The byte store -/

/-- The byte at a key; a key not listed reads 0. DESIGN CHOICE: log entry 4. -/
def memGet (m : List Host.Cell) (a : Nat) : Byte := kget m a 0

/-- One byte written; writing 0 removes the entry, so that equal memories are equal lists. -/
def memSet : List Host.Cell → Nat → Byte → List Host.Cell
  | [], a, b => if b = 0 then [] else [(a, b)]
  | (k, c) :: m, a, b =>
    if a < k then (if b = 0 then (k, c) :: m else (a, b) :: (k, c) :: m)
    else if a = k then (if b = 0 then m else (a, b) :: m)
    else (k, c) :: memSet m a b

/-- The canonical form: addresses strictly rising, no entry equal to what an unlisted address reads as. -/
def memWf : List Host.Cell → Bool
  | [] => true
  | [(_, b)] => b != 0
  | (a, b) :: (c, d) :: m => b != 0 && decide (a < c) && memWf ((c, d) :: m)

/-- `n` bytes from a key up. -/
def memBytes (m : List Host.Cell) (a n : Nat) : List Byte := (upto a n).map (memGet m)

/-- The little-endian value of `n` bytes (R5). -/
def memVal (m : List Host.Cell) (a n : Nat) : Nat := leVal (memBytes m a n)

/-- Bytes written from a key up. -/
def memPut : List Host.Cell → Nat → List Byte → List Host.Cell
  | m, _, [] => m
  | m, a, b :: bs => memPut (memSet m a b) (a + 1) bs

/-- `n` bytes set to zero. -/
def memZero (m : List Host.Cell) (a n : Nat) : List Host.Cell :=
  m.filter (fun c => c.1 < a || a + n ≤ c.1)

/-- Key of offset o of the scratchpad of core c. DESIGN CHOICE: log entry 85. -/
def spadKey (c o : Nat) : Nat := 2 ^ 48 + c * 2 ^ 18 + o

/-- Key of offset o of the weight store of core c. -/
def wsKey (c o : Nat) : Nat := 2 ^ 49 + c * 2 ^ 20 + o

/-- Key of data byte o of operand slot m of core c. -/
def slotKey (c m o : Nat) : Nat := 2 ^ 50 + c * 2 ^ 18 + m * 8192 + o

/-- Key of sidecar byte o of operand slot m of core c. -/
def sideKey (c m o : Nat) : Nat := 2 ^ 50 + c * 2 ^ 18 + 2 ^ 17 + m * 512 + o

/-! ### The calendar's phase (R255 to R260) -/

/-- A major slot is under way (R255). -/
def inMajor (g : Nat) : Bool := g % 2 ^ 22 < 32768

/-- A minor slot is under way, or is covered by a major one (R255). -/
def inMinor (g : Nat) : Bool := g % 2 ^ 14 < 640

/-- A maintenance interval is under way (R255). -/
def inInterval (g : Nat) : Bool := inMajor g || inMinor g

/-- CAL0.STATE (R259). -/
def calState (g : Nat) : Nat :=
  if inMajor g then 3 else if inMinor g then 2 else if 16256 ≤ g % 2 ^ 14 then 1 else 0

/-- The GTC at which the interval that holds, or follows, `g` ends (R255): a major interval runs for 33,408 ticks. -/
def intervalEnd (g : Nat) : Nat :=
  if g % 2 ^ 22 < 33408 then alignDown g (2 ^ 22) + 33408
  else if g % 2 ^ 14 < 640 then alignDown g (2 ^ 14) + 640
  else
    let b := alignDown g (2 ^ 14) + 2 ^ 14
    if b % 2 ^ 22 = 0 then b + 33408 else b + 640

/-- The GTC at which the interval begins that holds or follows `g` (R260, NEXT). -/
def intervalStart (g : Nat) : Nat :=
  if g % 2 ^ 22 < 33408 then alignDown g (2 ^ 22)
  else if g % 2 ^ 14 < 640 then alignDown g (2 ^ 14)
  else alignDown g (2 ^ 14) + 2 ^ 14

/-- CAL0 (R259). -/
def cal0 (g : Nat) : Nat :=
  let st := calState g
  let maj := intervalStart g % 2 ^ 22 = 0
  let sleft := if st = 0 then 0 else intervalEnd g - g
  let dleft := if st = 0 then intervalStart g - 128 - g else 0
  b2n maj * 2 ^ 51 + st * 2 ^ 48 + sleft * 2 ^ 32 + dleft

/-- CAL2 (R260). -/
def cal2 : Nat := 128 * 2 ^ 48 + 32768 * 2 ^ 32 + 640 * 2 ^ 16 + 22 * 2 ^ 8 + 14

/-- CAL3 (R260). -/
def cal3 (s : State) : Nat := b2n s.rblast * 2 ^ 32 + s.majn % 2 ^ 32

/-- The value RDCAL reads (R261). -/
def rdcal (s : State) (n : Nat) : Word :=
  match n with
  | 0 => w64 (cal0 s.gtc)
  | 1 => w64 (intervalStart s.gtc)
  | 2 => w64 cal2
  | 3 => w64 (cal3 s)
  | _ =>
    if calState s.gtc = 0 then w64 (intervalStart s.gtc - 128 - s.gtc)
    else wInt (-(intervalEnd s.gtc - s.gtc : Nat))

/-! ### Access to the tables of the package -/

/-- A core's state. -/
def coreOf (s : State) (c : Nat) : CoreSt := kget s.cores c .reset

/-- The state with a core replaced. -/
def setCore (s : State) (c : Nat) (x : CoreSt) : State := { s with cores := kset s.cores c x }

/-- The state with a core changed. -/
def updCore (s : State) (c : Nat) (f : CoreSt → CoreSt) : State := setCore s c (f (coreOf s c))

/-- A bank core's state. -/
def bankOf (s : State) (ch : Nat) : BankSt := kget s.banks ch .reset

/-- The state with a bank core changed. -/
def updBank (s : State) (ch : Nat) (f : BankSt → BankSt) : State := { s with banks := kset s.banks ch (f (bankOf s ch)) }

/-- The package block of a DID. -/
def domOf (s : State) (d : Nat) : PkgDom := kget s.doms d .reset

/-- The state with a package block changed. -/
def updDom (s : State) (d : Nat) (f : PkgDom → PkgDom) : State := { s with doms := kset s.doms d (f (domOf s d)) }

/-- What a DID holds on a core (R421). -/
def domCore (s : State) (c d : Nat) : DomCore := kget (coreOf s c).doms d .reset

/-- What a DID holds on a bank core (R421). -/
def domBank (s : State) (ch d : Nat) : DomCore := kget (bankOf s ch).doms d .reset

/-- The topology entry of a core (R448). -/
def topoOf (s : State) (c : Nat) : Topo := kget s.topo c (.reset c)

/-- Core c is enabled and in the exposed set (R183, R448). -/
def exposed (s : State) (c : Nat) : Bool := decide (c < 4096) && (topoOf s c).present

/-- A memory counter of a DID raised: 0 PFISS, 1 PFUSED, 2 PFLATE, 3 PFUNUSED, 4 L2WB, 5 CWFAIL (R242). -/
def addCnt (s : State) (d i n : Nat) : State :=
  updDom s d (fun b => { b with cnt := b.cnt.set i ((b.cnt.getD i 0 + n) % 2 ^ 64) })

/-- An energy counter of a DID raised: 0 ECORE to 5 REMFAIL (R468). -/
def addEnergy (s : State) (d i n : Nat) : State :=
  updDom s d (fun b => { b with energy := b.energy.set i ((b.energy.getD i 0 + n) % 2 ^ 64) })

/-- A charge of energy whose figure the spec does not give (R468): a free value. -/
def chargeEnergy (s : State) (d i : Nat) : State :=
  addEnergy { s with fresh := s.fresh + 1 } d i (Config.energy s.fresh)

/-- A resource descriptor (R419). DEDUCED: log entry 58. -/
def descriptor (owner unit index kind : Nat) : Word :=
  w64 (owner * 2 ^ 32 + unit * 2 ^ 16 + index * 2 ^ 8 + kind)

/-- The DID of 0 to 20 for which a test holds, or 0x1F. -/
def ownerBy (f : Nat → Bool) : Nat := ((List.range 21).find? f).getD 0x1F

/-- The holder of a scratchpad bank of a core (R26). -/
def bankHolder (s : State) (c b : Nat) : Nat := ownerBy (fun d => bit (domCore s c d).spbank b)

/-- The holder of a weight-store granule of a core (R226). -/
def granuleHolder (s : State) (c g : Nat) : Nat := ownerBy (fun d => bit (domCore s c d).wsg g)

/-- Core c lies in the partition of DID d (R422). -/
def inPartition (s : State) (c d : Nat) : Bool :=
  if d = 0 then exposed s c else (coreOf s c).slotown.contains d

/-- The bank core of channel ch lies in the partition of DID d (R422), and is in service (R446). -/
def bankInPartition (s : State) (ch d : Nat) : Bool :=
  !s.health.deadBk.contains ch && (d == 0 || (domBank s ch d).bslots != 0)

/-- The lease of a DID (R264). -/
def leaseOf (s : State) (d : Nat) : Nat := 2 ^ (domOf s d).llease

/-! ### Physical memory -/

/-- The physical address names the package's own DRAM (R2, R229). -/
def namesDram (pa : Nat) : Bool :=
  bits pa 47 40 == 0 && !(bits pa 39 39 == 1 && Config.isP512)

/-- The channel of a physical address (R230). -/
def channelOf (pa : Nat) : Nat := bits pa 19 11

/-- The home slice of a physical address (R231). -/
def sliceOf (pa : Nat) : Nat := bits pa 15 6

/-- Two addresses lie in one subarray (R230). -/
def sameSubarray (a b : Nat) : Bool :=
  bits a 39 33 == bits b 39 33 && bits a 23 19 == bits b 23 19 && bits a 18 11 == bits b 18 11

/-- The home core of a physical address (R231), through the topology table (R448). -/
def homeCore (s : State) (pa : Nat) : Nat :=
  let h := sliceOf pa
  (topoOf s (bits h 9 8 * 1024 + bits pa 7 6 * 256 + bits h 7 0)).subst

/-- A range of BASE and LEN, in units of 2 MiB, holds an address (R425). -/
def inRange (pa : Nat) (r : Nat × Nat) : Bool := decide (r.1 ≤ pa ∧ pa < r.1 + r.2 * 2 ^ 21)

/-- The range that holds a physical address: DID d as d, shared range j as 21 + j (R235, R424). -/
def rangeOf (s : State) (pa : Nat) : Option Nat :=
  match (List.range 21).find? (fun d => (domOf s d).ranges.any (inRange pa)) with
  | some d => some d
  | none => ((List.range 11).find? (fun j =>
      let r := kget s.shared j .reset; inRange pa (r.base, r.len))).map (21 + ·)

/-- The DID charged for a line of memory (R235, R442): the owner of its range, a shared range's creator, or 0. -/
def chargedDid (s : State) (pa : Nat) : Nat :=
  match rangeOf s pa with
  | some r => if r < 21 then r else (kget s.shared (r - 21) .reset).creator
  | none => 0

/-- DID d may reach a physical address of the package (R235). -/
def mayReach (s : State) (d pa : Nat) : Bool :=
  match rangeOf s pa with
  | some r => if r < 21 then r == d else bit (kget s.shared (r - 21) .reset).admits d
  | none => false

/-! ### Homes, the L2 and its write queue -/

/-- The value of a line at its home (R280): the L2's line, else the latest write-back still queued, else the arrays. -/
def homeLine (s : State) (ln : Nat) : List Byte :=
  match s.l2.find? (fun l => l.line == ln) with
  | some l => l.data
  | none => match s.wq.reverse.find? (fun l => l.line == ln) with
    | some l => l.data
    | none => memBytes s.mem (64 * ln) 64

/-- Bytes of one line at its home, as a value. -/
def homeVal (s : State) (pa n : Nat) : Nat :=
  leVal (((homeLine s (pa / 64)).drop (pa % 64)).take n)

/-- `l` with bytes `d` from offset `o`. -/
def spliceAt (l : List Byte) (o : Nat) (d : List Byte) : List Byte := l.take o ++ d ++ l.drop (o + d.length)

/-- Bytes of one line written at its home: into the L2's line, else into the write-back still queued, else into the arrays (R234). -/
def homePut (s : State) (pa : Nat) (d : List Byte) : State :=
  let ln := pa / 64
  if s.l2.any (fun l => l.line == ln) then
    { s with l2 := mapIf (fun l => l.line == ln) (fun l => { l with data := spliceAt l.data (pa % 64) d, dirty := true }) s.l2 }
  else match s.wq.reverse.find? (fun l => l.line == ln) with
    | some w => { s with wq := mapIf (fun l => l.id == w.id) (fun l => { l with data := spliceAt l.data (pa % 64) d }) s.wq }
    | none => { s with mem := memPut s.mem pa d }

/-- The line is in its home slice. -/
def inL2 (s : State) (ln : Nat) : Bool := s.l2.any (fun l => l.line == ln)

/-- The home can serve the line now: a miss to DRAM stalls in a maintenance interval (R262). -/
def homeReady (s : State) (ln : Nat) : Bool :=
  inL2 s ln || !inInterval s.gtc || decide (2 ^ 40 ≤ 64 * ln)

/-- The times of a line at its home (R264). DESIGN CHOICE: log entry 5. -/
def timesOf (s : State) (ln : Nat) : Times := kget s.lines ln ⟨0, 0, 0⟩

/-- The state with a line's times set, for any reason but a write. -/
def setTimes (s : State) (ln wts rts : Nat) : State := { s with lines := kset s.lines ln ⟨wts, rts, (timesOf s ln).n⟩ }

/-- A line has been written at its home at time ws: both its times, and one write more (R214, R217, R268). -/
def wroteTimes (s : State) (ln ws : Nat) : State := { s with lines := kset s.lines ln ⟨ws, ws, (timesOf s ln).n + 1⟩ }

/-- A line leaves the L2: written back when dirty, its times kept at its lease end (R236, R238). -/
def dropL2 (s : State) (ln : Nat) (writeBack : Bool) : State :=
  match s.l2.find? (fun l => l.line == ln) with
  | none => s
  | some l =>
    let s := { s with l2 := s.l2.filter (fun x => x.line != ln) }
    let s := match l.pref with
      | some d => addCnt s d 3 1
      | none => s
    let t := timesOf s ln
    let s := setTimes s ln t.rts t.rts
    if l.dirty && writeBack then
      let d := if l.range < 21 then l.range else (kget s.shared (l.range - 21) .reset).creator
      addCnt { s with wq := s.wq ++ [⟨s.nextId, ln, l.data⟩], nextId := s.nextId + 1 } d 4 64
    else s

/-- A line is written back and stays, clean (R250). -/
def cleanL2 (s : State) (ln : Nat) : State :=
  match s.l2.find? (fun l => l.line == ln) with
  | none => s
  | some l =>
    if l.dirty then
      let d := if l.range < 21 then l.range else (kget s.shared (l.range - 21) .reset).creator
      addCnt { s with l2 := mapIf (fun x => x.line == ln) (fun x => { x with dirty := false }) s.l2,
                      wq := s.wq ++ [⟨s.nextId, ln, l.data⟩], nextId := s.nextId + 1 } d 4 64
    else s

/-- A line is dead, or covered, under a schedule (R239): `some true` dead, `some false` covered only. -/
def schedOf (b : PkgDom) (ln : Nat) : Option Bool :=
  let es := b.sched'.filter (fun e => decide (e.1 ≤ ln ∧ ln < e.1 + e.2.1))
  if es.isEmpty then none else some (es.any (fun e => decide (e.2.2 < b.stepc)))

/-- The victim of a full set (R239): among lines in order of insertion. -/
def victimOf (s : State) (range : Nat) (ls : List L2Line) : Option L2Line :=
  let b := domOf s range
  if range < 21 && !b.sched'.isEmpty then
    match ls.find? (fun l => schedOf b l.line == some true) with
    | some l => some l
    | none => match ls.find? (fun l => schedOf b l.line == none) with
      | some l => some l
      | none => ls.head?
  else ls.head?

/-- The device address of a physical address in the HDM of a DID: its ranges 0 to 3 laid end to end (R459). -/
def hdmOffset (pa : Nat) : List (Nat × Nat) → Nat → Nat
  | [], acc => acc
  | r :: rs, acc => if inRange pa r then acc + (pa - r.1) else hdmOffset pa rs (acc + r.2 * 2 ^ 21)

/-! ### RAS records, which a fill from a failed channel may post -/

/-- A granule lies in a channel that has failed, and is not held in its slice: it is poisoned as it is read (R445). -/
def deadGranule (s : State) (g : Nat) : Bool :=
  !s.health.deadCh.isEmpty && decide (64 * g < 2 ^ 40) && s.health.deadCh.contains (channelOf (64 * g)) && !inL2 s g

/-- Every strand of the package, the one in turn first. -/
def strands (s : State) : List Strand := (if s.live then [s.me] else []) ++ s.others

/-- Strands on their way as migration packets (R188). -/
def travellers (s : State) : List Strand := s.packets.map Prod.fst

/-- A strand by key, in its place or in a migration packet. -/
def strandOf (s : State) (key : Nat) : Option Strand := (strands s ++ travellers s).find? (fun t => t.key == key)

/-- Key of an error at byte o of accumulator a of core c (R387, R440, R444). DESIGN CHOICE: log entry 85. -/
def accKey (c a o : Nat) : Nat := 2 ^ 51 + 4096 * (8 * c + a) + o

/-- Key of an error at byte o of the registers of a strand, by its key (R440, R444). DESIGN CHOICE: log entry 85. -/
def regErrKey (key o : Nat) : Nat := 2 ^ 52 + 2 ^ 15 * key + o

/-- The core and the accumulator that an error's key names. -/
def accPlace (k : Nat) : Nat × Nat := let i := (k - 2 ^ 51) / 4096; (i / 8, i % 8)

/-- The strand that the key of an error in a register names. -/
def regErrOf (k : Nat) : Nat := (k - 2 ^ 52) / 2 ^ 15

/-- Messages held or queued for a share: the entry is put in, or held at its source when the share is full or messages are held before it (R198, R423). -/
def postMsg (s : State) (c d : Nat) (m : MboxMsg) : State :=
  let size := (domCore s c d).mbox
  if size = 0 then s
  else updCore s c (fun cs =>
    let q := kget cs.mbox d []
    let h := kget cs.held d []
    if q.length < size && h.isEmpty then { cs with mbox := kset cs.mbox d (q ++ [m]) }
    else { cs with held := kset cs.held d (h ++ [m]) })

/-- A RAS record is posted to the charged DID, or counted as lost (R443, R444). DEDUCED: log entry 58. -/
def rasPost (s : State) (d time addr src sev adid unit : Nat) : State :=
  let b := domOf s d
  if b.rasEn && (domCore s b.rcore d).mbox != 0 then
    postMsg s b.rcore d ⟨4, b.rcore, 0, time, s.era,
      addr + (src + sev * 2 ^ 4 + adid * 2 ^ 8 + unit * 2 ^ 16) * 2 ^ 64, none⟩
  else updDom s d (fun b => { b with lost := b.lost + 1 })

/-- Where a key's byte lies: charged DID, time, address or offset within the storage, source and unit of its record (R442, R444). The sidecar of a slot counts on
from the slot's 8,192 bytes. DEDUCED: log entry 58. -/
def rasPlace (s : State) (k : Nat) : Nat × Nat × Nat × Nat × Nat :=
  if k < 2 ^ 48 then
    let l2 := inL2 s (k / 64)
    (chargedDid s k, (timesOf s (k / 64)).wts, alignDown k 64, b2n l2, if l2 then sliceOf k else 4096 + channelOf k)
  else if k < 2 ^ 49 then
    let c := (k - 2 ^ 48) / 2 ^ 18
    let o := k % 2 ^ 18
    let d := bankHolder s c (o / 2 ^ 14)
    (if d = 0x1F then 0 else d, 0, alignDown o 64, 2, c)
  else if k < 2 ^ 50 then
    let c := (k - 2 ^ 49) / 2 ^ 20
    let o := k % 2 ^ 20
    let d := granuleHolder s c (o / 2 ^ 16)
    (if d = 0x1F then 0 else d, 0, alignDown o 64, 3, c)
  else if k < 2 ^ 51 then
    let c := (k - 2 ^ 50) / 2 ^ 18
    let o := k % 2 ^ 18
    let m := if o < 2 ^ 17 then o / 8192 else (o - 2 ^ 17) / 512
    (kget (coreOf s c).claims m 0, 0, alignDown (if o < 2 ^ 17 then o % 8192 else 8192 + o % 512) 64, 4, c)
  else if k < 2 ^ 52 then
    let (c, a) := accPlace k
    (kget (coreOf s c).claims (16 + a) 0, 0, k % 4096, 5, c)
  else match strandOf s (regErrOf k) with
    | some t => (t.did, 0, k % 2 ^ 15, 6, t.core)
    | none => (0, 0, k % 2 ^ 15, 6, 0)

/-- Uncorrectable data is found: the granule is poisoned, the error is counted and a record posted once (R441 to R444). -/
def poisonMark (s : State) (k adid : Nat) : State :=
  if s.poison.contains (k / 64) then s
  else
    let (d, t, a, src, u) := rasPlace s k
    let s := { s with poison := s.poison ++ [k / 64] }
    let s := updDom s d (fun b => { b with uecnt := b.uecnt + 1 })
    rasPost s d t a src 1 adid u

/-- An accumulator becomes poisoned, by an error or by a poisoned operand (R387, R440): counted, and a record posted once (R444). -/
def accFound (s : State) (k adid : Nat) : State :=
  let (c, a) := accPlace k
  if (coreOf s c).accPois.getLsbD a then s
  else
    let (d, t, o, src, u) := rasPlace s k
    let s := updDom (updCore s c (fun cs => { cs with accPois := cs.accPois ||| BitVec.ofNat 8 (2 ^ a) })) d (fun b => { b with uecnt := b.uecnt + 1 })
    rasPost s d t o src 1 adid u

/-- A granule of a key's 64 bytes is poisoned (R441, R445). -/
def poisonedAt (s : State) (k n : Nat) : Bool :=
  (upto (k / 64) ((k + n - 1) / 64 - k / 64 + 1)).any (fun g => s.poison.contains g || deadGranule s g)

/-- Granules of a failed channel that a read has met are poisoned for good (R441, R445). -/
def foundDead (s : State) (k n adid : Nat) : State :=
  if s.health.deadCh.isEmpty then s
  else (upto (k / 64) ((k + n - 1) / 64 - k / 64 + 1)).foldl (fun s g => if deadGranule s g then poisonMark s (64 * g) adid else s) s

/-- The byte of the bias bitmap that holds the bit of the page of a physical address, and that bit's number (R461): none where no such byte is memory of the package. -/
def biasByte (s : State) (pa : Nat) : Option (Nat × Nat) :=
  match rangeOf s pa with
  | some d =>
    let b := domOf s d
    let page := hdmOffset pa b.ranges 0 / 4096
    if 21 ≤ d || b.biastab = 0 || !namesDram (b.biastab + page / 8) then none else some (b.biastab + page / 8, page % 8)
  | none => none

/-- The page of a physical address is in host bias (R461): the bit of its page in the bias bitmap of the DID whose range holds it; a page whose byte of the bitmap is no
memory of the package, or is poisoned, is in device bias. DEDUCED: log entry 11. DESIGN CHOICE: log entry 97. -/
def hostBias (s : State) (pa : Nat) : Bool :=
  (biasByte s pa).any (fun x => !poisonedAt s x.1 1 && bit (homeVal s x.1 1) x.2)

/-- The bias of a page is looked up for an access of DID d: a byte of the bitmap in a failed channel is poisoned as it is read (R445). -/
def biasLook (s : State) (pa d : Nat) : State := ((biasByte s pa).map (fun x => foundDead s x.1 1 d)).getD s

/-- A line is brought into its home slice, into the set range of the memory range that holds it (R234, R235), a victim leaving a full set (R239). A line of
a channel that has failed is poisoned as it is read (R445). `d` is the DID that asks for it. -/
def fillL2 (s : State) (ln : Nat) (pref : Option Nat) (d : Nat) : State :=
  let pa := 64 * ln
  if inL2 s ln || decide (2 ^ 40 ≤ pa) || hostBias s pa then s
  else
  let s := if deadGranule s ln then poisonMark s pa d else s
  match rangeOf s pa with
    | none => s
    | some r =>
      let h := sliceOf pa
      let reg := kget s.sets (h * 32 + r) 0
      if !bit reg 31 || s.health.deadSl.contains h then s
      else
        let k := bits reg 19 16
        let set := bits reg 8 0 + pa / 2 ^ 16 % 2 ^ k
        let ls := s.l2.filter (fun l => l.range == r && l.set == set && sliceOf (64 * l.line) == h)
        let s := if ls.length < 16 then s else match victimOf s r ls with
          | some v => dropL2 s v.line true
          | none => s
        let s := match pref with
          | some d => addCnt s d 0 1
          | none => s
        { s with l2 := s.l2 ++ [⟨ln, r, set, false, pref, homeLine s ln⟩] }

/-- A demand access meets the line at its home: counted against a prefetch (R242), and filled (R234). One that finds its line's prefetch in flight is
late, and the prefetch fetches the line, which then has had its demand access. A line in host bias is snooped at the host first (R461), whose flits are charged (R468). -/
def demand (s : State) (ln d : Nat) : State :=
  let s := biasLook s (64 * ln) d
  let s := if hostBias s (64 * ln) then chargeEnergy s d 2 else s
  let s := match s.prefq.find? (fun q => q.1 == ln) with
    | some (_, pd, _) =>
      let s := fillL2 (addCnt { s with prefq := s.prefq.filter (fun q => q.1 != ln) } pd 2 1) ln (some pd) pd
      { s with l2 := mapIf (fun x => x.line == ln) (fun x => { x with pref := none }) s.l2 }
    | none => s
  match s.l2.find? (fun l => l.line == ln) with
  | some l => match l.pref with
    | some d => addCnt { s with l2 := mapIf (fun x => x.line == ln) (fun x => { x with pref := none }) s.l2 } d 1 1
    | none => s
  | none => fillL2 s ln none d

/-- A write-back reaches the arrays, in the order of those of its line (R280); its bytes are charged to the DID that owns the line (R442, R468). -/
def wbArrive (s : State) (id : Nat) : State :=
  match s.wq.find? (fun w => w.id == id) with
  | some w =>
    if (s.wq.find? (fun x => x.line == w.line)).any (fun x => x.id != id) then s
    else { chargeEnergy s (chargedDid s (64 * w.line)) 1 with wq := s.wq.filter (fun x => x.id != id), mem := memPut s.mem (64 * w.line) w.data }
  | none => s

/-- Every write-back of a line that is still queued reaches the arrays before a step of CLNR, INVR or FLSR on the line (R280, R288). DEDUCED: log entry 88. -/
def flushLine (s : State) (ln : Nat) : State :=
  match s.wq.reverse.find? (fun w => w.line == ln) with
  | some w => { chargeEnergy s (chargedDid s (64 * ln)) 1 with wq := s.wq.filter (fun x => x.line != ln), mem := memPut s.mem (64 * ln) w.data }
  | none => s

/-! ### The L1 (R232, R233) -/

/-- The copy of a line a DID can hit on a core. -/
def l1Find (s : State) (c d ln : Nat) : Option L1Line :=
  (coreOf s c).l1.find? (fun l => l.did == d && l.line == ln)

/-- The L1 set of a line for a DID's share (R233). -/
def l1Set (k : DomCore) (ln : Nat) : Nat := k.l1base + ln % 64 % k.l1n

/-- A copy put into the DID's sets, the earliest inserted of a full set leaving it; none without a share (R233). A line in host bias is not cached (R461). -/
def l1Put (s : State) (c : Nat) (x : L1Line) : State :=
  let k := domCore s c x.did
  if k.l1n = 0 || hostBias s (64 * x.line) then s
  else updCore s c (fun cs =>
    if cs.l1.any (fun l => l.did == x.did && l.line == x.line) then
      { cs with l1 := mapIf (fun l => l.did == x.did && l.line == x.line) (fun _ => x) cs.l1 }
    else
      let mates := cs.l1.filter (fun l => l.did == x.did && l1Set k l.line == l1Set k x.line)
      let rest := if mates.length < 4 then cs.l1
        else match mates.head? with
          | some v => cs.l1.filter (fun l => !(l.did == x.did && l.line == v.line))
          | none => cs.l1
      { cs with l1 := rest ++ [x] })

/-- The issuing core's copies of a line take the data and the times that the line has at its home once a write has been performed there (R232, R268):
a copy is never older than its times (R266). Where the line's granule is poisoned at its home its data is not good, and the copies go, so that later loads meet the
poison there (R441). A bank core has no L1. DEDUCED: log entry 18. -/
def l1Store (s : State) (c ln t : Nat) : State :=
  let bad := s.poison.contains ln || deadGranule s ln
  if c < 4096 && (coreOf s c).l1.any (fun l => l.line == ln) then
    updCore s c (fun cs =>
      if bad then { cs with l1 := cs.l1.filter (fun l => l.line != ln) }
      else { cs with l1 := mapIf (fun l => l.line == ln) (fun l => { l with data := homeLine s ln, wts := t, rts := t }) cs.l1 })
  else s

/-- A core's copy of a line is dropped (R250). -/
def l1Drop (s : State) (c ln : Nat) : State :=
  if (coreOf s c).l1.any (fun l => l.line == ln) then
    updCore s c (fun cs => { cs with l1 := cs.l1.filter (fun l => l.line != ln) })
  else s

/-! ### Renewal and home steps -/

/-- A line's lease renewed for a request at time t of DID d (R266): the new state, the line's wts and rts. -/
def lease (s : State) (ln t d : Nat) : State × Nat × Nat :=
  let x := timesOf s ln
  let r := max x.rts (max t x.wts + leaseOf s d)
  (setTimes s ln x.wts r, x.wts, r)

/-- The home serves a request for a line, a demand access (R242), and renews its lease (R266). -/
def renew (s : State) (ln t d : Nat) : State × Nat × Nat := lease (demand s ln d) ln t d

/-- A read that a stream's prefetch window makes at the home: a line that it brings into the L2 counts as prefetched (R242, R314): value and time. -/
def windowRead (s : State) (pa n t d : Nat) : State × Nat × Nat :=
  let (s, w, _) := lease (if inL2 s (pa / 64) then s else fillL2 s (pa / 64) (some d) d) (pa / 64) t d
  (s, homeVal s pa n, max t w)

/-- A read at the home by an engine or as POLL reads: value, time, without an L1 (R215, R277). -/
def homeRead (s : State) (pa n t d : Nat) : State × Nat × Nat :=
  let (s, w, _) := renew s (pa / 64) t d
  (s, homeVal s pa n, max t w)

/-- A write at the home for a DID with its store time (R268): the core whose L1 copy is updated, or 4096 for none. DEDUCED: log entry 30. -/
def homeWrite (s : State) (pa : Nat) (d : List Byte) (clock floor core did : Nat) : State × Nat :=
  let ln := pa / 64
  let s := demand s ln did
  let x := timesOf s ln
  let ws := max (max (clock + 1) (floor + 1)) (x.rts + 1)
  let s := wroteTimes (homePut s pa d) ln ws
  (l1Store s core ln ws, ws)

/-! ### Poison and RAS records -/

/-- A single write of good data clears the granules it covers (R441). -/
def clearPoison (s : State) (k n : Nat) : State :=
  if s.poison.isEmpty then s
  else { s with poison := s.poison.filter (fun g => !decide (k ≤ 64 * g ∧ 64 * g + 64 ≤ k + n)) }

/-- A corrected error: counted, and posted when CEREP asks for it (R440, R444). -/
def correctedMark (s : State) (k adid : Nat) : State :=
  let (d, t, a, src, u) := rasPlace s k
  let s := updDom s d (fun b => { b with cecnt := b.cecnt + 1 })
  if (domOf s d).cerep then rasPost s d t a src 0 adid u else s

/-! ### Translation (R243 to R246) -/

/-- What an access needs of a leaf. -/
inductive Need where
  | read | write | both | fetch
  deriving DecidableEq, Repr

/-- A leaf's permission bits (R, W, X as bits 2 to 4 of the entry) allow the access (R61, R93, R244). -/
def permits (perm : Nat) : Need → Bool
  | .read => bit perm 2
  | .write => bit perm 3
  | .both => bit perm 2 && bit perm 3
  | .fetch => bit perm 4

/-- The table levels: lowest index bit, index bits, leaves allowed, pointers allowed (R243). -/
def walkLevels : List (Nat × Nat × Bool × Bool) :=
  [(48, 8, false, true), (39, 9, false, true), (30, 9, true, true), (21, 9, true, true), (12, 9, true, false)]

/-- The entry at an address as a translation uses it: where the 16 entries of its group differ, any one of them (R244). DESIGN CHOICE: log entry 15. -/
def groupPick (s : State) (va ea e : Nat) : Nat :=
  if bit e 0 && bit e 1 && bit e 5 then
    let g := (List.range 16).map (fun i => homeVal s (ea / 128 * 128 + 8 * i) 8)
    if g.all (fun x => x == e) then e else g.getD (Config.groupEntry s.gtc va).val e
  else e

/-- DOMAIN for a physical address outside what a DID may reach (R235, R419). -/
def rangeDescriptor (s : State) (pa : Nat) : Word :=
  descriptor (match rangeOf s pa with
    | some _ => chargedDid s pa
    | none => 0x1F) 0x1FFF 0 0x09

/-- A walk from a table (R244, R245): the leaf page's address, size and entry, or the cause and TVAL. Each entry is read with the rights of DID 0: one outside
what DID 0 may reach raises DOMAIN, and a table that is no memory of the package XLATE. The read of an entry brings no line into the L2, is no demand access and renews
no lease. DESIGN CHOICE: log entry 89. -/
def walkFrom (s : State) (va : Nat) : Nat → List (Nat × Nat × Bool × Bool) → Except (Cause × Word) (Nat × Nat × Nat)
  | _, [] => .error (.xlate, w64 va)
  | table, (sh, n, leafOk, ptrOk) :: rest =>
    let ea := table + 8 * (va / 2 ^ sh % 2 ^ n)
    if !namesDram ea then .error (.xlate, w64 va)
    else if !mayReach s 0 ea then .error (.domain, rangeDescriptor s ea)
    else if poisonedAt s ea 8 then .error (.poison, w64 va)
    else
      let e := if leafOk then groupPick s va ea (homeVal s ea 8) else homeVal s ea 8
      let ppn := bits e 47 12 * 4096
      if !bit e 0 || bits e 63 48 != 0 || bits e 11 6 != 0 then .error (.xlate, w64 va)
      else if bit e 1 then
        let size := if bit e 5 then 2 ^ (sh + 4) else 2 ^ sh
        if !leafOk || (bit e 3 && !bit e 2) || ppn % size != 0 then .error (.xlate, w64 va)
        else .ok (ppn, size, e % 64)
      else if !ptrOk || bits e 5 2 != 0 then .error (.xlate, w64 va)
      else walkFrom s va ppn rest

/-- The entries that a walk reads, up to the first in a failed channel: its line is poisoned as it is read (R445), by an access of DID d. -/
def walkMark (s : State) (d va : Nat) : Nat → List (Nat × Nat × Bool × Bool) → State
  | _, [] => s
  | table, (sh, n, _, _) :: rest =>
    let ea := table + 8 * (va / 2 ^ sh % 2 ^ n)
    let e := homeVal s ea 8
    if !namesDram ea then s
    else if deadGranule s (ea / 64) then poisonMark s ea d
    else if !bit e 0 || bit e 1 then s
    else walkMark s d va (bits e 47 12 * 4096) rest

/-- A walk finds the entries that it reads in the L2, or no maintenance interval is under way (R262). -/
def walkServed (s : State) (va : Nat) : Nat → List (Nat × Nat × Bool × Bool) → Bool
  | _, [] => true
  | table, (sh, n, _, _) :: rest =>
    let ea := table + 8 * (va / 2 ^ sh % 2 ^ n)
    let e := homeVal s ea 8
    homeReady s (ea / 64) && (!bit e 0 || bit e 1 || walkServed s va (bits e 47 12 * 4096) rest)

/-- A translation that a holder has: physical address and permission bits. -/
def tlbFind (s : State) (holder did va : Nat) : Option Tlb :=
  s.tlb.find? (fun t => t.holder == holder && t.did == did && decide (t.va ≤ va ∧ va < t.va + t.size))

/-- The strand in turn sits on the bank core that holds the translation, and a TLBSD has dropped the address's range under it (R249, R398). -/
def staleHit (s : State) (holder did va : Nat) : Bool :=
  match s.me.seat with
  | .bank ch _ => holder == 4096 + ch && did == s.me.did && s.me.stale.any (fun r => decide (r.1 ≤ va ∧ va < r.2))
  | _ => false

/-- Translate an address of translated memory for a holder (R243 to R246): the physical address and the leaf's bits.
A strand on a bank core meets STALE_XLATE once in a range that a TLBSD has dropped under it (R249, R398). DEDUCED: log entry 84. -/
def translate (s : State) (holder did va : Nat) : Except (Cause × Word) (Nat × Nat) :=
  if staleHit s holder did va then .error (.staleXlate, w64 va)
  else match tlbFind s holder did va with
  | some t => .ok (t.pa + (va - t.va), t.perm)
  | none =>
    match walkFrom s va (domOf s did).troot walkLevels with
    | .error e => .error e
    | .ok (ppn, size, perm) => .ok (ppn + va % size, perm)

/-- An access to `va` has met a failed channel's line, of an entry that its walk reads or its own: the line is poisoned for good (R441, R445). -/
def markDead (s : State) (holder did va : Nat) : State :=
  if s.health.deadCh.isEmpty then s
  else
    let t := if (tlbFind s holder did va).isSome then s else walkMark s did va (domOf s did).troot walkLevels
    match translate s holder did va with
    | .ok (pa, _) => foundDead t pa 1 did
    | .error _ => t

/-- The holder has a translation of the address, or can walk for one now (R262). -/
def walkReady (s : State) (holder did va : Nat) : Bool :=
  !inInterval s.gtc || (tlbFind s holder did va).isSome || walkServed s va (domOf s did).troot walkLevels

/-- The holder keeps the translation it used (R246); a walk is charged to the DID (R468). DEDUCED: log entry 84. -/
def tlbKeep (s : State) (holder did va : Nat) : State :=
  match tlbFind s holder did va with
  | some _ => s
  | none => match walkFrom s va (domOf s did).troot walkLevels with
    | .ok (ppn, size, perm) => { chargeEnergy s did 1 with tlb := s.tlb ++ [⟨holder, did, (domOf s did).gen, alignDown va size, size, ppn, perm⟩] }
    | .error _ => s

/-- The host port by which a DID reaches host memory (R451, R459): HPORT when a logical device of the DID is bound there, else the other. -/
def hostPort (s : State) (d : Nat) : Option Nat :=
  let bound (p : Nat) : Bool := s.host.ld.any (fun e => e.1 / 16 == p && e.2 == d)
  let p := (domOf s d).hport
  if bound p then some p else if bound (1 - p) then some (1 - p) else none

/-- Key of byte a of the DRAM of another package, by its id (R451): the same byte for every window that names the package. -/
def peerKey (pkg a : Nat) : Nat := 2 ^ 53 + pkg * 2 ^ 40 + a

/-- Key of byte a of the memory of the host at a port (R451). -/
def hostKey (port a : Nat) : Nat := 2 ^ 53 + (4096 + port) * 2 ^ 40 + a

/-- The key names memory beyond the package (R451). -/
def isFar (k : Nat) : Bool := decide (2 ^ 53 ≤ k)

/-- The package, or 4096 + the host port, that a key beyond the package names. -/
def farPkg (k : Nat) : Nat := (k - 2 ^ 53) / 2 ^ 40

/-- The key names the memory of a host. -/
def isHost (k : Nat) : Bool := isFar k && decide (4096 ≤ farPkg k)

/-- A write goes to the scratchpad of another core: no memory, and nothing beyond the package (R184). -/
def isSpadKey (k : Nat) : Bool := decide (2 ^ 48 ≤ k ∧ k < 2 ^ 49)

/-- Memory of another package: traffic to it is held at the ports in a major slot (R262). -/
def isPeer (k : Nat) : Bool := isFar k && !isHost k

/-- The checks of a translated access of `n` bytes at `va` (R93, R229, R235, R451, R453): the physical address, or the cause and TVAL.
`far` says whether the access may name memory beyond the package, which is named by its key. -/
def checkVa (s : State) (holder did : Nat) (va : Nat) (need : Need) (far : Bool) : Except (Cause × Word) Nat :=
  match translate s holder did va with
  | .error e => .error e
  | .ok (pa, perm) =>
    if bits pa 47 40 = 0 then
      if !namesDram pa then .error (.xlate, w64 va)
      else if !permits perm need then .error (.prot, w64 va)
      else if !mayReach s did pa then .error (.domain, rangeDescriptor s pa)
      else .ok pa
    else if !far then .error (.xlate, w64 va)
    else if bits pa 47 40 = 0xFF then
      match hostPort s did with
      | none => .error (.xlate, w64 va)
      | some p => if !permits perm need then .error (.prot, w64 va) else .ok (hostKey p (bits pa 39 0))
    else
      let win := kget s.peers (did * 256 + bits pa 47 40) 0
      if wbits win 63 63 = 0 then .error (.xlate, w64 va)
      else if !permits perm need then .error (.prot, w64 va)
      else if (need == .write || need == .both) && wbits win 62 62 == 0 then .error (.prot, w64 va)
      else .ok (peerKey (wbits win 43 32) (bits pa 39 0))

/-- The address lies in translated memory (R25). -/
def isTranslated (a : Word) : Bool := decide (a.toNat < 2 ^ 56)

/-- The address lies in the local scratchpad window (R25). -/
def isLocalSpad (a : Word) : Bool := decide (0xFFFFFFFFFFFC0000 ≤ a.toNat)

/-- The address lies in the device windows (R25). -/
def isDevice (a : Word) : Bool := decide (0xFF00000000000000 ≤ a.toNat ∧ a.toNat < 0xFFFFFFFFFFFC0000)

/-- The window of a device address: its number and the offset within it. -/
def windowOf (a : Word) : Nat × Nat := (wbits a 55 32, wbits a 31 0)

/-- Only DID 0 may access the window at all, PRIV ranking first (R420, R452, R457, R461). DEDUCED: log entry 36. -/
def privWindow (w o : Nat) : Bool :=
  w == 2 || w == 3 || w == 4 || w == 6 || w == 9 || w == 0xB || (w == 0xA && decide (0x100 ≤ o))

/-- An access of a device window that is no LD.D and no ST.D, or at an undefined place: XLATE, PRIV first where DID 0 alone may access (R25, R29, R420). -/
def devOther (did : Nat) (a : Word) : Cause × Word :=
  let (w, o) := windowOf a
  if privWindow w o && did != 0 then (.priv, a) else (.xlate, a)

/-- A store that is no ST.D at a device window: PROT where the window takes no store at all (R242, R448, R468), else as any other access. -/
def storeOther (did : Nat) (a : Word) : Cause × Word :=
  let (w, o) := windowOf a
  if ((w == 1 || w == 8) && decide (o < 0x540)) || (w == 5 && decide (0x10000 ≤ o ∧ o < 0x18000)) then (.prot, a) else devOther did a

/-- The scratchpad of a core may be used by a DID at `n` bytes from offset o: none, or the DOMAIN trap (R26, R419). -/
def checkSpad (s : State) (c d o n : Nat) : Option (Cause × Word) :=
  ((upto (o / 2 ^ 14) ((o + n - 1) / 2 ^ 14 - o / 2 ^ 14 + 1)).find? (fun b => !bit (domCore s c d).spbank b)).map
    (fun b => (.domain, descriptor (bankHolder s c b) c b 0x02))

/-- A scratchpad bank still waits to be zeroed for the DID that is its new holder: what the old holder has issued goes on (R421). -/
def spadBusy (s : State) (c o n d : Nat) : Bool :=
  (coreOf s c).handover.any (fun h => h.2.1 == d && decide (o / 2 ^ 14 ≤ h.1 ∧ h.1 ≤ (o + n - 1) / 2 ^ 14))

/-- The same for a command or write with number `id` that has been issued already: one from before the bank's change goes on (R421). -/
def spadWaits (s : State) (c o n d id : Nat) : Bool :=
  (coreOf s c).handover.any (fun h => h.2.1 == d && decide (h.2.2 ≤ id) && decide (o / 2 ^ 14 ≤ h.1 ∧ h.1 ≤ (o + n - 1) / 2 ^ 14))

end Sys2Proof.Machine
end

