-- ==== Sys2Proof/Machine/Ops.lean ====
section
/-! DEFINITION. The operations every instruction and event is written with: strands, device accesses to memory, regions and tasks, save
areas, the end of a strand, taking an exception and returning from one, and the issue of an instruction. -/

namespace Sys2Proof.Machine

/-! ### Strands -/

/-- The state with the strand in turn changed. -/
def updMe (s : State) (f : Strand → Strand) : State := { s with me := f s.me }

/-- The state with a strand changed, by key, in its place or in a migration packet. -/
def updStrand (s : State) (key : Nat) (f : Strand → Strand) : State :=
  if s.live && s.me.key == key then { s with me := f s.me }
  else if s.packets.any (fun p => p.1.key == key) then
    { s with packets := mapIf (fun p => p.1.key == key) (fun p => (f p.1, p.2)) s.packets }
  else { s with others := mapIf (fun t => t.key == key) f s.others }

/-- The strands that wait in MBWAIT for the share of a DID on a core are released for good: it has held a message since (R199). -/
def callWaiters (s : State) (c d : Nat) : State :=
  { s with others := mapIf (fun t => t.wait == .mbwait && t.core == c && t.did == d) (fun t => { t with wkey := 1 }) s.others }

/-- The holder of translations a strand uses (R246): its core, or its bank core. -/
def holderOf (t : Strand) : Nat :=
  match t.seat with
  | .bank ch _ => 4096 + ch
  | _ => t.core

/-- The DID under which a strand's region and save areas stand: its own, or the outermost caller's inside a gate. DEDUCED: log entry 49. -/
def homeDid (t : Strand) : Nat := (t.gates.head?.map Prod.snd).getD t.did

/-- The strand is seated. -/
def seated (t : Strand) : Bool := t.seat != .none && !t.dead

/-- The register mode of a strand: that of its core, M16 on a bank core (R14, R396). -/
def modeOfStrand (s : State) (t : Strand) : Mode :=
  match t.seat with
  | .bank _ _ => .m16
  | _ => (coreOf s t.core).mode

/-- A scalar register of the strand in turn. -/
def sreg (s : State) (r : Nat) : Word := s.me.s.getD r 0

/-- A scalar register of the strand in turn written; a token register written no longer carries Tc (R354). -/
def setSreg (s : State) (r : Nat) (v : Word) : State :=
  updMe s (fun t => { t with s := t.s.setIfInBounds r v, tc := kdel t.tc r })

/-- Predicate bit n; P[31] reads 1 (R15). -/
def pbit (s : State) (n : Nat) : Bool := n == 31 || s.me.p.getLsbD n

/-- Predicate bit n written; a write to P[31] is discarded (R15). -/
def setPbit (s : State) (n : Nat) (b : Bool) : State :=
  if n = 31 then s
  else updMe s (fun t => { t with p := if b then t.p ||| BitVec.ofNat 32 (2 ^ n) else t.p &&& ~~~ BitVec.ofNat 32 (2 ^ n) })

/-- A vector register of the strand in turn. -/
def vreg (s : State) (r : Nat) : VWord := s.me.v.getD r 0

/-- A vector register of the strand in turn written. -/
def setVreg (s : State) (r : Nat) (v : VWord) : State := updMe s (fun t => { t with v := t.v.setIfInBounds r v })

/-- Clock := max(Clock, t). -/
def raiseClock (s : State) (t : Nat) : State := updMe s (fun m => { m with tck := max m.tck t })

/-- STAT (R22). -/
def statOf (s : State) (t : Strand) : Word :=
  let slot := match t.seat with
    | .slot n => n
    | .handler => modeSlots (coreOf s t.core).mode - 1
    | .bank _ n => n
    | .none => 0
  w64 (b2n (t.seat == .handler) * 2 ^ 16 + slot * 2 ^ 8 + modeCode (modeOfStrand s t) * 4 + b2n t.th)

/-! ### Memory as a device agent uses it, under a DID -/

/-- The holder number of agents that keep no translations. -/
def walker : Nat := 10000

/-- The checks of a device agent's access under a DID (R93, R420): the physical address. -/
def devCheck (s : State) (d : Nat) (va : Word) (need : Need) : Except (Cause × Word) Nat :=
  if isDevice va then .error (if need == .write then storeOther d va else devOther d va)
  else if !isTranslated va then .error (.xlate, va)
  else checkVa s walker d va.toNat need false

/-- A device agent's access under a DID has failed: the lines of a failed channel that it has met are poisoned for good (R441, R445). -/
def devFailed (s : State) (d : Nat) (e : Cause × Word) : State := if e.1 == .poison && isTranslated e.2 then markDead s walker d e.2.toNat else s

/-- A doubleword or more of one line read at its home under a DID, by a device agent, at time `t` or later, with its energy (R468). DEDUCED: log entry 12. -/
def devRead (s : State) (d : Nat) (va : Word) (n t : Nat) : Except (Cause × Word) (State × Nat × Nat) :=
  match devCheck s d va .read with
  | .error e => .error e
  | .ok pa => if poisonedAt s pa n then .error (.poison, va) else .ok (homeRead (chargeEnergy s d 1) pa n t d)

/-- A store of a device agent under a DID, with its time (R268) and its energy (R468). -/
def devWrite (s : State) (d : Nat) (va : Word) (bs : List Byte) (clock : Nat) : Except (Cause × Word) (State × Nat) :=
  match devCheck s d va .write with
  | .error e => .error e
  | .ok pa => .ok (homeWrite (chargeEnergy s d 1) pa bs clock 0 4096 d)

/-- A completion word written through the DID's translation and ranges; a write that faults is dropped and counted in CWFAIL (R176),
and one whose address lies in a scratchpad window faults with XLATE. DESIGN CHOICE: log entry 116. -/
def cwWrite (s : State) (d : Nat) (va : Nat) (v clock : Nat) : State :=
  if va = 0 then s
  else match devWrite s d (w64 va) (leBytes 8 v) clock with
    | .ok (s, _) => s
    | .error e => addCnt (devFailed s d e) d 5 1

/-- A device agent's access finds what it needs in the L2, or no maintenance interval is under way (R262). -/
def devReady (s : State) (d va : Nat) : Bool :=
  !inInterval s.gtc || decide (2 ^ 56 ≤ va) || (walkReady s walker d va && (match devCheck s d (w64 va) .read with
    | .ok pa => homeReady s (pa / 64)
    | .error _ => true))

/-- A completion word (R176): `fail` is the code of the first failure. -/
def completionWord (ndone : Nat) (fail : Option Nat) : Nat :=
  match fail with
  | none => ndone % 2 ^ 32 * 2 ^ 32 + 1
  | some c => ndone % 2 ^ 32 * 2 ^ 32 + c % 2 ^ 8 * 2 ^ 8 + 2

/-! ### Regions (R163, R164) -/

/-- A region as its RCB and its ancestors give it. -/
structure RInfo where
  va     : Word
  pa     : Nat
  rcb    : List Nat
  malformed : Bool
  /-- The DID the chain names, or none for a root that inherits it. -/
  did    : Option Nat
  rootPa : Nat
  prio   : Nat
  replay : Bool
  reset  : Nat
  save   : Nat
  /-- The RCB whose USED is charged, and its budget, 0 for unlimited. -/
  charge : Word
  budget : Nat
  deriving DecidableEq, Repr

/-- An RCB has a form that R164 calls malformed. DEDUCED: log entry 20. -/
def rcbBad (r : List Nat) : Bool :=
  let f := r.getD 1 0
  bits f 7 3 != 0 || bits f 15 13 != 0 || bits f 23 19 != 0 || bits f 31 30 != 0 || bits f 63 35 != 0
    || decide (20 < bits f 12 8) || bits f 18 17 == 3 || decide (4 < bits f 34 32)
    || r.getD 0 0 % 64 != 0 || r.getD 5 0 % 64 != 0 || bits (r.getD 6 0) 63 5 != 0 || decide (16 < bits (r.getD 6 0) 4 0)
    || (r.drop 19).any (· != 0)

/-- The RCB at an address, under a DID: its physical address and its 24 doublewords. DEDUCED: log entry 12. -/
def rcbRead (s : State) (d : Nat) (va : Word) : Except (Cause × Word) (Nat × List Nat) :=
  match devCheck s d va .read with
  | .error e => .error e
  | .ok pa0 =>
    let one (i : Nat) : Except (Cause × Word) (Nat × Nat) :=
      let a := va + w64 (64 * i)
      match devCheck s d a .read with
      | .error e => .error e
      | .ok pa => if poisonedAt s pa 64 then .error (.poison, a) else .ok (pa, leVal (homeLine s (pa / 64)))
    match one 0, one 1, one 2 with
    | .ok (_, a), .ok (_, b), .ok (_, c) => .ok (pa0, (upto 0 8).map (fun i => bits a (64 * i + 63) (64 * i))
        ++ (upto 0 8).map (fun i => bits b (64 * i + 63) (64 * i)) ++ (upto 0 8).map (fun i => bits c (64 * i + 63) (64 * i)))
    | .error e, _, _ => .error e
    | _, .error e, _ => .error e
    | _, _, .error e => .error e

/-- The chain from a region to its root: at most 16 ancestors; the flag says the chain ended at a root (R164). -/
def rcbChain (s : State) (d : Nat) : Nat → Word → Except (Cause × Word) (List (Word × Nat × List Nat) × Bool)
  | 0, _ => .ok ([], false)
  | n + 1, va =>
    match rcbRead s d va with
    | .error e => .error e
    | .ok (pa, r) =>
      let p := r.getD 0 0
      if p = 0 then .ok ([(va, pa, r)], true)
      else if p % 64 ≠ 0 then .ok ([(va, pa, r)], false)
      else match rcbChain s d n (w64 p) with
        | .error e => .error e
        | .ok (l, ok) => .ok ((va, pa, r) :: l, ok)

/-- The first RCB of a chain whose inherit bit is clear. -/
def firstOwn (ch : List (Word × Nat × List Nat)) (inh : Nat) : Option (Word × List Nat) :=
  (ch.find? (fun x => !bit (x.2.2.getD 1 0) inh)).map (fun x => (x.1, x.2.2))

/-- A region resolved through its ancestors (R164). -/
def regionInfo (s : State) (d : Nat) (va : Word) : Except (Cause × Word) RInfo :=
  match rcbChain s d 17 va with
  | .error e => .error e
  | .ok (ch, ok) =>
    let fld (inh hi lo dflt : Nat) : Nat := match firstOwn ch inh with
      | some (_, r) => bits (r.getD 1 0) hi lo
      | none => dflt
    let root := ch.getLast?
    let bud := firstOwn ch 25
    .ok { va, pa := (ch.head?.map (fun x => x.2.1)).getD 0, rcb := (ch.head?.map (fun x => x.2.2)).getD [],
          malformed := !ok || ch.any (fun x => rcbBad x.2.2),
          did := (firstOwn ch 26).map (fun x => bits (x.2.getD 1 0) 12 8),
          rootPa := (root.map (fun x => x.2.1)).getD 0,
          prio := fld 24 2 0 0, replay := fld 27 16 16 0 == 1, reset := fld 28 18 17 0,
          save := match firstOwn ch 29 with
            | some (_, r) => r.getD 4 0
            | none => 0,
          charge := match bud with
            | some (a, _) => a
            | none => (root.map (fun x => x.1)).getD va,
          budget := match bud with
            | some (_, r) => r.getD 2 0
            | none => 0 }

/-- The lines of the RCBs of a region's chain can be read now (R262). -/
def chainReady (s : State) (d : Nat) : Nat → Word → Bool
  | 0, _ => true
  | n + 1, va => (upto 0 3).all (fun i => devReady s d (va + w64 (64 * i)).toNat) && (match rcbRead s d va with
    | .error _ => true
    | .ok (_, r) => r.getD 0 0 == 0 || r.getD 0 0 % 64 != 0 || chainReady s d n (w64 (r.getD 0 0)))

/-- What a region says of itself can be read now: no line of its chain stalls in a maintenance interval (R262). -/
def regionReadable (s : State) (d : Nat) (va : Word) : Bool := !inInterval s.gtc || chainReady s d 17 va

/-- The Maltsters' record of a region, by the physical address of its RCB. -/
def regionRec (s : State) (pa : Nat) : Option Region := s.regions.find? (fun r => r.pa == pa)

/-- The state with a region's record changed. -/
def updRegion (s : State) (pa : Nat) (f : Region → Region) : State :=
  { s with regions := mapIf (fun r => r.pa == pa) f s.regions }

/-- STATUS written for a region, when it changes (R167). DEDUCED: log entry 47. -/
def writeStatus (s : State) (d : Nat) (va : Word) (st cause prio : Nat) : State :=
  let v := d * 2 ^ 24 + prio * 2 ^ 16 + cause * 2 ^ 8 + st
  match devCheck s d (va + 0x90) .write with
  | .error _ => s
  | .ok pa =>
    if homeVal s pa 8 = v % 2 ^ 64 then s
    else match devWrite s d (va + 0x90) (leBytes 8 v) 0 with
    | .ok (s, _) => s
    | .error _ => s

/-- A region stops with a cause (R167): STATE 5 and CAUSE stay as the first failure left them until the region is revived. -/
def failStatus (s : State) (d : Nat) (va : Word) (pa cause prio : Nat) : State :=
  let stopped := (regionRec s pa).any (fun r => r.failed)
  let s := updRegion s pa (fun r => { r with failed := true, ready := none, boost := 0 })
  if stopped then s else writeStatus s d va 5 cause prio

/-- The budget that a region is under: as the Maltster has read it last, or as the RCB gives it while no Maltster knows the region (R172). DEDUCED: log entry 42. -/
def heldBudget (s : State) (ri : RInfo) : Nat :=
  match regionRec s ri.pa with
  | some r => r.budget
  | none => ri.budget

/-- A region is charged core-cycles: added to USED of the RCB it charges to; reaching BUDGET exhausts it (R172). -/
def chargeRegion (s : State) (d : Nat) (va : Word) (n : Nat) : State :=
  if va = 0 then s
  else match regionInfo s d va with
    | .error e => devFailed s d e
    | .ok ri =>
      match devRead s d (ri.charge + 0x18) 8 0 with
      | .error e => devFailed s d e
      | .ok (s, used, _) =>
        let used' := (used + n) % 2 ^ 64
        let s := match devWrite s d (ri.charge + 0x18) (leBytes 8 used') 0 with
          | .ok (s, _) => s
          | .error _ => s
        if heldBudget s ri == 0 || decide (used' < heldBudget s ri) || (regionRec s ri.pa).any (fun r => r.failed) then s
        else writeStatus (updRegion s ri.pa (fun r => { r with ready := none, boost := 0 })) d va 4 0 ri.prio

/-- The DID a region is bound to: the one its chain names, or the one its root was bound to (R164). DEDUCED: log entry 45. -/
def boundDid (s : State) (ri : RInfo) : Option Nat :=
  match ri.did with
  | some d => some d
  | none => kget? s.bound ri.rootPa

/-- The strand's seated cycles since the last charge go to its region and to SLOTCYC (R172, R468). -/
def chargeStrand (s : State) (t : Strand) : State :=
  let n := s.gtc - t.chargedAt
  let s := addEnergy s t.did 3 n
  let s := chargeEnergy s t.did 0
  let s := if t.gates.isEmpty then chargeRegion s t.did t.region n
    else chargeRegion s ((t.gates.head?.map Prod.snd).getD t.did) t.region n
  updStrand s t.key (fun t => { t with chargedAt := s.gtc })

/-- USED of a region, or of the ancestor it charges to, has reached its budget (R172). DEDUCED: log entry 42. -/
def exhaustedInfo (s : State) (d : Nat) (ri : RInfo) : Bool :=
  heldBudget s ri != 0 && (match devCheck s d (ri.charge + 0x18) .read with
    | .ok pa => decide (heldBudget s ri ≤ homeVal s pa 8)
    | .error _ => false)

/-- The region of a strand is exhausted (R172). -/
def regionExhausted (s : State) (d : Nat) (va : Word) : Bool :=
  match regionInfo s d va with
  | .ok ri => exhaustedInfo s d ri
  | .error _ => false

/-! ### Pending work and STATUS (R166, R167) -/

/-- Launch records of a region (R170, R174). -/
def recordsOf (s : State) (d : Nat) (va : Word) : List Record := s.records.filter (fun r => r.did == d && r.pkt.getD 4 0 == va.toNat)

/-- The task of a region's queue entry being run, if it has gangs still to send. -/
def curOpen (s : State) (r : Region) : Bool :=
  (r.cur.bind (fun i => s.tasks.find? (fun t => t.id == i))).any (fun t => !t.allSent)

/-- The region has pending work (R166): a task with gangs to send out, a published entry that can be taken, or a launch record. A published entry behind a queue task whose
gangs have all gone out is none, since entries are taken one at a time (R165): the region then is running, and does not age. DEDUCED: log entry 81. -/
def pendingWork (s : State) (r : Region) : Bool :=
  curOpen s r || (r.cur.isNone && decide (r.ndone < r.pub)) || !(recordsOf s r.did r.addr).isEmpty

/-- A region that has not failed is ready (R166). -/
def regionReady (s : State) (r : Region) (ri : RInfo) : Bool :=
  pendingWork s r && !exhaustedInfo s r.did ri && r.depsOk && (domOf s r.did).pstate != 2

/-- STATE of a region that has not failed (R167). -/
def regionState (s : State) (r : Region) (ri : RInfo) : Nat :=
  if exhaustedInfo s r.did ri then 4 else if regionReady s r ri then 2 else if pendingWork s r then 1
  else if s.tasks.any (fun t => t.did == r.did && t.region == r.addr) then 3 else 0

/-- A region that has not failed takes, or leaves, its place among the ready ones, and STATUS says how it stands (R166, R167, R171). DEDUCED: log entry 47. -/
def markRegion (s : State) (r : Region) (ri : RInfo) : State :=
  let st := regionState s r ri
  let ready := regionReady s r ri
  let s := if ready then
      (if r.ready.isNone then { updRegion s r.pa (fun r => { r with ready := some s.gtc, rot := s.nextId }) with nextId := s.nextId + 1 } else s)
    else updRegion s r.pa (fun r => { r with ready := none, boost := 0 })
  writeStatus s ((boundDid s ri).getD r.did) r.addr st 0 (min 7 (ri.prio + (if ready then r.boost else 0)))

/-! ### Completion of tasks (R165, R176, R435) -/

/-- Bytes at a key, wherever they are kept: a line's home, or plain storage. -/
def anyVal (s : State) (k n : Nat) : Nat := if k < 2 ^ 40 then homeVal s k n else memVal s.mem k n

/-- A free reservation is granted to the waiter at its head, with the current value at max(c, wts, lo), which the line's rts takes (R207 to R209), once the home can read
that value (R262); host memory takes no logical time (R454). -/
def grantNext (s : State) (pa lo : Nat) : State :=
  match kget? s.resv pa with
  | none => s
  | some q =>
    match q.holder, q.waiters with
    | none, [] => { s with resv := kdel s.resv pa }
    | none, (k, c) :: ws =>
      if !isFar pa && !homeReady s (pa / 64) then s
      else
      let x := timesOf s (pa / 64)
      let tg := if isHost pa then 0 else max (max c x.wts) lo
      { setTimes s (pa / 64) x.wts (max x.rts tg) with resv := kset s.resv pa ⟨some k, ws, some (anyVal s pa 8, tg)⟩ }
    | some _, _ => s

/-- A holder gives its reservation up: the next waiter is granted at a time of at least `lo` (R208, R209). -/
def resvRelease (s : State) (pa key lo : Nat) : State :=
  match kget? s.resv pa with
  | none => s
  | some q => if q.holder = some key then grantNext { s with resv := kset s.resv pa { q with holder := none, grant := none } } pa lo else s

/-- The strand is taken out of every queue it stands in: reservations, run queues, requests, shootdowns. -/
def leaveQueues (s : State) (key : Nat) : State :=
  { s with
    resv := s.resv.map (fun e => (e.1, { e.2 with
      holder := if e.2.holder = some key then none else e.2.holder
      grant := if e.2.holder = some key then none else e.2.grant
      waiters := e.2.waiters.filter (fun w => w.1 != key) }))
    cores := s.cores.map (fun e => (e.1, { e.2 with
      runq := e.2.runq.filter (fun r => r != .saved key && r != .migrated key)
      granted := e.2.granted.filter (· != key)
      asking := e.2.asking.filter (· != key)
      qwait := e.2.qwait.map (fun w => (w.1, w.2.filter (· != key))) }))
    banks := s.banks.map (fun e => (e.1, { e.2 with
      runq := e.2.runq.filter (fun r => r != .saved key && r != .migrated key)
      granted := e.2.granted.filter (· != key)
      asking := e.2.asking.filter (· != key) }))
    shoots := s.shoots.filter (fun x => x.key != key)
    parked := kdel s.parked key
    packets := s.packets.filter (fun x => x.1.key != key) }

/-- A request for a run-queue entry, granted or not, is withdrawn (R187). -/
def withdraw (s : State) (key : Nat) : State :=
  { s with
    cores := s.cores.map (fun e => (e.1, { e.2 with granted := e.2.granted.filter (· != key), asking := e.2.asking.filter (· != key) }))
    banks := s.banks.map (fun e => (e.1, { e.2 with granted := e.2.granted.filter (· != key), asking := e.2.asking.filter (· != key) })) }

/-- The reservation of a doubleword that has no holder passes to its next waiter (R207, R210). -/
def grantDue (s : State) (pa : Nat) : State := if (kget? s.resv pa).any (fun q => q.holder.isNone) then grantNext s pa 0 else s

/-- Reservations that have lost their holder pass to their next waiters, without a write (R210): the rule gives no clock of a strand that has failed or been reset, so that
the grant takes that of the request and the line's wts alone. DESIGN CHOICE: log entry 111. -/
def grantAll (s : State) : State :=
  (s.resv.filter (fun e => e.2.holder.isNone)).foldl (fun s e => grantNext s e.1 0) s

/-- A context is freed (R332). -/
def freeCtx (x : Ctx) : Ctx := { Ctx.reset with ser := x.ser }

/-- What the end of a strand leaves of a context of its own: a bound stream is freed (R181, R337), one with accepted pushes once the device has written
them (R315); a stream that is DONE is freed (R319). DEDUCED: log entry 76. -/
def ctxAfterOwner (x : Ctx) : Ctx :=
  if x.state = 2 && !x.pushes.isEmpty then { x with recalled := true }
  else if x.state == 2 || x.state == 7 then freeCtx x
  else x

/-- The contexts of a strand that ends (R181, R319): those it owns, on whichever core they are. -/
def freeBound (s : State) (t : Strand) : State :=
  { s with cores := s.cores.map (fun e => (e.1, { e.2 with
      ctxs := e.2.ctxs.map (fun x => (x.1, if x.2.okey == t.key then ctxAfterOwner x.2 else x.2)) })) }

/-- A port of the package. -/
def portOf (s : State) (p : Nat) : Port := kget s.ports p .reset

/-- The port that the hash of source, destination and line chooses (R457): the first in service from it on. DESIGN CHOICE: log entry 113. -/
def hashPath (s : State) (dst line : Nat) : Nat :=
  let h := Config.portHash s.pkgid dst line % 144
  (((List.range 144).map (fun i => (h + i) % 144)).find? (fun p => (portOf s p).up)).getD h

/-- The port of a message or an answer for a line at a package that is not acknowledged yet (R457). -/
def openPath (s : State) (dst line : Nat) : Option Nat :=
  match s.outbox.find? (fun m => m.dst == dst && m.msg.pa / 64 == line) with
  | some m => some m.path
  | none => (s.replies.find? (fun r => r.pkg == dst && r.line == line)).map PeerReply.path

/-- The port over which a message for a line goes to a package (R457): all of one line take one path, so those not acknowledged yet keep theirs, while it is in service. -/
def pathOf (s : State) (dst line : Nat) : Nat := ((openPath s dst line).filter (fun p => (portOf s p).up)).getD (hashPath s dst line)

/-- Each message and answer whose port is out of service takes another path (R457). -/
def rerouted (s : State) : State :=
  { s with
    outbox := s.outbox.map (fun m => if (portOf s m.path).up then m else { m with path := hashPath s m.dst (m.msg.pa / 64) })
    replies := s.replies.map (fun r => if (portOf s r.path).up then r else { r with path := hashPath s r.pkg r.line }) }

/-- A message for a line at a key of another package's memory leaves, on behalf of a DID (R286, R452, R457): its header names the rights it has there, a clock and the
ERA, and it is kept until the other end acknowledges it. Its flits are charged (R468). -/
def sendOut (s : State) (did clock rdid key : Nat) (op : RemoteOp) : State :=
  let pkg := farPkg key
  let seq := kget s.seqs pkg 0
  let m : RemoteMsg := { src := s.pkgid, seq, rdid, clock, era := s.era, pa := key % 2 ^ 40, op }
  { chargeEnergy s did 2 with seqs := kset s.seqs pkg ((seq + 1) % 2 ^ 32), outbox := s.outbox ++ [⟨pkg, did, m, pathOf s pkg (m.pa / 64)⟩] }

/-- The rights that the lowest valid window of a DID gives it at a package (R452). -/
def windowRdid (s : State) (d pkg : Nat) : Nat :=
  (((List.range 256).map (fun w => kget s.peers (d * 256 + w) 0)).find? (fun e => wbits e 63 63 == 1 && wbits e 43 32 == pkg)).elim 0 (fun e => wbits e 52 48)

/-- A strand that ends gives up a reservation that it holds at another package by a message, as RLS does (R209, R210, R286). DEDUCED: log entry 69. -/
def farRelease (s : State) (t : Strand) : State :=
  match t.rsv with
  | some (pa, _) => if isPeer pa then sendOut s t.did t.tck (windowRdid s t.did (farPkg pa)) pa (.rls t.sid) else s
  | none => s

/-- A strand is gone: it leaves every queue, its slot empties and its monitor and streams go; only writes on their way keep its record (R181, R210, R216). DEDUCED: log entry 51. DEDUCED: log entry 69. -/
def removeStrand (s : State) (key : Nat) : State :=
  match strandOf s key with
  | none => s
  | some t =>
    let s := freeBound (farRelease s t) t
    let s := grantAll (leaveQueues s key)
    let t := { t with seat := .none, wait := .none, mon := none, rsv := none, load := none, vload := none, async := [], did := homeDid t, gates := [], arr := none,
                      pend := [], vpend := [], fencex := [], pre := none, msg := none, dead := true, z := Vector.replicate 8 none }
    let keep := if t.posted.isEmpty then [] else [t]
    if s.live && s.me.key == key then { s with me := .reset, live := false, others := s.others ++ keep }
    else { s with others := s.others.filter (fun x => x.key != key) ++ keep }

/-- A task's record changed. -/
def updTask (s : State) (id : Nat) (f : Task → Task) : State :=
  { s with tasks := mapIf (fun t => t.id == id) f s.tasks }

/-- How a region stands once work of it has ended (R167). -/
def markAfter (s : State) (ri : RInfo) : State :=
  match regionRec s ri.pa with
  | some r => if r.failed || ri.malformed then s else markRegion s r ri
  | none => s

/-- A task that has completed or failed is reported (R165, R167, R176): HEAD, DONE, STATUS and the completion word, and its record goes. -/
def reportTask (s : State) (t : Task) : State :=
  let s := cwWrite s t.did t.cword (completionWord t.retired t.fail) t.clk
  let s := { s with tasks := s.tasks.filter (fun x => x.id != t.id), records := s.records.filter (fun r => r.task != t.id || t.id == 0) }
  match regionInfo s t.did t.region with
  | .error e => devFailed s t.did e
  | .ok ri =>
    match t.entry with
    | none => markAfter s ri
    | some i =>
      match t.fail with
      | some c => failStatus (updRegion s ri.pa (fun r => { r with cur := none })) t.did t.region ri.pa c ri.prio
      | none =>
        let (s, th) := match devWrite s t.did (t.region + 0x38) (leBytes 8 (i + 1)) t.clk with
          | .ok (s, w) => (s, w)
          | .error _ => (s, t.clk)
        let (s, td) := match devWrite s t.did (t.region + 0x88) (leBytes 8 (i + 1)) th with
          | .ok (s, w) => (s, w)
          | .error _ => (s, th)
        markAfter (updRegion s ri.pa (fun r => { r with cur := none, tDone := td, ndone := i + 1 })) ri

/-- The gangs of a task that stand in a run queue leave it (R435). -/
def dropGangs (s : State) (task : Nat) : State :=
  { s with cores := s.cores.map (fun e => (e.1, { e.2 with runq := e.2.runq.filter (fun x => match x with
      | .gang _ _ _ _ k => k != task
      | .saved _ => true
      | .migrated _ => true) })) }

/-- A strand's seated cycles are charged as it ends (R172). -/
def chargeSeated (s : State) (t : Strand) : State := if seated t then chargeStrand s t else s

/-- The strands of a task end: those at an instruction boundary at once; one in the middle of an instruction once that has completed, so that a strand that
waits in it goes on waiting (R223, R435), or at once in a reset (R436). Their cycles are charged (R172), and its gangs that are not seated yet never are. -/
def endStrandsOf (s : State) (task : Nat) (reset : Bool) : State :=
  dropGangs (((strands s ++ travellers s).filter (fun t => t.task == task && !t.dead)).foldl (fun s t =>
    if reset || t.wait == .none then removeStrand (chargeSeated s t) t.key
    else updStrand s t.key (fun t => { t with ending := some (t.pc, t.ydl, t.th) })) s) task

/-- What follows for a region once work of it has failed in a reset of the region or of its partition (R438): replayed from DONE, or left failed. DEDUCED: log entry 43. -/
def regionAfter (s : State) (d : Nat) (va : Word) (cause : Nat) (lost : List Record) : State :=
  match regionInfo s d va with
  | .error e => devFailed s d e
  | .ok ri =>
    if ri.replay then
      let s := match devRead s d (va + 0x88) 8 0 with
        | .ok (s, n, _) => (match devWrite s d (va + 0x38) (leBytes 8 n) 0 with
          | .ok (s, _) => updRegion s ri.pa (fun r => { r with ndone := n })
          | .error e => devFailed s d e)
        | .error e => devFailed s d e
      let s := updRegion s ri.pa (fun r => { r with failed := false, cur := none, ready := none })
      let s := writeStatus s d va 0 0 ri.prio
      { s with records := s.records ++ lost }
    else failStatus (updRegion s ri.pa (fun r => { r with cur := none })) d va ri.pa cause ri.prio

/-- The launch records of a region as they are appended again, whole and with their original counts (R438): those not begun, and those whose task runs. One whose count
could not be read has no count yet: it is to be read again. -/
def lostRecords (s : State) (d : Nat) (va : Word) : List Record :=
  ((recordsOf s d va).filter (fun r => r.task == 0))
    ++ ((s.tasks.filter (fun t => t.did == d && t.region == va && t.entry.isNone)).map (fun t =>
      { id := t.id, die := t.die, did := t.did, dom := t.dom, pkt := t.pkt, n := t.addr.getD t.total, indirect := t.addr.isSome, tl := t.tl,
        count := if t.addr.isSome then none else some t.total, gidx := 0, task := 0 }))

/-- The time of the launch-word read that has published queue entry `i` (R169). -/
def pubTime (r : Region) (i : Nat) : Nat := ((r.pubs.find? (fun p => decide (i < p.1))).map Prod.snd).getD 0

/-- The address of queue entry `i` of a region (R165). -/
def entryVa (ri : RInfo) (i : Nat) : Word := w64 (ri.rcb.getD 5 0 + i % 2 ^ bits (ri.rcb.getD 6 0) 4 0 * 64)

/-- A published queue entry that is not taken fails with a cause: its completion word, above the times of its publication and of its read, if it names one that is aligned
(R165, R176). -/
def entryFail (s : State) (r : Region) (ri : RInfo) (d c i : Nat) : State :=
  if ri.rcb.getD 5 0 % 64 != 0 then s
  else match devRead s r.did (entryVa ri i) 64 0 with
    | .ok (s, v, t) => if bits v 511 448 % 8 == 0 then cwWrite s d (bits v 511 448) (completionWord 0 (some c)) (max t (pubTime r i)) else s
    | .error e => devFailed s r.did e

/-- The queue entries of a region that are published and not taken, no more than its ring holds (R165). -/
def untaken (r : Region) (ri : RInfo) : List Nat :=
  let first := r.ndone + b2n r.cur.isSome
  upto first (min (r.pub - first) (2 ^ bits (ri.rcb.getD 6 0) 4 0))

/-- The pending queue tasks of a region fail with a cause (R435), under the DID that it is bound to (R164). -/
def failUntaken (s : State) (ri : RInfo) (c : Nat) (r : Region) : State :=
  (untaken r ri).foldl (fun s i => entryFail s r ri ((boundDid s ri).getD r.did) c i) s

/-- Every queue task and launch record of a region, running or pending, fails with one cause, by its code (R435, R436). -/
def failRegion (s : State) (d : Nat) (va : Word) (c : Nat) : State :=
  let recs := recordsOf s d va
  let lost := lostRecords s d va
  let queue := match regionInfo s d va with
    | .ok ri => (regionRec s ri.pa).map (fun r => (ri, r))
    | .error _ => none
  let s := (s.tasks.filter (fun x => x.region == va && x.did == d)).foldl (fun s x => reportTask (endStrandsOf s x.id true) { x with fail := some c }) s
  let s := (recs.filter (fun r => r.task == 0)).foldl (fun s r => cwWrite s r.did (r.pkt.getD 7 0) (completionWord 0 (some c)) r.tl) s
  let s := { s with records := s.records.filter (fun r => !(r.did == d && r.pkt.getD 4 0 == va.toNat)) }
  let s := match queue with
    | some (ri, r) => failUntaken s ri c r
    | none => s
  regionAfter s d va c lost

/-- A partition reset of a DID is asked for (R436): PSTATE becomes 2, no region of the DID is ready any more, and a further trigger joins the reset that is due. -/
def resetAsked (s : State) (d cause trig : Nat) : State :=
  if s.resets.any (fun r => r.did == d) then s
  else { updDom s d (fun b => { b with pstate := 2 }) with
    resets := s.resets ++ [⟨d, cause, trig, []⟩]
    regions := mapIf (fun r => r.did == d) (fun r => { r with ready := none, boost := 0 }) s.regions }

/-- A task has failed: its strands end, it is reported, and the RESET field of its region decides what follows (R435); a partition reset reports it itself (R437). DEDUCED: log entry 43. -/
def failTask (s : State) (t : Task) : State :=
  let ri := regionInfo s t.did t.region
  let c := t.fail.getD (causeCode .illegal)
  let scope := match ri with
    | .ok ri => ri.reset
    | .error _ => 0
  if scope = 1 then failRegion s t.did t.region c
  else if scope = 2 then resetAsked s t.did c 0
  else reportTask (endStrandsOf s t.id false) t

/-- A task completes or fails when every strand of every one of its gangs has ended, or one has failed (R176). -/
def settleTask (s : State) (id : Nat) : State :=
  match s.tasks.find? (fun t => t.id == id) with
  | none => s
  | some t =>
    if t.fail.isSome then failTask s t
    else if t.allSent && t.gangs.isEmpty then reportTask s t
    else s

/-- A strand has left its task (R176): retired, or failed with a cause, by its code. -/
def taskLeave (s : State) (t : Strand) (fail : Option Nat) : State :=
  let s := updTask s t.task (fun k =>
    let left := kget k.gangs t.gid 1 - 1
    let bad := match fail with
      | some _ => addNew k.badGangs t.gid
      | none => k.badGangs
    { k with
      gangs := if left = 0 then kdel k.gangs t.gid else kset k.gangs t.gid left
      badGangs := bad
      retired := if left = 0 && !bad.contains t.gid then k.retired + 1 else k.retired
      fail := k.fail.orElse (fun _ => fail)
      clk := max k.clk t.tck })
  let s := settleTask s t.task
  if fail.isNone then s
  else { s with resets := mapIf (fun r => r.did == homeDid t) (fun r => { r with ended := r.ended ++ [(t.sid, t.pc)] }) s.resets }

/-- The strand in turn ends: by RETIRE when `fail` is none, else with its task failed with a cause, by its code (R30, R176, R181, R399). DEDUCED: log entry 76. -/
def endMeCode (s : State) (fail : Option Nat) : State :=
  let t := s.me
  let s := chargeStrand s t
  let s := removeStrand s t.key
  taskLeave s t fail

/-- The strand in turn ends, with a cause or by RETIRE. -/
def endMe (s : State) (fail : Option Cause) : State := endMeCode s (fail.map causeCode)

/-- The strand in turn ends because a device agent's access under DID d has failed (R429, R441). -/
def endFailed (s : State) (d : Nat) (e : Cause × Word) : State := endMe (devFailed s d e) (some e.1)

/-- A clock of another package in this package's era (R286). -/
def clockIn (s : State) (era clock : Nat) : Nat :=
  if era = s.era then clock
  else if era = (s.era + 2 ^ 16 - 1) % 2 ^ 16 then clock - 2 ^ 46
  else if era = (s.era + 1) % 2 ^ 16 then clock + 2 ^ 46
  else 0

/-- A time of this package in the era of another (R286). -/
def clockOut (s : State) (era t : Nat) : Nat :=
  if era = s.era then t
  else if era = (s.era + 2 ^ 16 - 1) % 2 ^ 16 then t + 2 ^ 46
  else if era = (s.era + 1) % 2 ^ 16 then t - 2 ^ 46
  else 0

/-- A reply to a message of another package (R286, R454, R457): a message of its own, sent for the DID, whose time is in the era of the request. Its flits are charged (R468). -/
def sendReply (s : State) (pkg did era line seq value t cause tval : Nat) : State :=
  let own := kget s.seqs pkg 0
  { chargeEnergy s did 2 with
    seqs := kset s.seqs pkg ((own + 1) % 2 ^ 32)
    replies := s.replies ++ [⟨pkg, own, did, era, line, seq, value, clockOut s era t, cause, tval, pathOf s pkg line⟩] }

/-- A handler ends: its caller receives value, time, cause and TVAL, as data the AMSG_REPLY event delivers (R191, R194), in another package in that package's era
(R286, R454). Its cycles count in HCYC, and its work in ECORE (R191, R468). DEDUCED: log entry 69. -/
def endHandler (s : State) (value : Word) (cause : Nat) (tval : Word) : State :=
  let t := s.me
  let s := chargeEnergy (addEnergy s t.did 4 (s.gtc - t.chargedAt)) t.did 0
  let s := match t.caller with
    | some k => updStrand s k (fun c => { c with ends := kset (kset (kset (kset c.ends (2 ^ 65) value.toNat) (2 ^ 65 + 1) t.tck) (2 ^ 65 + 2) cause) (2 ^ 65 + 3) tval.toNat })
    | none => match t.msg with
      | some m => sendReply s m.pkg m.did m.era m.line m.seq value.toNat t.tck cause tval.toNat
      | none => s
  removeStrand s t.key

/-! ### Taking an exception, and returning from one -/

/-- Trap entry (R27): the saved pc, cause, value and ASYNC are written, TH is set, and the strand goes to TVEC. DEDUCED: log entry 70. -/
def trapEntry (s : State) (tpc : Word) (c : Cause) (asy : Bool) (tval : Word) : State :=
  updMe s (fun t => { t with
    tpc := tpc
    tcause := w64 (b2n asy * 2 ^ 8 + causeCode c)
    tval := tval
    th := true
    wait := .none
    pc := (domOf s t.did).tvec })

/-- The strand stands in no line at the queues of its core any more (R196). -/
def leaveLines (s : State) : State :=
  if (coreOf s s.me.core).qwait.any (fun w => w.2.contains s.me.key) then
    updCore s s.me.core (fun c => { c with qwait := c.qwait.map (fun w => (w.1, w.2.filter (· != s.me.key))) })
  else s

/-- What the waiting instruction has changed of its strand goes back to what it was at issue (R27). -/
def undoPre (s : State) : State :=
  match s.me.pre with
  | none => s
  | some p => updMe s (fun t => { t with tck := p.tck, fencex := p.fencex, floors := p.floors, pre := none })

/-- A migration that has not left is given up (R187): the strand asks for no run-queue entry and holds none. -/
def stayHere (s : State) : State :=
  if s.me.dest.isSome then updMe (withdraw s s.me.key) (fun t => { t with dest := none }) else s

/-- A strand takes a cause: a handler ends with it (R194); a double trap or a missing vector ends the strand (R30, R426); else trap entry. DEDUCED: log entry 70. -/
def takeTrap (s : State) (tpc : Word) (c : Cause) (asy : Bool) (tval : Word) : State :=
  let s := stayHere (undoPre (leaveLines s))
  let s := if c == .staleXlate then
      updMe s (fun t => { t with stale := t.stale.filter (fun r => !decide (r.1 ≤ tval.toNat ∧ tval.toNat < r.2)) })
    else s
  let s := if c == .poison && isTranslated tval then markDead s (holderOf s.me) s.me.did tval.toNat else s
  if s.me.seat == .handler then endHandler s 0 (causeCode c) tval
  else if s.me.th then endMe s (some c)
  else if (domOf s s.me.did).tvec = 0 then endMe s (some c)
  else trapEntry s tpc c asy tval

/-- Return from the trap handler (R36). -/
def trapReturn (s : State) : State := updMe s (fun t => { t with pc := t.tpc, th := false })

/-! ### Save areas (R427 to R429) -/

/-- The pool of a region: VA of the header, 64-byte aligned. -/
def poolOf (s : State) (d : Nat) (region : Word) : Option Nat :=
  if region = 0 then none
  else match regionInfo s d region with
    | .ok ri => if ri.save = 0 then none else some (alignDown ri.save 64)
    | .error _ => none

/-- One of the free areas of a pool: the spec does not say which (R179, R427). DESIGN CHOICE: log entry 83. -/
def pickArea (s : State) (pool : Nat) : List Nat → Option Nat
  | [] => none
  | [i] => some i
  | l => some (l.getD (Config.areaChoice s.gtc pool % l.length) 0)

/-- The base of a pool's areas, 1 KiB aligned: the low bits of AREAS are not used (R427). DEDUCED: log entry 49. -/
def areasBase (v : Nat) : Nat := alignDown (bits v 63 0) 1024

/-- An area is taken from a pool in one step at the header's home (R427), under the DID of the region: the state, its VA and its index, or none when none is free. DEDUCED: log entry 49. -/
def takeArea (s : State) (d : Nat) (region : Word) (clock : Nat) : Except (Cause × Word) (Option (State × Nat × Nat)) :=
  match poolOf s d region with
  | none => .ok none
  | some pool =>
    match devRead s d (w64 pool) 24 0 with
    | .error e => .error e
    | .ok (s, v, _) =>
      let base := areasBase v
      let n := bits v 76 64
      let free := bits v 140 128
      if free = 0 then .ok none
      else
        let use (i : Nat) : Option (State × Nat) := match devRead s d (w64 (pool + 0x40 + i / 64 * 8)) 8 0 with
          | .ok (s, u, _) => some (s, u)
          | .error _ => none
        match pickArea s pool ((List.range n).filter (fun i => match use i with
          | some (_, u) => !bit u (i % 64)
          | none => false)) with
        | none => .ok none
        | some i => match use i with
          | none => .ok none
          | some (s, u) =>
            match devWrite s d (w64 (pool + 0x40 + i / 64 * 8)) (leBytes 8 (u + 2 ^ (i % 64))) clock with
            | .error e => .error e
            | .ok (s, _) => match devWrite s d (w64 (pool + 0x10)) (leBytes 8 (free - 1)) clock with
              | .error e => .error e
              | .ok (s, _) => .ok (some (s, base + 17408 * i, i))

/-- The USE words that the taking of an area has read in lines of a failed channel: those are poisoned for good (R441, R445). -/
def markUse (s : State) (d : Nat) (region : Word) : State :=
  if s.health.deadCh.isEmpty then s
  else match poolOf s d region with
    | none => s
    | some pool => match devRead s d (w64 pool) 24 0 with
      | .error e => devFailed s d e
      | .ok (_, v, _) =>
        if bits v 140 128 = 0 then s
        else (upto 0 ((bits v 76 64 + 63) / 64)).foldl (fun s j => match devCheck s d (w64 (pool + 0x40 + 8 * j)) .read with
          | .ok pa => foundDead s pa 8 d
          | .error e => devFailed s d e) s

/-- Whether a save area of the region is free (R179). -/
def areaFree (s : State) (d : Nat) (region : Word) : Bool :=
  match takeArea s d region 0 with
  | .ok (some _) => true
  | _ => false

/-- An area is given back to its pool (R427, R429). -/
def freeArea (s : State) (d : Nat) (region : Word) (area : Nat) : State :=
  match poolOf s d region with
  | none => s
  | some pool =>
    match devRead s d (w64 pool) 24 0 with
    | .error e => devFailed s d e
    | .ok (s, v, _) =>
      let i := (area - areasBase v) / 17408
      match devRead s d (w64 (pool + 0x40 + i / 64 * 8)) 8 0 with
      | .error e => devFailed s d e
      | .ok (s, u, _) =>
        let s := match devWrite s d (w64 (pool + 0x40 + i / 64 * 8)) (leBytes 8 (u - bits u (i % 64) (i % 64) * 2 ^ (i % 64))) 0 with
          | .ok (s, _) => s
          | .error _ => s
        match devWrite s d (w64 (pool + 0x10)) (leBytes 8 (bits v 140 128 + 1)) 0 with
        | .ok (s, _) => s
        | .error _ => s

/-- The lines of a save area can be written and read now (R262). -/
def areaReady (s : State) (d area : Nat) : Bool :=
  !inInterval s.gtc || (upto 0 272).all (fun i => devReady s d (area + 64 * i))

/-- The header of a pool and its USE words can be read now: the words of as many areas as the header names, where one is free (R262). -/
def poolReady (s : State) (d pool : Nat) : Bool :=
  devReady s d pool && (match devCheck s d (w64 pool) .read with
    | .error _ => true
    | .ok pa =>
      let v := homeVal s pa 24
      bits v 140 128 == 0 || (upto 0 ((bits v 76 64 + 511) / 512)).all (fun i => devReady s d (pool + 0x40 + 64 * i)))

/-- Whether an area can be taken from the pool of a region is known now, and one that can be taken can be written: nothing that it needs stalls in a maintenance
interval (R262). `hd` is the DID of the region. -/
def takeReady (s : State) (hd d : Nat) (region : Word) : Bool :=
  !inInterval s.gtc || (region = 0) || (regionReadable s hd region && (poolOf s hd region).all (fun pool => poolReady s hd pool && (match takeArea s hd region 0 with
    | .ok (some (_, area, _)) => areaReady s d area
    | _ => true)))

/-- The area that holds a strand can be read and given back to the pool of the region now: the region's RCBs, the header's line and that of the area's USE bit can be
read (R262). `hd` is the DID of the region. -/
def giveReady (s : State) (hd d : Nat) (region : Word) (area : Nat) : Bool :=
  !inInterval s.gtc || (areaReady s d area && (region = 0 || regionReadable s hd region) && (poolOf s hd region).all (fun p => devReady s hd p
    && (match devCheck s hd (w64 p) .read with
      | .ok pa => devReady s hd (p + 0x40 + (area - areasBase (homeVal s pa 8)) / 17408 / 64 * 8)
      | .error _ => true)))

/-- The code of a waiting state in a save area (R428). -/
def waitCode : Wait → Nat
  | .gsync => 1 | .lrw => 2 | .barw => 3 | .mwait => 4 | .mbwait => 5 | .launch => 6 | .swait => 7
  | _ => 0

/-- The doubleword at 0x098 of a save area (R428): the address of a strand's reservation, or, of one that waits in BARW, the barrier's physical address with the low 16 bits
of its phase above it. DESIGN CHOICE: log entry 98. -/
def areaResv (t : Strand) : Nat :=
  if t.wait == .barw then t.wkey % 2 ^ 48 + t.wval % 2 ^ 16 * 2 ^ 48 else (t.rsv.map Prod.fst).getD 0

/-- The doublewords of a save area from offset 0 up to 0x0F8 (R428). -/
def areaHead (s : State) (t : Strand) : List Nat :=
  let z := (t.z.toList.zipIdx).foldl (fun acc (x : Option Nat × Nat) => acc + (x.1.getD 0xFF) * 256 ^ x.2) 0
  [t.pc.toNat,
   t.p.toNat + modeCode (modeOfStrand s t) * 2 ^ 32 + b2n t.th * 2 ^ 34 + s.era * 2 ^ 48,
   t.tck, t.h, t.sf, t.ydl,
   t.rnd.toNat, t.fmta.toNat, t.fmtb.toNat, t.fmtc.toNat, t.scla.toNat, t.sclb.toNat, t.vsh.toNat, t.migp.toNat,
   t.tcause.toNat, t.tval.toNat, t.tpc.toNat,
   t.sid + t.gid * 2 ^ 32,
   t.rank + t.gcore * 2 ^ 16 + waitCode t.wait * 2 ^ 32 + b2n t.rsv.isSome * 2 ^ 36 + b2n t.mon.isSome * 2 ^ 37 + t.gates.length * 2 ^ 40,
   areaResv t,
   (t.mon.map Prod.fst).getD 0 * 64, (t.mon.map Prod.snd).getD 0,
   t.pend.foldl (fun acc r => acc + 2 ^ r) 0,
   z, t.region.toNat, t.task] ++ (upto 0 4).map (fun i => ((t.gates.getD i (0, 0)).1)) ++ [0, 0]

/-- Pieces of bytes written one line at most at a time under a DID; the first fault stops them (R429). -/
def areaPut (s : State) (d : Nat) (clock : Nat) : List (Nat × List Byte) → Except (Cause × Word) (State × Nat)
  | [] => .ok (s, 0)
  | (a, bs) :: rest =>
    match devWrite s d (w64 a) bs clock with
    | .error e => .error e
    | .ok (s, t) => match areaPut s d clock rest with
      | .error e => .error e
      | .ok (s, t') => .ok (s, max t t')

/-- Bytes cut into pieces of 64 from an address. -/
def pieces : Nat → Nat → List Byte → List (Nat × List Byte)
  | 0, _, _ => []
  | n + 1, a, bs => if bs.isEmpty then [] else (a, bs.take 64) :: pieces n (a + 64) (bs.drop 64)

/-- A strand's state written to its save area, registers of its mode only (R428, R429). -/
def saveTo (s : State) (t : Strand) (d area : Nat) : Except (Cause × Word) (State × Nat) :=
  let m := modeOfStrand s t
  let head := (areaHead s t).flatMap (leBytes 8)
  let sregs := ((upto 0 (modeS m)).flatMap (fun i => leBytes 8 (t.s.getD i 0).toNat))
  let vregs := ((upto 0 (modeV m)).flatMap (fun i => leBytes 1024 (t.v.getD i 0).toNat))
  areaPut s d t.tck (pieces 5 area head ++ pieces 8 (area + 0x100) sregs ++ pieces 256 (area + 0x400) vregs)

/-- Doublewords read one at a time under a DID, as loads that leave their leases (R266, R429); the first fault stops them. -/
def areaGet (s : State) (d clock : Nat) : List Nat → Except (Cause × Word) (State × List Nat)
  | [] => .ok (s, [])
  | a :: rest =>
    match devRead s d (w64 a) 8 clock with
    | .error e => .error e
    | .ok (s, v, _) => match areaGet s d clock rest with
      | .error e => .error e
      | .ok (s, vs) => .ok (s, v :: vs)

/-- A stream register as a save area gives it: bound only where the context is bound to that register of that strand (R11, R312, R332). -/
def boundTo (s : State) (t : Strand) (i b : Nat) : Option Nat :=
  let x := kget (coreOf s t.core).ctxs b .reset
  if b < 64 && x.state == 2 && x.okey == t.key && x.zreg == i then some b else none

/-- The control registers with their reserved bits reading zero (R9, R17 to R23). -/
def maskCrs (t : Strand) : Strand :=
  { t with
    pc := t.pc &&& ~~~1#64
    rnd := t.rnd &&& 0xF#64
    fmta := t.fmta &&& 0xF#64
    fmtb := t.fmtb &&& 0xF#64
    fmtc := t.fmtc &&& 0xF#64
    scla := t.scla &&& 0x1FF#64
    sclb := t.sclb &&& 0x1FF#64
    vsh := t.vsh &&& 0xF3#64
    migp := t.migp &&& 3#64
    tcause := t.tcause &&& 0x1FF#64
    tpc := t.tpc &&& ~~~1#64 }

/-- A strand read back from its save area (R428, R429); registers beyond the mode it was saved in read zero (R178), times of an earlier era are those the
rebases since leave (R284), reserved bits read zero (R9). Which strand it is, its gang, what it waits for and its streams are the device's own (R11), and its times are no
later than those that the device has of it: an area that was overwritten while in use (R429) gives it no time beyond the bound of R283. A shape overwritten so is taken
with its reserved bits zero, without the test of R131; of codes overwritten so, RND.MODE 6 and 7 round as RNE, and FMTC 8 to 15 store as SX4. DESIGN CHOICE: log entry 103. -/
def restoreFrom (s : State) (t : Strand) (d area : Nat) : Except (Cause × Word) (State × Strand) :=
  match areaGet s d t.tck ((upto 0 32).map (fun i => area + 8 * i)) with
  | .error e => .error e
  | .ok (s, h) =>
    let g (i : Nat) : Nat := h.getD i 0
    let m := modeOf (bits (g 1) 33 32)
    let old (v : Nat) : Nat := v - (s.era + 2 ^ 16 - bits (g 1) 63 48) % 2 ^ 16 * 2 ^ 46
    match areaGet s d t.tck ((upto 0 (modeS m)).map (fun i => area + 0x100 + 8 * i)) with
    | .error e => .error e
    | .ok (s, sr) =>
      match areaGet s d t.tck ((upto 0 (128 * modeV m)).map (fun i => area + 0x400 + 8 * i)) with
      | .error e => .error e
      | .ok (s, vr) =>
        let vAt (i : Nat) : VWord := BitVec.ofNat 8192 (((vr.drop (128 * i)).take 128).foldr (fun x acc => x + 2 ^ 64 * acc) 0)
        .ok (s, maskCrs { t with
          pc := w64 (g 0), p := BitVec.ofNat 32 (g 1) ||| 0x80000000#32, th := bit (g 1) 34,
          tck := min t.tck (old (bits (g 2) 47 0)), h := max t.h (min t.tck (old (bits (g 3) 47 0))), sf := min t.sf (old (bits (g 4) 47 0)), ydl := bits (g 5) 13 0,
          rnd := w64 (g 6), fmta := w64 (g 7), fmtb := w64 (g 8), fmtc := w64 (g 9), scla := w64 (g 10), sclb := w64 (g 11),
          vsh := w64 (g 12), migp := w64 (g 13), tcause := w64 (g 14), tval := w64 (g 15), tpc := w64 (g 16),
          s := Vector.ofFn (fun i : Fin 64 => w64 (sr.getD i.val 0)),
          v := Vector.ofFn (fun i : Fin 16 => if i.val < modeV m then vAt i.val else 0),
          z := Vector.ofFn (fun i : Fin 8 => boundTo s t i.val (bits (g 23) (8 * i.val + 7) (8 * i.val))) })

/-- An unseated strand takes its place at the tail of the run queue of its core, or at 4096 + channel of its bank core (R177, R179), also where the queue already holds the entries
it has room for: the spec does not say what else becomes of the strand. DESIGN CHOICE: log entry 99. -/
def queueSaved (s : State) (q key : Nat) : State :=
  if 4096 ≤ q then updBank s (q - 4096) (fun b => { b with runq := b.runq ++ [.saved key] })
  else updCore s q (fun cs => { cs with runq := cs.runq ++ [.saved key] })

/-- The strand in turn is unseated (R179, R429): saved to an area of its region's pool; then at the tail of its run queue, or with that queue noted: held aside (R172),
or waiting on (R162).
A save that faults ends the strand with that cause; without a free area nothing happens. DEDUCED: log entry 46. DEDUCED: log entry 56. -/
def unseatMe (s : State) (queue : Bool) : State :=
  let t := s.me
  let s := chargeStrand s t
  let d := homeDid t
  let s := markUse s d t.region
  match takeArea s d t.region t.tck with
  | .error e => endFailed s d e
  | .ok none => s
  | .ok (some (s, area, _)) =>
    match saveTo s t t.did area with
    | .error e => endFailed s t.did e
    | .ok (s, _) =>
      let u := { s.me with seat := .none, area := some area, aside := if queue then none else some (holderOf t) }
      let s := { s with me := .reset, live := false, others := s.others ++ [u] }
      if queue then queueSaved s (holderOf t) t.key else s

/-! ### The issue of an instruction -/

/-- What an instruction does on a bank core (R397). -/
inductive BankUse where
  | run | ret | ill
  deriving DecidableEq, Repr

/-- What every instruction is checked against before its own checks. -/
structure Issue where
  g     : Guard
  /-- Scalar registers read, and written. -/
  rd    : List Nat
  wr    : List Nat
  /-- Vector registers named. -/
  vregs : List Nat
  /-- Registers that need not wait for their tokens (TSTAT, R356). -/
  noTok : List Nat
  handler : Bool
  bank  : BankUse
  /-- Paths on which it begins work (R275, R276). -/
  begins : List Path
  deriving DecidableEq, Repr

/-- How the body of an instruction ends. -/
inductive Res where
  /-- Complete: the strand goes on at NextPC. -/
  | done (s : State)
  /-- Complete with a transfer of control. -/
  | jump (s : State) (pc : Word)
  /-- A trap: nothing of the instruction stands (R27). -/
  | trap (c : Cause) (tval : Word)
  /-- A fault that comes back in a reply (R454): nothing of the instruction stands but what is said of the state at issue. -/
  | fault (f : State → State) (c : Cause) (tval : Word)
  /-- Not yet: the strand waits and nothing of the instruction stands. -/
  | wait (w : Wait)
  /-- The strand waits in the state given. -/
  | hold (s : State)
  /-- Not yet: the strand tries again, and nothing stands but what is said of the state at issue. -/
  | redo (f : State → State)
  /-- BREAK: TPC is NextPC (R35). -/
  | brk (tval : Word)
  /-- The return trap of a bank core (R397). -/
  | back
  /-- The strand has left: the state is final. -/
  | gone (s : State)
  /-- YDL stood at 0 as it began (R24, R179). -/
  | over

/-- The guard passes (R42). -/
def guardOk (s : State) : Guard → Bool
  | .always => true
  | .when neg i => pbit s i.val != neg

/-- The strand in turn has executed its instruction: PC and YDL (R24, R38). -/
def retireTo (s : State) (pc : Word) : State :=
  updMe s (fun t => { t with pc := pc, ydl := t.ydl - 1, wait := .none, pre := none })

/-- A waiting state that goes with a strand whose bank core is drained: what it waits for goes on. An instruction that has not completed otherwise is executed again. -/
def travels : Wait → Wait
  | .gsync => .gsync
  | .lrw => .lrw
  | .barw => .barw
  | .mwait => .mwait
  | .launch => .launch
  | .reply => .reply
  | _ => .none

/-- The strand sends itself back from its bank core (R262, R265, R397, R399): every write acknowledged and the clock at the horizon, TH's state through a save area,
then a packet to the core of its DID on the bank core's die with the fewest entries of the DID: the lowest of several, and where the die has none, the full core that it
last left. A waiting state goes with it, the monitor does not (R216). DESIGN CHOICE: log entry 104. -/
def bankReturn (s : State) (pc : Word) (deadline : Bool) : State :=
  match s.me.seat with
  | .bank ch _ =>
    if !s.me.posted.isEmpty then updMe s (fun t => { t with wait := if deadline && t.wait != .none then t.wait else .retry }) else
    let s := raiseClock (if deadline && travels s.me.wait != .none then s else undoPre s) s.me.h
    let t := s.me
    let d := t.did
    let die := ch / 128
    let load (c : Nat) : Nat := ((coreOf s c).runq.filter (fun e => match e with
      | .gang d' _ _ _ _ => d' == d
      | .saved k => (strandOf s k).any (fun x => x.did == d)
      | .migrated k => (strandOf s k).any (fun x => x.did == d))).length
    let dest := (minBy load ((upto (die * 1024) 1024).filter (fun c => exposed s c && inPartition s c d))).getD t.core
    let go (s : State) (area : Option Nat) : State :=
      let s := withdraw (chargeStrand s t) t.key
      let t := { s.me with pc := pc, seat := .none, dest := none, wait := if deadline then travels s.me.wait else .none, area := area, mon := none, load := none, vload := none, stale := [],
                           h := s.me.tck, sf := s.me.tck, tcause := if s.me.th then s.me.tcause else 0, tval := if s.me.th then s.me.tval else 0,
                           tpc := if s.me.th then s.me.tpc else 0 }
      { s with me := .reset, live := false, packets := s.packets ++ [(t, dest)] }
    if !t.th then go s none
    else if !takeReady s d d t.region then updMe s (fun t => { t with wait := if deadline && t.wait != .none then t.wait else .retry })
    else match takeArea (markUse s d t.region) d t.region t.tck with
      | .error e => endFailed s d e
      | .ok none =>
        let s := markUse s d t.region
        if deadline then endMeCode s (some (t.tcause.toNat % 256)) else updMe s (fun t => { t with wait := .retry })
      | .ok (some (s, area, _)) =>
        match areaPut s d t.tck [(area + 0x070, leBytes 8 t.tcause.toNat), (area + 0x078, leBytes 8 t.tval.toNat), (area + 0x080, leBytes 8 t.tpc.toNat)] with
        | .error e => endFailed s d e
        | .ok (s, _) => go s (some area)
  | _ => s

/-- The work a FENCE.X waits for is done (R275, R276). DEDUCED: log entry 87. -/
def workDone (s : State) (f : FenceX) : Bool :=
  f.work.all (fun id => !(s.me.posted.any (fun p => p.id == id)) && !(s.bank.any (fun b => b.id == id)) && !(s.wq.any (fun w => w.id == id))
    && !(s.cores.any (fun e => e.2.copies.any (fun c => c.id == id) || e.2.matq.any (fun m => m.id == id))))
  && f.push.all (fun p =>
    let x := kget (coreOf s p.1).ctxs p.2.1 .reset
    x.state == 0 || x.ser != p.2.2.1 || decide (p.2.2.2 ≤ x.written))

/-- The obligations of FENCE.X that a path's first instruction meets (R275): none outstanding, or the state with their times taken. DEDUCED: log entry 32. -/
def meetFences (s : State) (paths : List Path) : Option State :=
  let mine := s.me.fencex.filter (fun f => paths.contains f.k2)
  if mine.any (fun f => !workDone s f) then none
  else some (mine.foldl (fun s f =>
    let tw := f.work.foldl (fun acc id => max acc (kget s.me.ends id 0)) f.tc
    let tp := f.push.foldl (fun acc p =>
      let x := kget (coreOf s p.1).ctxs p.2.1 .reset
      max acc (if x.state == 0 || x.ser != p.2.2.1 then kget s.me.ends (2 ^ 64 + 3) 0 else x.clk)) 0
    let t := max (max s.me.tck s.me.h) (max tw tp)
    let s := updMe s (fun m => { m with fencex := m.fencex.filter (· != f) })
    if f.k2 = .core then raiseClock s t
    else
      let k := match f.k2 with
        | .core => 0 | .copy => 1 | .matrix => 2 | .stream => 3 | .bank => 4
      updMe s (fun m => { m with floors := kset m.floors k (max (kget m.floors k 0) t) })) s)

/-- The number of a path (R45). -/
def pathNo : Path → Nat
  | .core => 0 | .copy => 1 | .matrix => 2 | .stream => 3 | .bank => 4

/-- The registers read carry their completion times into the clock (R354). -/
def mergeTokens (s : State) (rd : List Nat) : State :=
  rd.foldl (fun s r => match kget? s.me.tc r with
    | some t => raiseClock s t
    | none => s) s

/-- A strand that waits in its instruction keeps how it stood at issue (R27). -/
def keepPre (s t : State) : State :=
  if t.live && t.me.key == s.me.key && t.me.wait != .none then
    updMe t (fun m => { m with pre := some (s.me.pre.getD ⟨s.me.tck, s.me.fencex, s.me.floors, s.chain⟩) })
  else t

/-- A finished body applied: `s` is the state at issue. -/
def finish (s : State) : Res → State
  | .done t => retireTo t s.nextPc
  | .jump t pc => retireTo t pc
  | .trap c v => takeTrap s s.me.pc c false v
  | .fault f c v => takeTrap (f s) s.me.pc c false v
  | .wait w => updMe s (fun t => { t with wait := w })
  | .hold t => keepPre s t
  | .redo f => updMe (f s) (fun t => { t with wait := .retry })
  | .brk v => takeTrap s s.nextPc .brk false v
  | .back => bankReturn s s.me.pc false
  | .gone t => t
  | .over => endMe s (some .yieldOverrun)

/-- On a bank core the return trap comes before any other cause, that of a YDL of 0 among them (R24, R397). -/
def bankOrder (s : State) (r : Res) : Res :=
  match s.me.seat with
  | .bank _ _ => if s.me.ydl = 0 then (match r with
      | .back => .back
      | _ => .over) else r
  | _ => r

/-- The issue of an instruction (R14, R15, R42, R193, R275, R354, R397), then its body. -/
def issueRes (x : Issue) (body : State → Res) (s : State) : Res :=
  let m := modeOfStrand s s.me
  if (x.rd ++ x.wr).any (fun r => decide (modeS m ≤ r)) || x.vregs.any (fun r => decide (modeV m ≤ r)) then .trap .illegal s.words
  else if (x.rd ++ x.wr).any (fun r => s.me.pend.contains r && !x.noTok.contains r) || x.vregs.any s.me.vpend.contains then .wait .retry
  else if !guardOk s x.g then .done s
  else if s.me.seat == .handler && !x.handler then .trap .illegal s.words
  else
    let onBank : Bool := match s.me.seat with
      | .bank _ _ => true
      | _ => false
    if onBank && x.bank == .ill then .trap .illegal s.words
    else if onBank && x.bank == .ret then .back
    else match meetFences s x.begins with
      | none => .wait .retry
      | some t => body (mergeTokens t x.rd)

/-- The meaning of an instruction from its issue and its body: a package in recovery mode runs nothing (R466). DESIGN CHOICE: log entry 86. -/
def issue (x : Issue) (body : State → Res) (s : State) : Host.Outcome State Fault Refusal :=
  if s.boot.recovery then .fault .recovery else .next (finish s (bankOrder s (issueRes x body s)))

/-- The meaning of an event of the table: a package in recovery mode performs none (R466). DESIGN CHOICE: log entry 21. -/
def event (f : State → State) (s : State) : Host.Outcome State Fault Refusal :=
  if s.boot.recovery then .fault .recovery else .next (f s)

/-- The issue of an instruction that names scalar registers only. -/
def scalar (g : Guard) (rd wr : List Nat) : Issue :=
  { g, rd, wr, vregs := [], noTok := [], handler := true, bank := .run, begins := [] }

/-- The first of several checks that R29 takes: the least rank, the description's order within one rank. -/
def firstTrap (cs : List (Option (Cause × Word))) : Option (Cause × Word) :=
  minBy (fun c => causeRank c.1) (cs.filterMap id)

/-- A test as a check. -/
def chk (b : Bool) (c : Cause) (v : Word) : Option (Cause × Word) := if b then some (c, v) else none

/-- A fault as a check. -/
def chkE {α : Type} : Except (Cause × Word) α → Option (Cause × Word)
  | .error e => some e
  | .ok _ => none

end Sys2Proof.Machine
end

