-- ==== Sys2Proof/Machine/StreamOps.lean ====
section
/-! DEFINITION. Streams as the device runs them: records, element addresses, the attached operation, events and messages, the end,
the failure and the recall of a stream. -/

namespace Sys2Proof.Machine

/-- The length N of a stream (R307). -/
def streamLen (r : StreamRec) : Nat := (r.counts.take r.rank).foldl (· * ·) 1

/-- The element size in bytes (R306). -/
def elemSize (r : StreamRec) : Nat := 2 ^ r.esz

/-- The indices of element n (R307). -/
def elemIdx : List Nat → Nat → List Nat
  | [], _ => []
  | c :: cs, n => n % c :: elemIdx cs (n / c)

/-- The address of element n (R307). -/
def elemAddr (r : StreamRec) (n : Nat) : Word :=
  wInt ((((elemIdx (r.counts.take r.rank) n).zip r.strides).foldl (fun a (x : Nat × Int) => a + x.1 * x.2) (r.base : Int)))

/-- The least and greatest element address, as integers (R307). -/
def streamBox (r : StreamRec) : Int × Int :=
  ((r.counts.take r.rank).zip r.strides).foldl (fun a (x : Nat × Int) =>
    let d : Int := ((x.1 : Int) - 1) * x.2
    (a.1 + min 0 d, a.2 + max 0 d)) ((r.base : Int), (r.base : Int))

/-- The 96 bytes of a record read as its fields (R306). -/
def parseRec (v : Nat) : StreamRec :=
  let f := bits v 127 64
  { base := bits v 63 0, esz := bits f 1 0, write := bit f 2, etype := bits f 5 4, rank := bits f 10 8, op := bits f 18 16,
    sink := bits f 25 24, fpol := bits f 29 28, floc := bits f 30 30, emask := bits f 36 32, sinka := bits v 191 128,
    counts := (upto 0 5).map (fun k => bits v (192 + 64 * k + 31) (192 + 64 * k)),
    strides := (upto 0 5).map (fun k => sextN 32 (bits v (192 + 64 * k + 63) (192 + 64 * k + 32))),
    cword := bits v 575 512 }

/-- The operation is legal for the element type (R309). -/
def streamOpOk (op etype : Nat) : Bool :=
  match op with
  | 0 => true
  | 1 => etype == 0 || etype == 1
  | 2 => etype == 3
  | 3 => etype == 2
  | 4 => true
  | 5 => true
  | 6 => etype == 0 || etype == 1
  | _ => true

/-- The record is valid (R308). -/
def recOk (v : Nat) : Bool :=
  let r := parseRec v
  let f := bits v 127 64
  let es := elemSize r
  let n := streamLen r
  let (lo, hi) := streamBox r
  !bit f 3 && bits f 7 6 == 0 && bits f 15 11 == 0 && bits f 23 19 == 0 && bits f 27 26 == 0 && !bit f 31 && bits f 63 37 == 0
    && r.fpol != 3 && bits v 767 576 == 0
    && decide (1 ≤ r.rank ∧ r.rank ≤ 5)
    && (r.counts.drop r.rank).all (· == 0) && (r.strides.drop r.rank).all (· == 0)
    && decide (n ≤ 2 ^ 40)
    && r.base % es == 0 && r.strides.all (fun x => x % (es : Int) == 0)
    && (n == 0 || (decide (0 ≤ lo) && decide (hi + es ≤ 2 ^ 56)))
    && (r.etype != 2 || r.esz == 1) && (r.etype != 3 || r.esz == 2)
    && streamOpOk r.op r.etype
    && (!r.write || (r.op == 0 && r.sink == 0 && r.fpol == 0))
    && r.sinka % 8 == 0
    && (match r.sink with
      | 1 => decide (0xFFFFFFFFFFFC0000 ≤ r.sinka)
      | 2 => decide (r.sinka < 2 ^ 56)
      | _ => r.sinka == 0)
    && r.cword % 8 == 0

/-- An element as it enters a register or PART: sign-extended for ETYPE 0, zero-extended otherwise (R309, R312). -/
def elemExt (r : StreamRec) (e : Nat) : Nat :=
  if r.etype = 0 then (sext (8 * elemSize r) e).toNat else e % 2 ^ (8 * elemSize r)

/-- PART at the start (R309). -/
def partInit (r : StreamRec) : Nat :=
  match r.op with
  | 4 => match r.etype with
    | 0 => 2 ^ 63 - 1
    | 1 => 2 ^ 64 - 1
    | 2 => 0x7FC0
    | _ => 0x7FC00000
  | 5 => match r.etype with
    | 0 => 2 ^ 63
    | 1 => 0
    | 2 => 0x7FC0
    | _ => 0x7FC00000
  | _ => 0

/-- One element folded into PART (R309). -/
def foldElem (r : StreamRec) (rnd : Word) (part e : Nat) : Nat :=
  let x := elemExt r e
  match r.op with
  | 0 => part
  | 1 => (part + x) % 2 ^ 64
  | 2 => addCode .f32 (rndMode rnd) (rndSat rnd) part x
  | 3 => addCode .f32 (rndMode rnd) (rndSat rnd) part (x * 2 ^ 16)
  | 4 => match r.etype with
    | 0 => if (w64 part).slt (w64 x) then part else x
    | 1 => min part x
    | 2 => minMaxCode .bf16 false part x
    | _ => minMaxCode .f32 false part x
  | 5 => match r.etype with
    | 0 => if (w64 part).slt (w64 x) then x else part
    | 1 => max part x
    | 2 => minMaxCode .bf16 true part x
    | _ => minMaxCode .f32 true part x
  | 6 => part ^^^ x
  | _ => if x = 0 then part else (part + 1) % 2 ^ 64

/-- A context of a core. -/
def ctxOf (s : State) (c x : Nat) : Ctx := kget (coreOf s c).ctxs x .reset

/-- The state with a context changed. -/
def updCtx (s : State) (c x : Nat) (f : Ctx → Ctx) : State :=
  updCore s c (fun cs => { cs with ctxs := kset cs.ctxs x (f (kget cs.ctxs x .reset)) })

/-- The handle of a context (R310). -/
def handleOf (c x : Nat) (t : Ctx) : Nat := 2 ^ 63 + t.ser * 2 ^ 18 + c * 2 ^ 6 + x

/-- A doubleword of a context (R311). -/
def ctxWord (t : Ctx) (k : Nat) : Nat :=
  let n := streamLen t.srec
  let idx := if t.eidx < n then elemIdx (t.srec.counts.take t.srec.rank) t.eidx else []
  let ix (i : Nat) : Nat := idx.getD i 0
  match k with
  | 0 => t.state + t.lock * 2 ^ 4 + t.loc * 2 ^ 8 + t.did * 2 ^ 24 + t.owner * 2 ^ 32
  | 1 => t.eidx
  | 2 => ix 0 + ix 1 * 2 ^ 32
  | 3 => ix 2 + ix 3 * 2 ^ 32
  | 4 => ix 4 + t.hops * 2 ^ 32 + t.lastev * 2 ^ 48 + (if t.state = 8 then t.fcode else 0) * 2 ^ 56
  | 5 => (if t.state = 8 then t.fcause else 0) + t.zreg * 2 ^ 8 + t.ser * 2 ^ 16
  | 6 => t.part
  | _ => t.tstart + t.era * 2 ^ 48

/-- The context holds a message that its share has not taken yet (R323). -/
def undelivered (s : State) (c x : Nat) : Bool :=
  (kget (coreOf s c).held (ctxOf s c x).did []).any (fun m => m.origin == some (c * 64 + x))

/-- An event of a stream: LASTEV, and the message when EMASK selects it (R322). DEDUCED: log entry 78. -/
def streamEvent (s : State) (c x ev code : Nat) : State :=
  let s := updCtx s c x (fun t => { t with lastev := ev })
  let t := ctxOf s c x
  if bit t.srec.emask (ev - 1) then
    postMsg s c t.did ⟨1, c, 0, t.clk, s.era,
      handleOf c x t + (ev + code * 2 ^ 8 + t.lock * 2 ^ 16 + t.loc * 2 ^ 20 + t.eidx % 2 ^ 32 * 2 ^ 32) * 2 ^ 64, some (c * 64 + x)⟩
  else s

/-- The owning strand still exists (R319, R321). -/
def ownerLives (s : State) (t : Ctx) : Bool := (strandOf s t.okey).any (fun o => !o.dead)

/-- The strands that wait in SWAIT for a context learn that it has stopped, and how (R331). -/
def tellWaiters (s : State) (c x : Nat) : State :=
  let x' := ctxOf s c x
  let waits (t : Strand) : Bool := t.wait == .swait && t.core == c && t.wval == handleOf c x x'
  let tell (t : Strand) : Strand := { t with wkey := x'.state, wtc := x'.tc }
  { s with
    me := if s.live && waits s.me then tell s.me else s.me
    others := mapIf waits tell s.others }

/-- A context is home with a state, 6, 7 or 8, which ends every wait for it (R319, R320, R321, R331). -/
def ctxHome (s : State) (c x st : Nat) : State :=
  tellWaiters (updCtx s c x (fun t => { t with state := st, lock := 0, loc := c, recalled := false })) c x

/-- A stream is recalled: its context is home with STATE 6, then the RECALL event (R320). -/
def recallCtx (s : State) (c x : Nat) : State := streamEvent (ctxHome s c x 6) c x 4 0

/-- A stream fails (R321): STATE 8 with FCODE and FCAUSE, CWORD when `cw`, then the RECALL event; freed when its owner has retired, unless it has failed for
want of its quota (R335). -/
def failCtx (s : State) (c x fcode fcause : Nat) (cw : Bool) : State :=
  let s := ctxHome s c x 8
  let s := updCtx s c x (fun t => { t with fcode := fcode, fcause := fcause })
  let t := ctxOf s c x
  let s := if cw then cwWrite s t.did t.srec.cword (t.eidx % 2 ^ 32 * 2 ^ 32 + fcause * 2 ^ 8 + 2) t.clk else s
  let s := streamEvent s c x 4 fcode
  if fcode == 0x17 || ownerLives s t then s else updCtx s c x freeCtx

/-- A stream that runs is to fail: it is recalled, its held stores are released, and it fails once it is home (R320, R321). DEDUCED: log entry 91. -/
def failing (s : State) (c x fcode fcause : Nat) : State :=
  updCtx s c x (fun t => { t with recalled := true, fcode := fcode, fcause := fcause })

/-- The holder of translations a context uses: its core, or where it floats (R246, R318). -/
def ctxHolder (c : Nat) (t : Ctx) : Nat :=
  match t.lock with
  | 1 => 5000 + t.loc
  | 2 => 7000 + t.loc
  | _ => c

/-- One element's access checked under the stream's DID (R316, R321, R335): its physical address, or the cause with the element's address. -/
def elemCheck (s : State) (c : Nat) (t : Ctx) (n : Nat) (need : Need) : Except (Cause × Word) Nat :=
  let a := elemAddr t.srec n
  match checkVa s (ctxHolder c t) t.did a.toNat need false with
  | .error (e, _) => .error (e, a)
  | .ok pa => if need == .read && poisonedAt s pa (elemSize t.srec) then .error (.poison, a) else .ok pa

/-- A write of the strand to `n` bytes from key k that the strand has heard of, or that is performed, takes the place of its posted writes to those bytes for which `early` holds (R267). DEDUCED: log entry 13. -/
def supersede (t : Strand) (early : Posted → Bool) (k n : Nat) : Strand :=
  if t.posted.isEmpty then t
  else { t with posted := t.posted.map (fun p => if early p && decide (p.key < k + n ∧ k < p.key + p.n) then
      { p with gone := p.gone ++ (upto 0 p.n).filter (fun i => decide (k ≤ p.key + i ∧ p.key + i < k + n) && !p.gone.contains i) } else p) }

/-- Own stores of a strand not yet acknowledged, laid over bytes read from memory: for each byte the strand's most recent write to it (R267). DEDUCED: log entry 13. -/
def overlayOwn (t : Strand) (k n : Nat) (v : Nat) : Nat :=
  leVal (t.posted.foldl (fun (bs : List Byte) p =>
    if p.op != .store then bs
    else (bs.zipIdx).map (fun (x : Byte × Nat) => let a := k + x.2
      if p.key ≤ a ∧ a < p.key + p.n ∧ !p.gone.contains (a - p.key) then BitVec.ofNat 8 (p.val / 256 ^ (a - p.key)) else x.1)) (leBytes n v))

/-- The location a floated context reads an element at: slice or channel (R318). -/
def locOf (t : Ctx) (pa : Nat) : Nat × Nat := if t.srec.floc = 0 then (1, sliceOf pa) else (2, channelOf pa)

/-- The slice or the bank unit of a location is out of service (R446). -/
def locDead (s : State) (l : Nat × Nat) : Bool :=
  (l.1 == 1 && s.health.deadSl.contains l.2) || (l.1 == 2 && s.health.deadBk.contains l.2)

/-- A location is in service (R446) and has room for another floated context (R318). DEDUCED: log entry 19. -/
def locRoom (s : State) (l : Nat × Nat) : Bool :=
  !locDead s l && decide ((s.cores.foldl (fun a e => a + (e.2.ctxs.filter (fun y => y.2.lock == l.1 && y.2.loc == l.2 && (y.2.state == 4 || y.2.state == 5))).length) 0) < 32)

/-- A context moves to a location: FLOAT when it leaves its core, else HOP (R318, R322). -/
def moveCtx (s : State) (c x : Nat) (l : Nat × Nat) : State :=
  let t := ctxOf s c x
  if t.lock = 0 then
    streamEvent (updCtx s c x (fun t => { t with state := 4, lock := l.1, loc := l.2 })) c x 1 0
  else
    streamEvent (updCtx s c x (fun t => { t with lock := l.1, loc := l.2, hops := (t.hops + 1) % 2 ^ 16 })) c x 2 0

/-- What the end of a stream writes can be written now: a scratchpad bank that has passed to its DID has been zeroed (R421), and memory can be reached (R262). -/
def endReady (s : State) (c : Nat) (t : Ctx) : Bool :=
  (t.srec.sink != 1 || !spadBusy s c (t.srec.sinka % 2 ^ 18) 8 t.did)
    && (!inInterval s.gtc
    || ((t.srec.sink != 2 || (walkReady s (ctxHolder c t) t.did t.srec.sinka && (match checkVa s (ctxHolder c t) t.did t.srec.sinka .write false with
        | .ok pa => homeReady s (pa / 64)
        | .error _ => true)))
      && (t.srec.cword == 0 || devReady s t.did t.srec.cword)))

/-- The end of a detached stream (R319), with its sink, CWORD and events; a sink write that faults fails it (R321). The time of the CWORD write is neither in Tc nor in the
TIME of the SINK event. DEDUCED: log entry 78. -/
def endCtx (s : State) (c x : Nat) : State :=
  let t := ctxOf s c x
  let posts := t.srec.sink == 3 || bit t.srec.emask 2
  if (posts && undelivered s c x) || !endReady s c t then s
  else
    let r : Except Cause (State × Nat) := match t.srec.sink with
      | 1 =>
        let o := t.srec.sinka % 2 ^ 18
        match checkSpad s c t.did o 8 with
        | some (e, _) => .error e
        | none => .ok ({ s with mem := memPut s.mem (spadKey c o) (leBytes 8 t.part) }, t.tc)
      | 2 => match checkVa s (ctxHolder c t) t.did t.srec.sinka .write false with
        | .error (e, _) => .error e
        | .ok pa => .ok (homeWrite (chargeEnergy s t.did 1) pa (leBytes 8 t.part) t.clk t.tstart 4096 t.did)
      | _ => .ok (s, t.tc)
    match r with
    | .error e => failCtx s c x 0x18 (causeCode e) true
    | .ok (s, w) =>
      let s := updCtx s c x (fun t => { t with tc := max t.tc w, clk := max t.clk w })
      let t := ctxOf s c x
      let s := if t.srec.sink = 3 then
          postMsg s c t.did ⟨2, c, 0, t.tc, s.era, handleOf c x t + t.part * 2 ^ 64, some (c * 64 + x)⟩
        else s
      let s := cwWrite s t.did t.srec.cword (completionWord t.eidx none) t.tc
      let s := streamEvent s c x 3 0
      let s := ctxHome s c x 7
      if ownerLives s t then s else updCtx s c x freeCtx

/-- The home of element n can serve a read of it now (R262). -/
def elemReady (s : State) (c : Nat) (t : Ctx) (n : Nat) : Bool :=
  match checkVa s (ctxHolder c t) t.did (elemAddr t.srec n).toNat .read false with
  | .ok pa => homeReady s (pa / 64)
  | .error _ => true

/-- The next step of a detached stream (R318), none at a unit out of service (R446): a move, then its element read at its home (R277) and folded; or its end.
`go` is the device's choice to float or to hop, under the policy that leaves it one (FPOL 1); at a channel it waits for the end of a drain window or an interval (R262). DEDUCED: log entry 77. -/
def streamStep (s : State) (c x : Nat) (go : Bool) : State :=
  let t := ctxOf s c x
  if !(t.state == 3 || t.state == 4) || t.recalled || locDead s (t.lock, t.loc) then s
  else if streamLen t.srec ≤ t.eidx then endCtx s c x
  else if !walkReady s (ctxHolder c t) t.did (elemAddr t.srec t.eidx).toNat then s
  else match elemCheck s c t t.eidx .read with
    | .error (e, v) =>
      if e == .poison && !elemReady s c t t.eidx then s
      else failing (if e == .poison then markDead s (ctxHolder c t) t.did v.toNat else s) c x 0x16 (causeCode e)
    | .ok pa =>
      let l := locOf t pa
      let wants := (t.lock == 0 && (t.srec.fpol == 2 || (t.srec.fpol == 1 && go))) || (t.lock != 0 && (t.srec.fpol == 2 || go) && (t.lock, t.loc) != l)
      let posts := bit t.srec.emask (if t.lock = 0 then 0 else 1)
      if wants && locRoom s l && posts && undelivered s c x then s
      else if calState s.gtc != 0 && (t.lock == 2 || (wants && l.1 == 2)) then s
      else
        let s := if wants && locRoom s l then moveCtx s c x l else s
        let t := ctxOf s c x
        if !homeReady s (pa / 64) then s
        else
          let s := tlbKeep s (ctxHolder c t) t.did (elemAddr t.srec t.eidx).toNat
          let (s, e, tl) := homeRead s pa (elemSize t.srec) t.clk t.did
          let s := chargeEnergy s t.did 1
          updCtx s c x (fun t => { t with eidx := t.eidx + 1, part := foldElem t.srec t.rnd t.part e, clk := tl, tc := max t.tc tl })

/-- A DID loses its stream quota on a core (R335): a recalled context fails as soon as its CWORD can be written (R262). -/
def quotaGone (s : State) (c d : Nat) : State :=
  ((coreOf s c).ctxs.filter (fun e => e.2.did == d)).foldl (fun s e =>
    let t := e.2
    match t.state with
    | 1 => failCtx s c e.1 0x17 0x06 false
    | 2 =>
      let s := updStrand s t.okey (fun o => { o with z := o.z.map (fun z => if z == some e.1 then none else z) })
      failCtx s c e.1 0x17 0x06 false
    | 3 => failing s c e.1 0x17 0x06
    | 4 => failing s c e.1 0x17 0x06
    | 5 => failing s c e.1 0x17 0x06
    | 6 => if t.srec.cword == 0 || devReady s t.did t.srec.cword then failCtx s c e.1 0x17 0x06 true else failing s c e.1 0x17 0x06
    | _ => s) s

/-- A coupled read stream reads one element ahead (R314): at its home, as a prefetch (R242), the owner's own stores seen; an element that faults stays unread. DEDUCED: log entry 82. -/
def windowFill (s : State) (c x : Nat) : State :=
  let t := ctxOf s c x
  let n := t.eidx + t.window.length
  if t.state != 2 || t.srec.write || decide (64 ≤ t.window.length) || decide (streamLen t.srec ≤ n) || !walkReady s (ctxHolder c t) t.did (elemAddr t.srec n).toNat then s
  else match elemCheck s c t n .read with
    | .error (e, a) => if e == .poison then markDead s (ctxHolder c t) t.did a.toNat else s
    | .ok pa =>
      if !homeReady s (pa / 64) then s
      else
        let s := tlbKeep s c t.did (elemAddr t.srec n).toNat
        let (s, e, tl) := windowRead (chargeEnergy s t.did 1) pa (elemSize t.srec) t.clk t.did
        let e := match strandOf s t.okey with
          | some o => overlayOwn o pa (elemSize t.srec) e
          | none => e
        updCtx s c x (fun t => { t with window := t.window ++ [(e, tl, pa)], clk := tl })

/-- A coupled write stream writes its oldest accepted push (R315), at or above the time that a FENCE.X has set for the path (R275). One whose element no longer passes its
checks as the device writes it is dropped, and the next follows; pushes that a stream had accepted before it failed for its quota (R335) are written too, until SFREE frees
it. DESIGN CHOICE: log entry 105. -/
def pushWrite (s : State) (c x : Nat) : State :=
  let t := ctxOf s c x
  match t.pushes with
  | [] => s
  | v :: rest =>
    let free (s : State) : State := if t.recalled && rest.isEmpty then updCtx s c x freeCtx else s
    if !walkReady s (ctxHolder c t) t.did (elemAddr t.srec t.written).toNat then s
    else match elemCheck s c t t.written .write with
    | .error _ => free (updCtx s c x (fun t => { t with pushes := rest, written := t.written + 1 }))
    | .ok pa =>
      if !homeReady s (pa / 64) then s
      else
        let s := tlbKeep s c t.did (elemAddr t.srec t.written).toNat
        let fl := ((strandOf s t.okey).map (fun o => kget o.floors 3 0)).getD 0
        let (s, w) := homeWrite (chargeEnergy s t.did 1) pa (leBytes (elemSize t.srec) v) (max t.clk fl) t.tstart 4096 t.did
        free (updCtx s c x (fun t => { t with pushes := rest, written := t.written + 1, clk := w, tc := max t.tc w }))

/-- A byte range meets an element that a detached stream has not read yet (R317): exactly where few remain, by its footprint box where many do. DEDUCED: log entry 14. -/
def remainingMeets (s : State) (c x : Nat) (va n : Nat) : Bool :=
  let t := ctxOf s c x
  let len := streamLen t.srec
  let es := elemSize t.srec
  if !(t.state == 3 || t.state == 4 || t.state == 5) then false
  else if len - t.eidx ≤ 4096 then
    (upto t.eidx (len - t.eidx)).any (fun i => let a := (elemAddr t.srec i).toNat; decide (a < va + n ∧ va < a + es))
  else
    let (lo, hi) := streamBox t.srec
    decide (lo < (va + n : Nat) ∧ (va : Int) < hi + es)

/-- The owner's store patches the windows of its coupled streams (R314): every element of which it writes bytes, by whichever address. DEDUCED: log entry 82. -/
def patchWindows (s : State) (pa n v : Nat) : State :=
  s.me.z.toList.foldl (fun s z => match z with
    | none => s
    | some x =>
      let t := ctxOf s s.me.core x
      if t.window.isEmpty then s
      else updCtx s s.me.core x (fun t =>
        let es := elemSize t.srec
        { t with window := t.window.map (fun (w : Nat × Nat × Nat) =>
          let a := w.2.2
          (leVal ((leBytes es w.1).zipIdx.map (fun (b : Byte × Nat) =>
            if pa ≤ a + b.2 ∧ a + b.2 < pa + n then BitVec.ofNat 8 (v / 256 ^ (a + b.2 - pa)) else b.1)), w.2)) })) s

end Sys2Proof.Machine
end

