-- ==== Sys2Proof/Machine/Regs.lean ====
section
/-! DEFINITION. The registers of the device windows: partition registers, counters, RAS and topology, peer windows, ports, interrupts and
bias flips: what a load reads, what a store checks and what it does. -/

namespace Sys2Proof.Machine

/-! ### What the stores do -/

/-- The 0x0D descriptor of a refused store (R419, R420): the DID in conflict, or 0x1F. -/
def refuse (owner unit index : Nat) : Cause × Word := (.domain, descriptor owner unit index 0x0D)

/-- The number of the lowest bit set in a mask. -/
def lowBit (m : Nat) : Nat := ((List.range 64).find? (bit m)).getD 0

/-- Another DID whose mask on a core shares a bit with `m`, and the lowest such bit: the number of the item (R419). -/
def maskClash (s : State) (c d m : Nat) (f : DomCore → Nat) : Option (Nat × Nat) :=
  ((List.range 21).find? (fun e => e != d && (f (domCore s c e) &&& m) != 0)).map (fun e => (e, lowBit (f (domCore s c e) &&& m)))

/-- What a DID holds on a core changed. -/
def updDomCore (s : State) (c d : Nat) (f : DomCore → DomCore) : State :=
  updCore s c (fun cs => { cs with doms := kset cs.doms d (f (kget cs.doms d .reset)) })

/-- QMASK, ACCM and OPSM (R421): a queue that changes owner is emptied (R195). -/
def setMasks (s : State) (c d q a o : Nat) : State :=
  let old := (domCore s c d).qmask
  let s := updDomCore s c d (fun k => { k with qmask := q, accm := a, opsm := o })
  updCore s c (fun cs => { cs with queues := Vector.ofFn (fun i : Fin 8 => if bit old i.val == bit q i.val then cs.queues.getD i.val [] else []) })

/-- A bank passes to its new holder (R421): it is noted with that holder and a number, and is zeroed once nothing issued before that number uses it. One that passes on before it
has been zeroed is noted once more, so that what the holder in between has issued goes on waiting for its own zeroing. -/
def setSpbank (s : State) (c d m : Nat) : State :=
  let old := (domCore s c d).spbank
  let gained := (List.range 16).filter (fun b => bit m b && !bit old b)
  let s := updDomCore s c d (fun k => { k with spbank := m })
  { updCore s c (fun cs => { cs with handover := cs.handover ++ gained.map (fun b => (b, d, s.nextId + 1)) }) with nextId := s.nextId + 1 }

/-- WSG (R226, R421): a granule that passes to another DID is zeroed first. -/
def setWsg (s : State) (c d m : Nat) : State :=
  let old := (domCore s c d).wsg
  let gained := (List.range 16).filter (fun g => bit m g && !bit old g)
  let s := gained.foldl (fun s g =>
    let k := wsKey c (g * 2 ^ 16)
    { s with mem := memZero s.mem k (2 ^ 16), poison := s.poison.filter (fun x => !decide (k ≤ 64 * x ∧ 64 * x < k + 2 ^ 16)) }) s
  updDomCore s c d (fun k => { k with wsg := m })

/-- L1BASE and L1N (R233): lines of sets that pass on are dropped at once, and with them the DID's other copies on the core, whose sets number anew. DESIGN CHOICE: log entry 99. -/
def setL1 (s : State) (c d b n : Nat) : State :=
  let s := updDomCore s c d (fun k => { k with l1base := b, l1n := n })
  updCore s c (fun cs => { cs with l1 := cs.l1.filter (fun l => l.did != d) })

/-- MBOX (R423): held messages are discarded when the share becomes 0; RAS records among them count in LOST. -/
def setMbox (s : State) (c d n : Nat) : State :=
  let s := updDomCore s c d (fun k => { k with mbox := n })
  if n = 0 then
    let lost := ((kget (coreOf s c).held d []).filter (fun m => m.kind == 4)).length
    let s := if (kget (coreOf s c).mbox d []).isEmpty then s else callWaiters s c d
    updDom (updCore s c (fun cs => { cs with held := kdel cs.held d, mbox := kdel cs.mbox d })) d (fun b => { b with lost := b.lost + lost })
  else s

/-- STRQ (R335): a quota of 0 fails the DID's contexts on the core. -/
def setStrq (s : State) (c d n : Nat) : State :=
  let s := updDomCore s c d (fun k => { k with strq := n })
  if n = 0 then quotaGone s c d else s

/-- A slot is empty: no strand is seated in it (R180). -/
def slotEmpty (s : State) (c slot : Nat) : Bool :=
  !((strands s).any (fun t => !t.dead && t.core == c && t.seat == .slot slot))

/-- The present owner of every slot of a core (R154, R180, R430): an empty slot in rotation has changed owner at once. -/
def ownersNow (s : State) (c : Nat) : List Nat :=
  let cs := coreOf s c
  (List.range 32).map (fun i => if slotEmpty s c i then cs.slotown.getD i 0x1F else cs.curown.getD i 0x1F)

/-- SLOTOWN of a slot (R430): an empty slot changes owner at once, a seated one is in rotation. -/
def setSlotown (s : State) (c slot d : Nat) : State :=
  updCore s c (fun cs => { cs with
    slotown := cs.slotown.set slot d
    curown := if slotEmpty s c slot then cs.curown.set slot d else cs.curown })

/-- FRELM and FRELC (R368, R421): the claim ends, zeroed in command order. -/
def forceRelease (s : State) (c d : Nat) (isAcc : Bool) (m : Nat) : State :=
  let xs := (List.range 16).filter (fun i => bit m i && kget? (coreOf s c).claims (if isAcc then 16 + i else i) == some d)
  xs.foldl (fun s i =>
    let cmd : MatCmd := ⟨s.nextId, 0, 0, d, if isAcc then .zeroAcc i else .zeroSlot i, 0, 0, 0, 0, 0, 0⟩
    let s := updCore s c (fun cs => { cs with claims := kdel cs.claims (if isAcc then 16 + i else i), matq := cs.matq ++ [cmd] })
    { s with nextId := s.nextId + 1 }) s

/-- A set range moved or resized (R237): lines of sets given up are written back and dropped first, and so are those of kept sets whose set number changes. DESIGN CHOICE: log entry 99. -/
def setRangeReg (s : State) (h i v : Nat) : State :=
  let k := bits v 19 16
  let b := bits v 8 0
  let keeps (l : L2Line) : Bool := bit v 31 && decide (b ≤ l.set ∧ l.set < b + 2 ^ k) && decide (l.set = b + 64 * l.line / 2 ^ 16 % 2 ^ k)
  let gone := s.l2.filter (fun l => l.range == i && sliceOf (64 * l.line) == h && !keeps l)
  let s := gone.foldl (fun s l => dropL2 s l.line true) s
  { s with sets := kset s.sets (h * 32 + i) v }

/-- The eviction schedule at an address as the slices read it (R239): none when malformed, or when a doubleword of it names no memory of the package (R2) or is poisoned.
DESIGN CHOICE: log entry 97. -/
def readSched (s : State) (sched : Nat) : List (Nat × Nat × Nat) :=
  let pa := alignDown sched 16
  let dw (i : Nat) : Nat := homeVal s (pa + 8 * i) 8
  let n := dw 0
  let es := (upto 0 (min n 64)).map (fun i => (dw (2 + 2 * i), dw (3 + 2 * i)))
  if (upto 0 (2 + 2 * min n 64)).any (fun i => !namesDram (pa + 8 * i) || poisonedAt s (pa + 8 * i) 8) || n = 0 || decide (64 < n) || dw 1 != 0 || es.any (fun e => bits e.1 5 0 != 0 || bits e.1 63 48 != 0 || bits e.2 31 0 == 0) then []
  else es.map (fun e => (bits e.1 47 6, bits e.2 31 0, bits e.2 63 32))

/-- The bytes of an eviction schedule that the slices read: the doubleword of its length, and as many entries as it names (R239). -/
def schedBytes (s : State) (sched : Nat) : Nat := 16 + 16 * min (homeVal s (alignDown sched 16) 8) 64

/-- SCHED (R239): the table is read, with its lines in a failed channel poisoned as they are (R445), and STEPC set to 0. -/
def setSched (s : State) (d v : Nat) : State :=
  let s := if v = 0 || !namesDram (alignDown v 16) then s else foundDead s (alignDown v 16) (schedBytes s v) d
  updDom s d (fun b => { b with sched := v, sched' := if v = 0 then [] else readSched s v, stepc := 0 })

/-- RESET (R425, R436): a partition reset with cause DOMAIN and TRIG 1 (R437). -/
def askReset (s : State) (d : Nat) : State :=
  if d = 0 || (domOf s d).pstate != 1 then s
  else resetAsked s d 0x06 1

/-- CREATE (R425): PSTATE 0 to 1, the memory counters to zero. -/
def createDom (s : State) (d : Nat) : State :=
  if d = 0 || (domOf s d).pstate != 0 then s
  else updDom s d (fun b => { b with pstate := 1, cnt := [0, 0, 0, 0, 0, 0], resets := 0 })

/-- HPORT (R451). -/
def setHport (s : State) (d p : Nat) : State := updDom s d (fun b => { b with hport := p })

/-- The DID of a function index (R463). -/
def funcDid (s : State) (f : Nat) : Option Nat :=
  if f < 512 then kget? s.host.vf f else if f < 514 then some 0 else none

/-- A message of a function's vector is delivered, its flits charged to the DID of the function (R468), or sets the pending bit of a vector that is masked (R463, R464). -/
def msiSend (s : State) (e : Nat × Nat) : State :=
  if s.host.masked.contains e then { s with host := { s.host with pba := s.host.pba.filter (· != e) ++ [e] } }
  else { chargeEnergy s ((funcDid s e.1).getD 0) 2 with host := { s.host with sent := s.host.sent ++ [e] } }

/-- A host masks a vector, or unmasks it, which delivers one whose pending bit is set (R464). -/
def msiMask (s : State) (e : Nat × Nat) (on : Bool) : State :=
  if on then { s with host := { s.host with masked := s.host.masked.filter (· != e) ++ [e] } }
  else
    let s := { s with host := { s.host with masked := s.host.masked.filter (· != e) } }
    if s.host.pba.contains e then msiSend { s with host := { s.host with pba := s.host.pba.filter (· != e) } } e else s

/-- The health interrupt: vector 0 of function 0 of both ports, without coalescing (R465). -/
def healthRaise (s : State) : State :=
  msiSend (msiSend { s with health := { s.health with intr := s.health.intr + 1 } } (512, 0)) (513, 0)

/-- STATE is at least `n` from now on, with the health interrupt when it changes (R449, R465). -/
def healthTo (s : State) (n : Nat) : State :=
  if s.health.state < n then healthRaise { s with health := { s.health with state := n } } else s

/-- STATE is DEGRADED at least and a replacement is requested (R445, R449, R465); TGEN has risen, or is to. -/
def degrade (s : State) : State :=
  let old := s.health
  let s := { s with health := { s.health with state := max 2 s.health.state, repl := true } }
  if old.repl && 2 ≤ old.state then s else healthRaise s

/-- WCLR (R449): WARN to GOOD, and the health interrupt on the change (R465). -/
def healthClear (s : State) : State :=
  if s.health.state = 1 then healthRaise { s with health := { s.health with state := 0 } } else s

/-- A bias flip of the page of an address (R461): Tf above the page's leases, lines written back and dropped, the host's copies snooped for a flip to device bias, times
raised, the bitmap set; nothing where the byte of
the bitmap is no memory of the package. DEDUCED: log entry 11. DESIGN CHOICE: log entry 97. -/
def biasFlip (s : State) (pa : Nat) (host : Bool) : State :=
  let page := alignDown pa 4096
  match rangeOf s page with
  | none => s
  | some d =>
    if 21 ≤ d || (domOf s d).biastab = 0 || !namesDram ((domOf s d).biastab + hdmOffset page (domOf s d).ranges 0 / 4096 / 8) then s
    else
      let lns := upto (page / 64) 64
      let tf := (lns.foldl (fun m l => max m (timesOf s l).rts) 0) + 1
      let s := lns.foldl (fun s l => dropL2 s l true) (biasLook s page d)
      let s := if host then s else chargeEnergy s d 2
      let s := lns.foldl (fun s l => let t := timesOf s l; setTimes s l (max t.wts (tf + 1)) (max t.rts (tf + 1))) s
      let b := domOf s d
      let i := hdmOffset page b.ranges 0 / 4096
      let a := b.biastab + i / 8
      let v := homeVal s a 1
      let s := homePut s a (leBytes 1 (v - bits v (i % 8) (i % 8) * 2 ^ (i % 8) + b2n host * 2 ^ (i % 8)))
      wroteTimes s (a / 64) ((timesOf s (a / 64)).rts + 1)

/-- Pending vectors of a DID are delivered (R464). DESIGN CHOICE: log entry 16. -/
def msiDeliver (s : State) (d : Nat) : State :=
  updDom ((domOf s d).msi.foldl msiSend s) d (fun b => { b with msi := [], msiN := 0, mstart := none })

/-- The coalescing timer of a DID has reached CTIME (R464): it started with the first request since a delivery. -/
def msiDue (s : State) (d : Nat) : Bool := (domOf s d).mstart.any (fun g => decide (g + 64 * (domOf s d).ctime ≤ s.gtc))

/-- An interrupt request (R463, R464): merged with a pending request of its vector, delivered at once with CTIME 0 or at the count. The size of a function's table is
the device's own. DESIGN CHOICE: log entry 16. -/
def msiRequest (s : State) (d v : Nat) : Except (Cause × Word) State :=
  let f := bits v 9 0
  if bits v 15 10 != 0 || bits v 63 27 != 0 || funcDid s f != some d || decide ((Config.msixLast f).val < bits v 26 16) then .error (.domain, descriptor ((funcDid s f).getD 0x1F) 0x1FFF 0 0x0D)
  else
    let e := (f, bits v 26 16)
    let s := updDom s d (fun b => { b with msi := if b.msi.contains e then b.msi else b.msi ++ [e], msiN := b.msiN + 1, mstart := b.mstart.orElse (fun _ => some s.gtc) })
    let b := domOf s d
    .ok (if b.ctime = 0 || (b.ccount != 0 && decide (b.ccount ≤ b.msiN)) then msiDeliver s d else s)

/-! ### The windows -/

/-- The doubleword of eight byte entries of a list from entry i. -/
def byteWord (l : List Nat) (i : Nat) : Nat := leVal ((upto i 8).map (fun k => BitVec.ofNat 8 (l.getD k 0x1F)))

/-- SLOTS of a DID: the slots it now owns (R421). -/
def slotsOf (owners : List Nat) (d : Nat) : Nat :=
  ((owners.zipIdx).foldl (fun a (x : Nat × Nat) => if x.1 == d then a + 2 ^ x.2 else a) 0)

/-- A core block's doubleword (R421). -/
def coreBlock (s : State) (c o : Nat) : Option Nat :=
  let cs := coreOf s c
  let bank := decide (4096 ≤ c)
  if o < 0x540 then
    let d := o / 64
    let k := if bank then domBank s (c - 4096) d else domCore s c d
    match o % 64 / 8 with
    | 0 => some (if bank then k.bslots else slotsOf (ownersNow s c) d + k.qmask * 2 ^ 32 + k.accm * 2 ^ 40 + k.opsm * 2 ^ 48)
    | 1 => some (k.spbank + k.wsg * 2 ^ 16 + k.l1base * 2 ^ 32 + k.l1n * 2 ^ 40 + k.strq * 2 ^ 48 + k.mbox * 2 ^ 56)
    | 2 => some k.bslots
    | 3 => some 0
    | _ => none
  else if 0x600 ≤ o ∧ o < 0x620 then some (if bank then byteWord [] 0 else byteWord cs.slotown (o - 0x600))
  else if 0x620 ≤ o ∧ o < 0x640 then some (if bank then byteWord [] 0 else byteWord (ownersNow s c) (o - 0x620))
  else none

/-- A package block's, shared range's or gate entry's doubleword (R425, R431). -/
def pkgBlock (s : State) (o : Nat) : Option Nat :=
  if o < 0x1500 then
    let b := domOf s (o / 256)
    let f := o % 256
    match f / 8 with
    | 0 => some b.troot
    | 1 => some (b.llease + b.gen * 2 ^ 32)
    | 2 => some b.tvec.toNat
    | 3 => some b.sched
    | 4 => some b.pls
    | 5 => some b.resrec
    | 6 => some (b.pstate * 2 ^ 8 + b.rrn * 2 ^ 16)
    | 7 => some b.hport
    | 16 => some b.biastab
    | n => if 8 ≤ n ∧ n < 16 then
        let r := b.ranges.getD ((n - 8) / 2) (0, 0)
        some (if n % 2 = 0 then r.1 else r.2)
      else none
  else if 0x1800 ≤ o ∧ o < 0x1960 then
    let r := kget s.shared ((o - 0x1800) / 32) .reset
    match o % 32 / 8 with
    | 0 => some r.base
    | 1 => some r.len
    | 2 => some r.creator
    | _ => some r.admits
  else if 0x2000 ≤ o ∧ o < 0x4000 then
    let g := kget s.gates ((o - 0x2000) / 32) (0, 0)
    match o % 32 / 8 with
    | 0 => some g.1.toNat
    | 1 => some g.2.toNat
    | _ => some 0
  else none

/-- The RAS, health, topology and identity window (R443, R448, R449, R452): none where nothing is defined. -/
def rasWindow (s : State) (o : Nat) : Option Nat :=
  if o < 0x540 then
    let b := domOf s (o / 64)
    match o % 64 / 8 with
    | 0 => some (b.rcore + b2n b.rasEn * 2 ^ 16 + b2n b.cerep * 2 ^ 17)
    | 1 => some b.cecnt
    | 2 => some b.uecnt
    | 3 => some b.lost
    | _ => some 0
  else if o = 0x800 then
    let h := s.health
    some ((h.spares.zipIdx).foldl (fun a (x : Nat × Nat) => a + x.1 * 2 ^ (5 * x.2)) 0 + h.state * 2 ^ 24 + b2n h.repl * 2 ^ 26 + h.hkovr * 2 ^ 32)
  else if o = 0x808 then some s.health.tgen
  else if o = 0x810 then some s.pkgid
  else if 0x10000 ≤ o ∧ o < 0x18000 then
    let t := topoOf s ((o - 0x10000) / 8)
    some (t.phys + b2n t.present * 2 ^ 15 + t.subst * 2 ^ 16 + b2n t.spare * 2 ^ 31 + t.tgen * 2 ^ 32)
  else none

/-- L2LINES of a DID (R242). -/
def l2Lines (s : State) (d : Nat) : Nat :=
  (s.l2.filter (fun l => if l.range < 21 then l.range == d else (kget s.shared (l.range - 21) .reset).creator == d)).length

/-- A per-DID block of counters read by another DID than 0 or its own (R242, R443, R468). -/
def otherBlock (did d : Nat) (v : Nat) : Except (Cause × Word) Nat :=
  if did = 0 || did = d then .ok v else .error (.domain, descriptor d 0x1FFF 0 0x0E)

/-- LD.D of a device window (R242, R420, R443, R448, R449, R452, R457, R468). -/
def devLoad (s : State) (did : Nat) (a : Word) : Except (Cause × Word) Nat :=
  let (w, o) := windowOf a
  if privWindow w o && did != 0 then .error (.priv, a)
  else if o % 8 != 0 then .error (.xlate, a)
  else
    let out (x : Option Nat) : Except (Cause × Word) Nat := match x with
      | some v => .ok v
      | none => .error (.xlate, a)
    match w with
    | 1 =>
      if o < 0x540 then
        let b := domOf s (o / 64)
        otherBlock did (o / 64) (match o % 64 / 8 with
          | 0 => b.cnt.getD 0 0 | 1 => b.cnt.getD 1 0 | 2 => b.cnt.getD 2 0 | 3 => b.cnt.getD 3 0 | 4 => b.cnt.getD 4 0
          | 5 => l2Lines s (o / 64) | 6 => b.cnt.getD 5 0 | _ => 0)
      else .error (.xlate, a)
    | 2 => if o / 4096 < 4608 then out (coreBlock s (o / 4096) (o % 4096)) else .error (.xlate, a)
    | 3 => if o < 2 ^ 20 && decide (o % 1024 < 256) then .ok (kget s.sets (o / 1024 * 32 + o % 1024 / 8) 0) else .error (.xlate, a)
    | 4 => out (pkgBlock s o)
    | 5 => if o < 0x540 then match rasWindow s o with
        | some v => otherBlock did (o / 64) v
        | none => .error (.xlate, a)
      else out (rasWindow s o)
    | 6 => if o < 2048 * 21 then .ok (kget s.peers (o / 2048 * 256 + o % 2048 / 8) 0).toNat else .error (.xlate, a)
    | 8 => if o < 0x540 then otherBlock did (o / 64) ((domOf s (o / 64)).energy.getD (o % 64 / 8) 0) else .error (.xlate, a)
    | 9 => if o < 8 * 144 then
        let p := kget s.ports (o / 8) .reset
        .ok (b2n p.up + p.lanes * 2 + p.replays * 2 ^ 16 + p.switch * 2 ^ 48)
      else .error (.xlate, a)
    | _ => .error (.xlate, a)

/-- A store of a record's doubleword of a core block (R420, R421). DEDUCED: log entry 17. -/
def storeCore (s : State) (c o v : Nat) : Except (Cause × Word) (Option State) :=
  if 4096 ≤ c then
    let ch := c - 4096
    if o < 0x540 then
      let d := o / 64
      if o % 64 / 8 = 2 then
        let m := bits v 7 0
        match (List.range 21).find? (fun e => e != d && ((domBank s ch e).bslots &&& m) != 0) with
        | some e => .error (refuse e c (lowBit ((domBank s ch e).bslots &&& m)))
        | none => .ok (some (updBank s ch (fun b => { b with doms := kset b.doms d { kget b.doms d .reset with bslots := m } })))
      else if o % 64 / 8 < 4 then .ok (some s) else .ok none
    else if 0x600 ≤ o ∧ o < 0x640 then .ok (some s) else .ok none
  else if o < 0x540 then
    let d := o / 64
    match o % 64 / 8 with
    | 0 =>
      let q := bits v 39 32
      let ac := bits v 47 40
      let op := bits v 63 48
      match maskClash s c d q (·.qmask), maskClash s c d ac (·.accm), maskClash s c d op (·.opsm) with
      | some e, _, _ => .error (refuse e.1 c e.2)
      | _, some e, _ => .error (refuse e.1 c e.2)
      | _, _, some e => .error (refuse e.1 c e.2)
      | none, none, none => .ok (some (setMasks s c d q ac op))
    | 1 =>
      let sp := bits v 15 0
      let ws := bits v 31 16
      let lb := bits v 37 32
      let ln := bits v 46 40
      let sq := bits v 54 48
      let mb := bits v 62 56
      let k := domCore s c d
      let total (f : DomCore → Nat) (x : Nat) : Nat := (List.range 21).foldl (fun a e => a + if e = d then x else f (domCore s c e)) 0
      match maskClash s c d sp (·.spbank), maskClash s c d ws (·.wsg),
          (List.range 21).find? (fun e => e != d && decide ((domCore s c e).l1n ≠ 0 ∧ ln ≠ 0 ∧ (domCore s c e).l1base < lb + ln ∧ lb < (domCore s c e).l1base + (domCore s c e).l1n)) with
      | some e, _, _ => .error (refuse e.1 c e.2)
      | _, some e, _ => .error (refuse e.1 c e.2)
      | _, _, some e => .error (refuse e c 0)
      | none, none, none =>
        if 64 < ln || 64 < lb + ln || 64 < sq || 64 < mb || 64 < total (·.strq) sq || 64 < total (·.mbox) mb
            || mb < (kget (coreOf s c).mbox d []).length then .error (refuse 0x1F c 0)
        else
          let s := if sp = k.spbank then s else setSpbank s c d sp
          let s := if ws = k.wsg then s else setWsg s c d ws
          let s := if lb = k.l1base ∧ ln = k.l1n then s else setL1 s c d lb ln
          let s := if mb = k.mbox then s else setMbox s c d mb
          .ok (some (if sq = k.strq then s else setStrq s c d sq))
    | 2 => .ok (some s)
    | 3 => .ok (some (forceRelease (forceRelease s c d false (bits v 15 0)) c d true (bits v 23 16)))
    | _ => .ok none
  else if 0x600 ≤ o ∧ o < 0x620 then
    let n := modeSlots (coreOf s c).mode
    let xs := (upto 0 8).map (fun i => (o - 0x600 + i, bits v (8 * i + 7) (8 * i)))
    let xs := xs.filter (fun x => decide (x.1 < n))
    match xs.find? (fun x => (x.2 != 0x1F && decide (20 < x.2)) || (x.1 == n - 1 && x.2 != 0x1F)) with
    | some x => .error (refuse 0x1F c x.1)
    | none => .ok (some (xs.foldl (fun s x => if (coreOf s c).slotown.getD x.1 0x1F = x.2 ∧ (coreOf s c).curown.getD x.1 0x1F = x.2 then s else setSlotown s c x.1 x.2) s))
  else if 0x620 ≤ o ∧ o < 0x640 then .ok (some s)
  else .ok none

/-- Lines found bad while no range held them that a range holds now: they are zeroed at their homes before it is in force, which clears the poison (R442); the other lines
keep their bytes. `old` is the state without the range. DEDUCED: log entry 120. -/
def zeroGranted (old s : State) : State :=
  (old.poison.filter (fun g => decide (64 * g < 2 ^ 40) && (rangeOf old (64 * g)).isNone && (rangeOf s (64 * g)).isSome)).foldl
    (fun s g => clearPoison (homePut s (64 * g) (List.replicate 64 0)) (64 * g) 64) s

/-- A memory range that another owner's range overlaps: the DID, a shared range's creator (R420). -/
def rangeClash (s : State) (skip : Nat × Nat) (b n : Nat) : Option Nat :=
  let meets (r : Nat × Nat) : Bool := decide (n ≠ 0 ∧ r.2 ≠ 0 ∧ r.1 < b + n * 2 ^ 21 ∧ b < r.1 + r.2 * 2 ^ 21)
  match (List.range 21).find? (fun d => ((domOf s d).ranges.zipIdx).any (fun x => (d, x.2) != skip && d != skip.1 && meets x.1)) with
  | some d => some d
  | none => ((List.range 11).find? (fun j => skip.1 != 100 + j && meets ((kget s.shared j .reset).base, (kget s.shared j .reset).len))).map
      (fun j => (kget s.shared j .reset).creator)

/-- A store of the package window (R420, R425, R431). Lines that a slice holds of a memory range that passes to another owner stay in the set range of the old one
until they are evicted. DESIGN CHOICE: log entry 99. -/
def storePkg (s : State) (o v : Nat) : Except (Cause × Word) (Option State) :=
  if o < 0x1500 then
    let d := o / 256
    match o % 256 / 8 with
    | 0 => .ok (some (updDom s d (fun b => { b with troot := bits v 47 12 * 4096 })))
    | 1 =>
      let l := bits v 3 0
      if l < 4 || 12 < l then .error (refuse 0x1F 0x1FFF 0) else .ok (some (updDom s d (fun b => { b with llease := l })))
    | 2 => .ok (some (updDom s d (fun b => { b with tvec := w64 (v / 2 * 2) })))
    | 3 => .ok (some (setSched s d v))
    | 4 =>
      let n := bits v 12 0
      if 4096 < (List.range 21).foldl (fun a e => a + if e = d then n else (domOf s e).pls) 0 then .error (refuse 0x1F 0x1FFF 0)
      else .ok (some (updDom s d (fun b => { b with pls := n })))
    | 5 => .ok (some (updDom s d (fun b => { b with resrec := bits v 47 0 })))
    | 6 =>
      let s := updDom s d (fun b => { b with rrn := bits v 31 16 })
      let s := if bit v 0 then askReset s d else s
      .ok (some (if bit v 1 then createDom s d else s))
    | 7 => .ok (some (setHport s d (bits v 0 0)))
    | 16 => .ok (some (updDom s d (fun b => { b with biastab := bits v 47 0 })))
    | n => if 8 ≤ n ∧ n < 16 then
        let i := (n - 8) / 2
        let r := (domOf s d).ranges.getD i (0, 0)
        let r' := if n % 2 = 0 then (bits v 47 21 * 2 ^ 21, r.2) else (r.1, bits v 31 0)
        match rangeClash s (d, i) r'.1 r'.2 with
        | some e => .error (refuse e 0x1FFF 0)
        | none => .ok (some (zeroGranted s (updDom s d (fun b => { b with ranges := b.ranges.set i r' }))))
      else .ok none
  else if 0x1800 ≤ o ∧ o < 0x1960 then
    let j := (o - 0x1800) / 32
    let r := kget s.shared j .reset
    match o % 32 / 8 with
    | 0 =>
      let b := bits v 47 21 * 2 ^ 21
      match rangeClash s (100 + j, 0) b r.len with
      | some e => .error (refuse e 0x1FFF 0)
      | none => .ok (some (zeroGranted s { s with shared := kset s.shared j { r with base := b } }))
    | 1 => match rangeClash s (100 + j, 0) r.base (bits v 31 0) with
      | some e => .error (refuse e 0x1FFF 0)
      | none => .ok (some (zeroGranted s { s with shared := kset s.shared j { r with len := bits v 31 0 } }))
    | 2 => if 20 < bits v 4 0 then .error (refuse 0x1F 0x1FFF 0) else .ok (some { s with shared := kset s.shared j { r with creator := bits v 4 0 } })
    | _ => .ok (some { s with shared := kset s.shared j { r with admits := bits v 20 0 } })
  else if 0x2000 ≤ o ∧ o < 0x4000 then
    let n := (o - 0x2000) / 32
    let g := kget s.gates n (0, 0)
    match o % 32 / 8 with
    | 0 => .ok (some { s with gates := kset s.gates n (w64 (v / 2 * 2), g.2) })
    | 1 => .ok (some { s with gates := kset s.gates n (g.1, w64 (bits v 4 0 + bits v 29 16 * 2 ^ 16 + bits v 52 32 * 2 ^ 32 + bits v 63 63 * 2 ^ 63)) })
    | _ => .ok (some s)
  else .ok none

/-- ST.D of a device window: the trap, or the state with the store in force (R242, R420 to R425, R443, R448, R449, R452, R461, R463, R464). -/
def devStore (s : State) (did : Nat) (a : Word) (x : Word) : Except (Cause × Word) State :=
  let (w, o) := windowOf a
  let v := x.toNat
  if privWindow w o && did != 0 then .error (.priv, a)
  else if o % 8 != 0 then .error (.xlate, a)
  else
    let out (x : Except (Cause × Word) (Option State)) : Except (Cause × Word) State := match x with
      | .ok (some s) => .ok s
      | .ok none => .error (.xlate, a)
      | .error e => .error e
    match w with
    | 1 => .error (if o < 0x540 then .prot else .xlate, a)
    | 2 => if o / 4096 < 4608 then out (storeCore s (o / 4096) (o % 4096) v) else .error (.xlate, a)
    | 3 =>
      if o < 2 ^ 20 && decide (o % 1024 < 256) then
        let h := o / 1024
        let i := o % 1024 / 8
        let k := bits v 19 16
        let b := bits v 8 0
        let en := bit v 31
        let clash := (List.range 32).find? (fun j =>
          let r := kget s.sets (h * 32 + j) 0
          j != i && en && bit r 31 && decide (bits r 8 0 < b + 2 ^ k ∧ b < bits r 8 0 + 2 ^ bits r 19 16))
        if 9 < k || b % 2 ^ k != 0 then .error (refuse 0x1F h i)
        else match clash with
          | some j => .error (refuse (if j < 21 then j else (kget s.shared (j - 21) .reset).creator) h i)
          | none => .ok (setRangeReg s h i (b + k * 2 ^ 16 + b2n en * 2 ^ 31))
      else .error (.xlate, a)
    | 4 => out (storePkg s o v)
    | 5 =>
      if o < 0x540 then
        if did != 0 then .error (.prot, a)
        else if o % 64 = 0 then .ok (updDom s (o / 64) (fun b => { b with rcore := bits v 11 0, rasEn := bit v 16, cerep := bit v 17 }))
        else .ok s
      else if o = 0x800 then (if did != 0 then .error (.prot, a) else .ok (if bit v 27 then healthClear s else s))
      else if (rasWindow s o).isSome then .error (.prot, a)
      else .error (.xlate, a)
    | 6 =>
      if o < 2048 * 21 then
        let i := o % 2048 / 8
        if i = 0 || i = 255 then .ok s
        else .ok { s with peers := kset s.peers (o / 2048 * 256 + i) (w64 (bits v 43 32 * 2 ^ 32 + bits v 52 48 * 2 ^ 48 + bits v 63 62 * 2 ^ 62)) }
      else .error (.xlate, a)
    | 8 => .error (if o < 0x540 then .prot else .xlate, a)
    | 0xA =>
      if o < 8 * 21 && o == 8 * did then msiRequest s did v
      else if 0x100 ≤ o ∧ o < 0x100 + 8 * 21 then .ok (updDom s ((o - 0x100) / 8) (fun b => { b with ctime := bits v 15 0, ccount := bits v 23 16 }))
      else .error (.xlate, a)
    | 0xB => if o = 0 then .ok (biasFlip s (bits v 47 12 * 4096) (bit v 0)) else .error (.xlate, a)
    | _ => .error (.xlate, a)

end Sys2Proof.Machine
end

