-- ==== Sys2Proof/Machine/Access.lean ====
section
/-! DEFINITION. The CORE-path accesses of a strand: where an address leads, loads with their copies and renewals, posted stores, and the
steps at the home that complete them. -/

namespace Sys2Proof.Machine

/-- Where a checked address leads. -/
inductive Place where
  /-- Offset of the local scratchpad. -/
  | spad (o : Nat)
  /-- Offset of the scratchpad of another core (R183). -/
  | remote (c o : Nat)
  /-- Physical address of the package or beyond. -/
  | mem (pa : Nat)
  /-- A register of a device window. -/
  | dev
  deriving DecidableEq, Repr

/-- The strand in turn is on a bank core (R395). -/
def onBank (s : State) : Bool := match s.me.seat with
  | .bank _ _ => true
  | _ => false

/-- The remote scratchpad window (R183): core and offset. -/
def remoteOf (a : Word) : Option (Nat × Nat) :=
  if wbits a 63 32 = 0xFF000000 ∧ wbits a 31 30 = 0 then some (wbits a 29 18, wbits a 17 0) else none

/-- Every check of one scalar access but its alignment and poison (R25, R26, R93, R183): where it leads, or its trap. -/
def placeOf (s : State) (a : Word) (n : Nat) (need : Need) (plain : Bool) : Except (Cause × Word) Place :=
  let d := s.me.did
  if isTranslated a then
    match checkVa s (holderOf s.me) d a.toNat need true with
    | .error e => .error e
    | .ok pa => .ok (.mem pa)
  else if isLocalSpad a then
    match checkSpad s s.me.core d (wbits a 17 0) n with
    | some e => .error e
    | none => .ok (.spad (wbits a 17 0))
  else if isDevice a then
    match remoteOf a with
    | some (c, o) =>
      if !plain || !exposed s c then .error (.xlate, a)
      else match checkSpad s c d o n with
        | some e => .error e
        | none => .ok (if c = s.me.core then .spad o else .remote c o)
    | none => .ok .dev
  else .error (.xlate, a)

/-- An access of a window that only DID 0 may access, from another DID (R420). -/
def privAccess (s : State) (a : Word) : Bool := isDevice a && privWindow (windowOf a).1 (windowOf a).2 && s.me.did != 0

/-- The first trap of a scalar access: a window of DID 0, alignment, then the checks of its place (R29, R93, R420). DEDUCED: log entry 36. -/
def accessTrap (s : State) (a : Word) (n : Nat) (need : Need) (plain : Bool) : Option (Cause × Word) :=
  firstTrap [chk (privAccess s a) .priv a, chk (a.toNat % n != 0) .misalign a, chkE (placeOf s a n need plain)]

/-- A strand eligible to migrate (R186). -/
def eligible (s : State) : Bool :=
  modeOfStrand s s.me == .m16 && s.me.z.toList.all (·.isNone) && !s.me.th && s.me.seat != .handler && s.me.gates.isEmpty

/-- The strand leaves as a migration packet for a destination that has granted it an entry, going on at `pc` (R187, R188); `counted` when the migration is an
instruction of its own, which YDL counts (R24). The times of its token registers, its obligations of FENCE.X and the times of its paths, which no field of the packet holds,
go with it. DEDUCED: log entry 115. -/
def sendPacket (s : State) (pc : Word) (dest : Nat) (counted : Bool) : State :=
  let s := chargeStrand (leaveLines s) s.me
  let t := { s.me with
    pc := pc, ydl := if counted then s.me.ydl - 1 else s.me.ydl, seat := .none, wait := .none, dest := none, mon := none, pre := none, tcause := 0, tval := 0, tpc := 0,
    v := Vector.replicate 16 0, h := s.me.tck, sf := s.me.tck, stale := [] }
  { s with me := .reset, live := false, packets := s.packets ++ [(t, dest)] }

/-- The request for a run-queue entry at a destination: 4096 + channel for a bank core (R187, R189). -/
def askEntry (s : State) (dest : Nat) : State :=
  let k := s.me.key
  if 4096 ≤ dest then updBank s (dest - 4096) (fun b => { b with asking := addNew b.asking k })
  else updCore s dest (fun c => { c with asking := addNew c.asking k })

/-- The migration itself, its checks passed (R184, R187): waits for results, acknowledgements and a granted entry, then the packet. `pc` is where the strand goes on.
From here on the destination stands, and no check is made again; an entry of another, which an access has asked for whose address has changed since, is given up. An
instruction that is executed at the destination stands in no line at the queues here any more (R196). -/
def migrate (s : State) (pc : Word) (dest : Nat) (counted : Bool) : Res :=
  let s := if s.me.dest.any (fun x => x.1 != dest) then stayHere s else s
  if !s.me.pend.isEmpty || !s.me.vpend.isEmpty || !s.me.posted.isEmpty then
    .hold (updMe s (fun t => { t with dest := some (t.dest.getD (dest, false)), wait := .retry }))
  else
    let s := raiseClock (leaveLines s) s.me.h
    if s.me.dest = some (dest, true) then .gone (sendPacket s pc dest counted)
    else .hold (updMe (askEntry s dest) (fun t => { t with dest := some (dest, false), wait := .grant }))

/-- The DRAM channel of a bank core's strand holds the address: its plain accesses there belong to the BANK path (R398). -/
def bankOwn (s : State) (pa : Nat) : Bool :=
  match s.me.seat with
  | .bank ch _ => namesDram pa && channelOf pa == ch
  | _ => false

/-- A walk that the access needs stalls in a maintenance interval (R262). -/
def stalls (s : State) (a : Word) : Bool := isTranslated a && !walkReady s (holderOf s.me) s.me.did a.toNat

/-- An access of `n` bytes waits for the walk of its address (R262), unless a trap that needs no walk comes before: that of a window of DID 0, or of its alignment (R29). -/
def accessStalls (s : State) (a : Word) (n : Nat) : Bool := stalls s a && a.toNat % n == 0

/-- The window through which an address names memory of another package (R451, R452): RDID. -/
def farRdid (s : State) (va : Word) : Nat :=
  match translate s (holderOf s.me) s.me.did va.toNat with
  | .ok (pa, _) => wbits (kget s.peers (s.me.did * 256 + bits pa 47 40) 0) 52 48
  | .error _ => 0

/-- An access beyond the package is charged to the fabric (R468); one to another package travels as a message, whose header names the rights it has there, the strand's
clock and the ERA, and which is kept until the other end acknowledges it (R286, R452, R457). -/
def sendMsgAt (s : State) (clock : Nat) (va : Word) (key : Nat) (op : RemoteOp) : State :=
  if !isFar key then s
  else if isPeer key then sendOut s s.me.did clock (farRdid s va) key op
  else chargeEnergy s s.me.did 2

/-- The same with the strand's present clock. -/
def sendMsg (s : State) (va : Word) (key : Nat) (op : RemoteOp) : State := sendMsgAt s s.me.tck va key op

/-- The state in which an access of the strand at a place begins, once what FENCE.X orders before its path is done (R275, R276, R398): for a strand on a bank core,
whose path is known by its address only. -/
def pathBegun (s : State) (p : Place) : Option State :=
  if !onBank s then some s
  else meetFences s [match p with
    | .mem pa => if bankOwn s pa then .bank else .core
    | .spad _ => .core
    | .remote _ _ => .core
    | .dev => .core]

/-- The strand in turn stands first at a queue of its core, until its load completes: it has begun before any that comes later (R78, R196). DESIGN CHOICE: log entry 90. -/
def firstInLine (s : State) (w : Nat) : State :=
  updCore s s.me.core (fun c => { c with qwait := kset c.qwait w (s.me.key :: (kget c.qwait w []).filter (· != s.me.key)) })

/-- A load is outstanding from now on (R97): nothing of it stands yet but its place at the queues that it reads and writes (R78). -/
def outstanding (s : State) (l : Load) : State :=
  let s := match l.pop with
    | some (false, q) => firstInLine s q
    | _ => s
  let s := match l.dest with
    | .queue q => firstInLine s (8 + q)
    | _ => s
  updMe s (fun t => { t with wait := .load, load := some l })

/-- The element that gave a load its address is popped as the load completes, and the clock is that with which it was sent (R78, R196, R314). -/
def popLoad (s : State) (l : Load) : State :=
  let s := match l.pop with
    | none => s
    | some (false, q) =>
      if bit (domCore s s.me.core s.me.did).qmask q then
        updCore s s.me.core (fun c => { c with queues := c.queues.setIfInBounds q ((c.queues.getD q []).drop 1) })
      else s
    | some (true, z) => match s.me.z.getD z none with
      | none => s
      | some x => updCtx s s.me.core x (fun t => match t.window with
        | [] => t
        | w :: rest => { t with window := rest, eidx := t.eidx + 1, part := foldElem t.srec t.rnd t.part w.1 })
  raiseClock s l.clock

/-- The value a load writes to a scalar register (R94). -/
def loadExt (signed : Bool) (n v : Nat) : Word := if signed then sext (8 * n) v else w64 v

/-- Data of a load written to its destination (R78, R94, R95): none when a queue or stream can no longer take it. -/
def loadWrite (s : State) (d : LoadDest) (signed : Bool) (n v : Nat) : Option State :=
  match d with
  | .reg r => some (setSreg s r (loadExt signed n v))
  | .pair r => some (setSreg (setSreg s r (w64 v)) (r + 1) (w64 (v / 2 ^ 64)))
  | .queue q =>
    let cs := coreOf s s.me.core
    let f := cs.queues.getD q []
    if f.length < 8 && bit (domCore s s.me.core s.me.did).qmask q then some (setCore s s.me.core { cs with
      queues := cs.queues.setIfInBounds q (f ++ [(loadExt signed n v, s.me.tck)])
      qwait := kset cs.qwait (8 + q) ((kget cs.qwait (8 + q) []).filter (· != s.me.key)) }) else none
  | .stream z => match s.me.z.getD z none with
    | some x =>
      if (ctxOf s s.me.core x).pushes.length < 64 then
        some (updCtx s s.me.core x (fun t => { t with pushes := t.pushes ++ [(loadExt signed n v).toNat], eidx := t.eidx + 1 }))
      else none
    | none => none

/-- A load has its data, in state `s`: written, and the strand goes on (R97, R266). Where the destination can no longer take it, because its queue has passed to
another DID or its stream has been unbound meanwhile, nothing of the load stands and it is issued again from `s0`. DESIGN CHOICE: log entry 90. -/
def loadDone (s0 s : State) (l : Load) (v : Nat) : State :=
  match loadWrite s l.dest l.signed l.n v with
  | some s => retireTo (leaveLines s) l.next
  | none => updMe (undoPre (leaveLines s0)) (fun t => { t with wait := .retry })

/-- A load at a place (R94 to R97, R184, R266, R398): data at once from scratchpad, a register or a leased copy, else an outstanding load. `s0` is the state in which
a queue or stream register that gave the address has not been popped, `s` the state after it; `pop` names that register. The migration makes no check of the
partition, which R187 gives MIG. DEDUCED: log entry 92. -/
def loadAt (s0 s : State) (a : Word) (n : Nat) (signed : Bool) (d : LoadDest) (ldD : Bool) (pop : Option (Bool × Nat)) (p : Place) : Res :=
  let l : Load := { va := a, key := 0, n, signed, dest := d, next := s.nextPc, clock := s.me.tck, remote := false, pop, id := s.nextId }
  let give (s : State) (v : Nat) : Res := match loadWrite s d signed n v with
    | some s => .done s
    | none => .wait .retry
  match p with
  | .spad o =>
    let k := spadKey s.me.core o
    if spadBusy s s.me.core o n s.me.did then .wait .retry
    else if poisonedAt s k n then .trap .poison a
    else give s (memVal s.mem k n)
  | .remote c o =>
    if s.me.migp.toNat % 4 = 1 && eligible s then migrate s0 s0.me.pc c false
    else .hold (outstanding s0 { l with key := spadKey c o, remote := true })
  | .dev =>
    if !ldD then (let (c, v) := devOther s.me.did a; .trap c v)
    else match devLoad s s.me.did a with
      | .error (c, v) => .trap c v
      | .ok v => give s v
  | .mem pa =>
    let s := tlbKeep s (holderOf s.me) s.me.did a.toNat
    let far : Res := .hold (outstanding (sendMsgAt (tlbKeep s0 (holderOf s.me) s.me.did a.toNat) s.me.tck a pa (.load n)) { l with key := pa })
    if bankOwn s pa then
      if poisonedAt s pa n then .trap .poison a
      else if inInterval s.gtc then .wait .retry
      else give (chargeEnergy s s.me.did 1) (overlayOwn s.me pa n (memVal s.mem pa n))
    else match l1Find s s.me.core s.me.did (pa / 64) with
      | some cp =>
        if s.me.tck ≤ cp.rts && !onBank s then
          let v := overlayOwn s.me pa n (leVal ((cp.data.drop (pa % 64)).take n))
          give (updMe s (fun t => { t with tck := max t.tck cp.wts + 1 })) v
        else far
      | none => far

/-- A load (R93, R262, R276, R397): its traps, the walk it needs, what FENCE.X orders before it, then the access. -/
def loadOp (s0 s : State) (a : Word) (n : Nat) (signed : Bool) (d : LoadDest) (ldD : Bool) (pop : Option (Bool × Nat)) : Res :=
  if onBank s && (isLocalSpad a || (remoteOf a).isSome) then .back
  else if accessStalls s a n then .wait .retry
  else match accessTrap s a n .read true with
  | some (c, v) => .trap c v
  | none => match placeOf s a n .read true with
    | .error (c, v) => .trap c v
    | .ok p => match pathBegun s p with
      | none => .wait .retry
      | some t => loadAt (if onBank s then t else s0) t a n signed d ldD pop p

/-- The home serves a fill or renewal for the strand in turn (R266): the state with the core's copy, the line's data and its wts. Where the line still has the wts of
the copy that the core holds, the reply carries no data and the copy keeps its own. The bytes moved are charged (R468). -/
def fetchCopy (s : State) (pa : Nat) : State × List Byte × Nat :=
  let ln := pa / 64
  let (s, w, r) := renew (chargeEnergy s s.me.did 1) ln s.me.tck s.me.did
  let data := match if onBank s then none else l1Find s s.me.core s.me.did ln with
    | some cp => if cp.wts = w then cp.data else homeLine s ln
    | none => homeLine s ln
  let s := if onBank s then s else l1Put s s.me.core ⟨s.me.did, ln, w, r, data⟩
  (s, data, w)

/-- What another package answers to one access (R454): a free value. DESIGN CHOICE: log entry 57. -/
def peerFault (s : State) : State × Option Cause :=
  ({ s with fresh := s.fresh + 1 }, (Config.peerFault s.fresh).bind (fun i => causeOf (i.val + 1)))

/-- The strand's earlier posted writes to a line have been performed (R206). DEDUCED: log entry 37. -/
def lineClear (s : State) (ln : Nat) : Bool :=
  s.me.posted.all (fun p => p.done.isSome || p.key / 64 != ln)

/-- The outstanding load of the strand in turn completes (R97, R266, R286, R454): renewal at the home, there or beyond the package, data, clock; in the latter case after the strand's earlier
writes to the line (R455). One of another package's memory takes the time of its reply and does not creep besides. DESIGN CHOICE: log entry 106. -/
def loadArrive (s : State) : State :=
  match s.me.load with
  | none => s
  | some l =>
    let s0 := updMe s (fun t => { t with load := none })
    let p := popLoad s0 l
    if l.remote || (isFar l.key && !lineClear s (l.key / 64)) || (isPeer l.key && inMajor s.gtc) then s
    else if isFar l.key then
      if poisonedAt s l.key l.n then takeTrap s0 s.me.pc .poison false l.va
      else
        let v := overlayOwn s.me l.key l.n (memVal s.mem l.key l.n)
        if isHost l.key then loadDone s0 p l v
        else match peerFault s0 with
          | (s1, some c) => takeTrap s1 s.me.pc c false l.va
          | (s1, none) =>
            let (u, w, _) := lease (popLoad s1 l) (l.key / 64) (p.me.tck + 1) s.me.did
            loadDone s1 (updMe u (fun m => { m with tck := max (m.tck + 1) w })) l v
    else if !homeReady s (l.key / 64) then s
    else if poisonedAt s l.key l.n then takeTrap s0 s.me.pc .poison false l.va
    else
      let (s1, data, w) := fetchCopy p l.key
      let v := overlayOwn s.me l.key l.n (leVal ((data.drop (l.key % 64)).take l.n))
      loadDone s0 (updMe s1 (fun t => { t with tck := max t.tck w + 1 })) l v

/-- No handler runs on a core: a hardware access may take its turn of the handler slot (R184, R192). -/
def handlerIdle (s : State) (c : Nat) : Bool :=
  !((strands s).any (fun t => !t.dead && t.core == c && t.seat == .handler))

/-- A hardware access or a message of a gang barrier that has come to a core is next at its handler slot: no handler runs, and no message that came before it waits
(R160, R184, R192). DEDUCED: log entry 109. -/
def handlerFree (s : State) (c : Nat) : Bool := handlerIdle s c && (coreOf s c).hq.isEmpty && (coreOf s c).hwait.isEmpty

/-- A remote scratchpad load of the strand in turn is performed at its target in one turn of the handler slot, after its earlier stores there (R184). -/
def remoteArrive (s : State) : State :=
  match s.me.load with
  | none => s
  | some l =>
    let c := (l.key - 2 ^ 48) / 2 ^ 18
    if !l.remote || !handlerFree s c || spadWaits s c (l.key % 2 ^ 18) l.n s.me.did l.id
        || s.me.posted.any (fun p => p.done.isNone && p.key / 2 ^ 18 == l.key / 2 ^ 18) then s
    else
      let s0 := updMe s (fun t => { t with load := none })
      if poisonedAt s l.key l.n then takeTrap s0 s.me.pc .poison false l.va
      else loadDone s0 (popLoad s0 l) l (memVal s.mem l.key l.n)

/-- The detached streams of the strand that hold back a store (R317), on whichever core they began: core and context of each. DEDUCED: log entry 14. -/
def heldBy (s : State) (va n : Nat) : List (Nat × Nat) :=
  s.cores.flatMap (fun c => (c.2.ctxs.filter (fun e => e.2.okey == s.me.key && e.2.state != 2 && remainingMeets s c.1 e.1 va n)).map (fun e => (c.1, e.1)))

/-- A stream already holds its 16 stores (R317). -/
def heldFull (s : State) (hs : List (Nat × Nat)) : Bool :=
  hs.any (fun h => decide (16 ≤ (s.me.posted.filter (fun p => p.done.isNone && p.held.contains h)).length))

/-- Stores that several streams would hold find no room among the 16 of one of them (R317): `hs` names, for each store, the streams that hold it. -/
def heldOver (s : State) (hs : List (List (Nat × Nat))) : Bool :=
  hs.flatten.any (fun h => decide (16 < (s.me.posted.filter (fun p => p.done.isNone && p.held.contains h)).length + (hs.filter (fun l => l.contains h)).length))

/-- A write of the strand goes on its way (R97, R205, R268). -/
def post (s : State) (op : PostOp) (key n v : Nat) (held : List (Nat × Nat)) (plain : Bool) : State :=
  let p : Posted := { id := s.nextId, op, key, n, val := v % 256 ^ n, clock := s.me.tck, floor := s.me.sf, core := if onBank s then 4096 else s.me.core, did := s.me.did,
                      far := isFar key, held, done := none, plain }
  let s := updMe s (fun t => { t with posted := t.posted ++ [p] })
  { s with nextId := s.nextId + 1 }

/-- The step that a write of the strand asks another package for (R286). -/
def postAsk (op : PostOp) (n v : Nat) : RemoteOp :=
  match op with
  | .store => .store n (v % 256 ^ n)
  | .red o => .red o n (v % 256 ^ n)
  | .bari => .bari v
  | .barx => .barx v

/-- The key that stands for a store to a device register on its way to its acknowledgement (R420). -/
def regKey : Nat := 2 ^ 52

/-- An earlier write of the strand in turn to some of n bytes from a key has not been performed yet. -/
def behindOwn (s : State) (k n : Nat) : Bool := s.me.posted.any (fun p => p.done.isNone && decide (p.key < k + n ∧ k < p.key + p.n))

/-- A store at a place (R94 to R97, R184, R268, R290, R317, R398, R420): performed at once in scratchpad, and by a bank core in its own channel unless a stream holds it
or an earlier own write to the bytes is still on its way, else posted; what it writes at once takes the place of own stores performed before it (R267). A store to another package is sent with the floor of FENCE.S in its clock (R274, R455). `s0` is the state before the operands were read, in which a strand that migrates leaves. DEDUCED: log entry 92. -/
def storeAt (s0 s : State) (a : Word) (n v : Nat) (stD : Bool) (p : Place) : Res :=
  match p with
  | .spad o =>
    if spadBusy s s.me.core o n s.me.did then .wait .retry
    else .done { s with mem := memPut s.mem (spadKey s.me.core o) (leBytes n v) }
  | .remote c o =>
    if s.me.migp.toNat % 4 = 1 && eligible s then migrate s0 s0.me.pc c false
    else .done (post s .store (spadKey c o) n v [] true)
  | .dev =>
    if !stD then (let (c, x) := storeOther s.me.did a; .trap c x)
    else match devStore s s.me.did a (w64 v) with
      | .error (c, x) => .trap c x
      | .ok t => .done (updMe { t with nextId := t.nextId + 1 } (fun m => { m with posted := m.posted ++
          [{ id := t.nextId, op := .store, key := regKey + wbits a 47 0, n := 8, val := v, clock := m.tck, floor := m.sf, core := m.core,
             did := m.did, far := false, held := [], done := some 0, plain := true }] }))
  | .mem pa =>
    let s := tlbKeep s (holderOf s.me) s.me.did a.toNat
    let hs := heldBy s a.toNat n
    if bankOwn s pa && hs.isEmpty && !behindOwn s pa n then
      if inInterval s.gtc then .wait .retry
      else .done (updMe { chargeEnergy s s.me.did 1 with mem := memPut s.mem pa (leBytes n v) } (fun t => supersede t (fun _ => true) pa n))
    else if heldFull s hs then .wait .retry
    else .done (sendMsgAt (patchWindows (post s .store pa n v hs (bankOwn s pa)) pa n v) (max s.me.tck s.me.sf) a pa (postAsk .store n v))

/-- A store (R93, R262, R276, R397): its traps at issue, the walk it needs, what FENCE.X orders before it, then the access. -/
def storeOp (s0 s : State) (a : Word) (n v : Nat) (stD : Bool) : Res :=
  if onBank s && (isLocalSpad a || (remoteOf a).isSome) then .back
  else if accessStalls s a n then .wait .retry
  else match accessTrap s a n .write true with
  | some (c, x) => .trap c x
  | none => match placeOf s a n .write true with
    | .error (c, x) => .trap c x
    | .ok p => match pathBegun s p with
      | none => .wait .retry
      | some t => storeAt s0 t a n v stD p

/-! ### Steps at the home -/

/-- The result of an operation of AMO, RED on words of n bytes (R203). -/
def amoApply (op : AmoOp) (n old y : Nat) : Nat :=
  let m := 2 ^ (8 * n)
  match op with
  | .add => (old + y) % m
  | .and => old &&& y
  | .or => old ||| y
  | .xor => old ^^^ y
  | .min => if sextN (8 * n) y < sextN (8 * n) old then y else old
  | .max => if sextN (8 * n) old < sextN (8 * n) y then y else old
  | .minu => min old y
  | .maxu => max old y
  | .swap => y
  | .faddBf16 => redAdd .bf16 old y
  | .faddF32 => redAdd .f32 old y

/-- The completion test of a barrier object's 32 bytes (R212). -/
def barrierTest (v : Nat) : Nat :=
  let ex := bits v 31 0
  let ph := bits v 63 32
  let ar := bits v 95 64
  let pb := bits v 183 128
  if ex ≤ ar && pb = 0 then setBits (setBits v 63 32 (ph + 1)) 95 64 (ar - ex) else v

/-- What a write of `v` to n bytes leaves of the bytes it meets (R205, R213). -/
def writeApply (op : PostOp) (n v old : Nat) : Nat :=
  match op with
  | .store => v
  | .red op => amoApply op n old v
  | .bari => setBits (setBits (setBits old 31 0 v) 95 64 0) 183 128 0
  | .barx => barrierTest (setBits old 183 128 (bits old 183 128 + v))

/-- What a posted write leaves of the bytes it meets. -/
def postApply (p : Posted) (old : Nat) : Nat := writeApply p.op p.n p.val old

/-- A barrier object's bits after one arrival (R212, R213). -/
def arriveApply (old : Nat) : Nat := barrierTest (setBits old 95 64 (bits old 95 64 + 1))

/-- The key names storage that is no memory: a scratchpad or a register. -/
def isUnit (k : Nat) : Bool := decide (2 ^ 48 ≤ k) && !isFar k

/-- A posted write of a strand may be performed now: earlier ones of the strand to its line have been (R206), no stream holds it (R317) or the one that did is recalled (R320), and its home is ready. -/
def postReady (s : State) (t : Strand) (p : Posted) : Bool :=
  p.done.isNone
    && (t.posted.takeWhile (fun q => q.id != p.id)).all (fun q => q.done.isSome || (q.key / 64 != p.key / 64 && !(isUnit p.key && q.key / 2 ^ 18 == p.key / 2 ^ 18)))
    && p.held.all (fun h => let x := ctxOf s h.1 h.2; !(x.okey == t.key && (x.state == 3 || x.state == 4 || x.state == 5) && !x.recalled
        && decide (x.eidx < streamLen x.srec)
        && (if streamLen x.srec - x.eidx ≤ 4096 then
              (upto x.eidx (streamLen x.srec - x.eidx)).any (fun i => match elemCheck s h.1 x i .read with
                | .ok pa => decide (pa < p.key + p.n ∧ p.key < pa + elemSize x.srec)
                | .error _ => false)
            else true)))
    && (isUnit p.key || homeReady s (p.key / 64)) && !(isPeer p.key && inMajor s.gtc) && !(p.plain && !isUnit p.key && inInterval s.gtc)

/-- A posted write is performed at its home (R202, R205, R212, R268, R286, R454): at the scratchpad of another core, in the arrays for one that a bank core made in its
own channel (R398), at a line's home, or beyond the package, where a fault discards it and counts in REMFAIL. DEDUCED: log entry 18. -/
def performPosted (s : State) (key id : Nat) : State :=
  match (strandOf s key).bind (fun t => (t.posted.find? (fun p => p.id == id)).map (fun p => (t, p))) with
  | none => s
  | some (t, p) =>
    if !postReady s t p then s
    else
      let mark (s : State) (w : Nat) : State :=
        updStrand s key (fun t => { t with posted := mapIf (fun q => q.id == id) (fun q => { q with done := some w }) t.posted })
      if isUnit p.key || p.plain then
        mark { (if p.plain && !isUnit p.key then chargeEnergy s p.did 1 else s) with mem := memPut s.mem p.key (leBytes p.n p.val) } 0
      else if isHost p.key then
        mark { s with mem := memPut s.mem p.key (leBytes p.n (postApply p (memVal s.mem p.key p.n))) } 0
      else match if p.far then peerFault s else (s, none) with
      | (s, some _) => addEnergy (updStrand s key (fun t => { t with posted := t.posted.filter (fun q => q.id != id) })) p.did 5 1
      | (s, none) =>
        let s := if p.far then s else demand s (p.key / 64) p.did
        let old := if p.far then memVal s.mem p.key p.n else homeVal s p.key p.n
        let x := timesOf s (p.key / 64)
        let fl := if p.op == .store then p.floor + 1 else 0
        let ws := max (max (p.clock + 1) fl) (x.rts + 1)
        let bs := leBytes p.n (postApply p old)
        let s := if p.far then { s with mem := memPut s.mem p.key bs } else homePut s p.key bs
        let s := wroteTimes s (p.key / 64) ws
        let s := if p.far then s else chargeEnergy (l1Store s p.core (p.key / 64) ws) p.did 1
        let s := mark s ws
        if p.op == .store then s else updStrand s key (fun t => supersede t (fun q => q.done.isSome && q.id != id) p.key p.n)

/-- An acknowledgement arrives (R269): its time joins the store horizon unless it carries none. DEDUCED: log entry 13. -/
def ackPosted (s : State) (key id : Nat) : State :=
  match (strandOf s key).bind (fun t => t.posted.find? (fun p => p.id == id)) with
  | none => s
  | some p =>
    match p.done with
    | none => s
    | some w =>
      if (regKey ≤ p.key && !isFar p.key && s.cores.any (fun e => !e.2.handover.isEmpty)) || (isPeer p.key && inMajor s.gtc) then s
      else
        let s := updStrand s key (fun t => supersede { t with
          posted := t.posted.filter (fun q => q.id != id)
          h := if p.plain then t.h else max t.h w } (fun q => decide (q.id < id)) p.key p.n)
        { s with others := s.others.filter (fun t => !(t.dead && t.posted.isEmpty)) }

/-- Every write the strand waits for at a scope is acknowledged (R202, R273, R274). DEDUCED: log entry 87. -/
def acked (s : State) (sc : Scope) : Bool :=
  s.me.posted.all (fun p => p.far && sc != .sys)

/-- Writes held back by releases of any scope but those beyond the package (R273). -/
def ackedAll (s : State) : Bool := acked s .pkg

/-- The turn passes to another strand for one operation, and comes back; an operation that changes nothing leaves the state as it was. -/
def asStrand (s : State) (key : Nat) (f : State → State) : State :=
  if s.live && s.me.key == key then f s
  else match s.others.find? (fun t => t.key == key) with
    | none => s
    | some t =>
      let k0 := s.me.key
      let rest := s.others.filter (fun x => x.key != key)
      let s0 : State := { s with me := t, live := true, others := if s.live then rest ++ [s.me] else rest }
      let s1 := f s0
      if s1 = s0 then s
      else
      let back := if s1.live then s1.others ++ [s1.me] else s1.others
      if s.live then match back.find? (fun x => x.key == k0 && !x.dead) with
        | some m => { s1 with me := m, live := true, others := back.filter (fun x => x.key != k0) }
        | none => { s1 with me := .reset, live := false, others := back }
      else { s1 with me := s.me, live := false, others := back }

end Sys2Proof.Machine
end

