-- ==== Sys2Proof/Machine/Flags.lean ====
section
/-! DEFINITION. Conditions: what the compares write into predicate bits. The machine keeps no flags (R77); predicate bits and the
non-finite flags of operand slots (R378) are all there is. -/

namespace Sys2Proof.Machine

/-- An integer condition (R82). -/
def condHolds {n : Nat} (k : Cond) (x y : BitVec n) : Bool :=
  match k with
  | .eq => x == y
  | .ne => x != y
  | .lt => x.slt y
  | .ltu => x.ult y
  | .ge => !x.slt y
  | .geu => !x.ult y

/-- A floating condition (R107, R143). -/
def fcondHolds (k : FCond) (x y : Num) : Bool :=
  match k with
  | .eq => eqNum x y
  | .lt => ltNum x y
  | .le => ltNum x y || eqNum x y
  | .un => isNan x || isNan y

/-- The non-finite flags of slot data and sidecar bytes (R378): BF16, E4M3, T8, T6, Scale in bits 0 to 4. `lead` is, for the second slot of a pair, the first four
bits of the 6-bit value that begins in the first slot, whose image goes on here (R364). -/
def nonfinFlags (lead : Option Nat) (data side : List Byte) : Nat :=
  let v := leVal data
  let n := data.length
  let t6 := match lead with
    | none => (v, n * 8 / 6)
    | some x => (x + 16 * v, (n * 8 + 4) / 6)
  b2n ((upto 0 (n / 2)).any (fun i => bits v (16 * i + 14) (16 * i + 7) == 0xFF))
    + 2 * b2n (data.any (fun b => b == 0x7F#8 || b == 0xFF#8))
    + 4 * b2n (data.any (fun b => b == 0x80#8))
    + 8 * b2n ((upto 0 t6.2).any (fun i => bits t6.1 (6 * i + 5) (6 * i) == 0x20))
    + 16 * b2n (side.any (fun b => b == 0xFF#8))

end Sys2Proof.Machine
end

