-- ==== Sys2Proof/Machine/Operands.lean ====
section
/-! DEFINITION. Scalar operands: registers, queue registers and stream registers, as R46, R78, R195, R196 and R312 to R316 give them,
and the shapes of instruction that are written with them. -/

namespace Sys2Proof.Machine

/-- The scalar registers an operand names. -/
def opReg : SOp → List Nat
  | .s r => [r.val]
  | .q _ => []
  | .z _ => []

/-- The operand is a queue or stream register (R46). -/
def isQz : SOp → Bool
  | .s _ => false
  | .q _ => true
  | .z _ => true

/-- The operand is a stream register. -/
def isZ : SOp → Bool
  | .s _ => false
  | .q _ => false
  | .z _ => true

/-- The issue of an instruction with scalar operands read and written (R46, R78, R193, R397): registers beside those of the operands may be given. -/
def opIssue (g : Guard) (rd wr : List SOp) (rdR wrR : List Nat) : Issue :=
  let qz := (rd ++ wr).any isQz
  { g, rd := rd.flatMap opReg ++ rdR, wr := wr.flatMap opReg ++ wrR, vregs := [], noTok := [], handler := !qz,
    bank := if qz then .ret else .run, begins := if (rd ++ wr).any isZ then [.stream] else [] }

/-- DOMAIN for a queue the strand's DID does not own (R195, R197, R419). -/
def queueTrap (s : State) (q : Nat) : Option (Cause × Word) :=
  let c := s.me.core
  if bit (domCore s c s.me.did).qmask q then none
  else some (.domain, descriptor (ownerBy (fun d => bit (domCore s c d).qmask q)) c q 0x05)

/-- The strand waits at a queue, behind those that began before it (R196), and nothing else of its instruction stands: key q to read, 8 + q to write. DEDUCED: log entry 22. -/
def queueWait (w : Nat) : Res :=
  .redo (fun s => updCore s s.me.core (fun c => { c with qwait := kset c.qwait w (addNew (kget c.qwait w []) s.me.key) }))

/-- The strand may be served at a queue: none began waiting before it (R196). -/
def queueTurn (s : State) (w : Nat) : Bool :=
  match kget (coreOf s s.me.core).qwait w [] with
  | [] => true
  | k :: _ => k == s.me.key

/-- The window of a stream is read anew, from a time on, before the pop is tried again (R314, R275). -/
def windowAgain (x fl : Nat) (raise : Bool) : Res :=
  .redo (fun s => updCtx s s.me.core x (fun t => { t with window := [], clk := if raise then max t.clk fl else t.clk }))

/-- The trap of a stream register that is read (`write` false) or written (R316), if it has one; that of its element is not known while a maintenance interval holds
the walk or the read back (R262). -/
def streamTrap (s : State) (z : Nat) (write : Bool) : Option (Cause × Word) :=
  match s.me.z.getD z none with
  | none => some (.stream, w64 (z + 0x10 * 2 ^ 8))
  | some x =>
    let t := ctxOf s s.me.core x
    if t.srec.write != write then some (.stream, w64 (z + 0x11 * 2 ^ 8))
    else if streamLen t.srec ≤ t.eidx then some (.stream, w64 (z + 0x12 * 2 ^ 8))
    else if (write || t.window.isEmpty) && walkReady s (ctxHolder s.me.core t) t.did (elemAddr t.srec t.eidx).toNat && (write || elemReady s s.me.core t t.eidx) then
      chkE (elemCheck s s.me.core t t.eidx (if write then .write else .read))
    else none

/-- The trap of an operand that is read, or written, whether it can be served yet or not (R78, R195, R316). -/
def opTrap (s : State) (write : Bool) (o : SOp) : Option (Cause × Word) :=
  match o with
  | .s _ => none
  | .q i => queueTrap s i.val
  | .z i => streamTrap s i.val write

/-- Where an instruction of operands `rd` and `wr` traps, the first cause of all that apply in the state at issue `s` (R29); `more` are its further checks. -/
def ranked (s : State) (rd wr : List SOp) (more : List (Option (Cause × Word))) (r : Res) : Res :=
  match r with
  | .trap c v => match firstTrap (rd.map (opTrap s false) ++ wr.map (opTrap s true) ++ more ++ [some (c, v)]) with
    | some (c', v') => .trap c' v'
    | none => .trap c v
  | r => r

/-- A pop from a stream register (R262, R312 to R316): its trap, its wait, or the element and the state after it. DEDUCED: log entry 72. -/
def streamPop (s : State) (z : Nat) (k : State → Word → Res) : Res :=
  match s.me.z.getD z none with
  | none => .trap .stream (w64 (z + 0x10 * 2 ^ 8))
  | some x =>
    let c := s.me.core
    let t := ctxOf s c x
    if t.srec.write then .trap .stream (w64 (z + 0x11 * 2 ^ 8))
    else if streamLen t.srec ≤ t.eidx then .trap .stream (w64 (z + 0x12 * 2 ^ 8))
    else
      let fl := kget s.me.floors 3 0
      match (t.window.dropWhile (fun w => decide (w.2.1 < fl))) with
      | (e, tl, _) :: rest =>
        if t.window.length = rest.length + 1 then
          let part := foldElem t.srec t.rnd t.part e
          let v := if t.srec.op = 0 then elemExt t.srec e else part
          k (raiseClock (updCtx s c x (fun t => { t with window := rest, eidx := t.eidx + 1, part := part })) tl) (w64 v)
        else windowAgain x fl true
      | [] =>
        if !walkReady s (ctxHolder c t) t.did (elemAddr t.srec t.eidx).toNat then .wait .retry
        else match elemCheck s c t t.eidx .read with
        | .error (e, v) => if e == .poison && !elemReady s c t t.eidx then .wait .retry else .trap e v
        | .ok _ => windowAgain x fl (!t.window.isEmpty)

/-- An operand read (R46, R78): a register, or one element popped. DEDUCED: log entry 72. -/
def withRead (s : State) (o : SOp) (k : State → Word → Res) : Res :=
  match o with
  | .s r => k s (sreg s r.val)
  | .q i =>
    match queueTrap s i.val with
    | some (c, v) => .trap c v
    | none =>
      let cs := coreOf s s.me.core
      match cs.queues.getD i.val [] with
      | [] => queueWait i.val
      | (x, t) :: rest =>
        if !queueTurn s i.val then queueWait i.val
        else
          let cs := { cs with queues := cs.queues.setIfInBounds i.val rest, qwait := kset cs.qwait i.val ((kget cs.qwait i.val []).filter (· != s.me.key)) }
          k (raiseClock (setCore s s.me.core cs) t) x
  | .z i => streamPop s i.val k

/-- A destination that cannot be served yet, or faults: what stops the instruction before anything of it happens (R78, R262, R316). -/
def writeStop (s : State) (o : SOp) : Option Res :=
  match o with
  | .s _ => none
  | .q i =>
    match queueTrap s i.val with
    | some (c, v) => some (.trap c v)
    | none =>
      if ((coreOf s s.me.core).queues.getD i.val []).length < 8 && queueTurn s (8 + i.val) then none else some (queueWait (8 + i.val))
  | .z i =>
    match s.me.z.getD i.val none with
    | none => some (.trap .stream (w64 (i.val + 0x10 * 2 ^ 8)))
    | some x =>
      let t := ctxOf s s.me.core x
      if !t.srec.write then some (.trap .stream (w64 (i.val + 0x11 * 2 ^ 8)))
      else if streamLen t.srec ≤ t.eidx then some (.trap .stream (w64 (i.val + 0x12 * 2 ^ 8)))
      else if !walkReady s (ctxHolder s.me.core t) t.did (elemAddr t.srec t.eidx).toNat then some (.wait .retry)
      else match elemCheck s s.me.core t t.eidx .write with
        | .error (c, v) => some (.trap c v)
        | .ok _ => if 64 ≤ t.pushes.length then some (.wait .retry) else none

/-- A destination written (R46, R78): a register, or one element pushed with the strand's clock (R196). -/
def putOp (s : State) (o : SOp) (v : Word) : State :=
  match o with
  | .s r => setSreg s r.val v
  | .q i => updCore s s.me.core (fun c => { c with
      queues := c.queues.setIfInBounds i.val (c.queues.getD i.val [] ++ [(v, s.me.tck)])
      qwait := kset c.qwait (8 + i.val) ((kget c.qwait (8 + i.val) []).filter (· != s.me.key)) })
  | .z i =>
    match s.me.z.getD i.val none with
    | none => s
    | some x => updCtx s s.me.core x (fun t => { t with pushes := t.pushes ++ [v.toNat], eidx := t.eidx + 1 })

/-- The value an operand would be read as, where it can be served now. -/
def peekOp (s : State) (o : SOp) : Option Word :=
  match withRead s o (fun t x => .jump t x) with
  | .jump _ x => some x
  | _ => none

/-- The register a load's address is popped from, if any (R78). -/
def popOf : SOp → Option (Bool × Nat)
  | .s _ => none
  | .q i => some (false, i.val)
  | .z i => some (true, i.val)

/-- A result written to an operand, once it can be. -/
def withWrite (s : State) (o : SOp) (v : Word) : Res :=
  match writeStop s o with
  | some r => r
  | none => .done (putOp s o v)

/-- `a := f b c` over scalar operands. -/
def op3 (g : Guard) (a b c : SOp) (f : State → Word → Word → Word) : State → Host.Outcome State Fault Refusal :=
  issue (opIssue g [b, c] [a] [] []) (fun s => ranked s [b, c] [a] []
    (withRead s b (fun s x => withRead s c (fun s y => withWrite s a (f s x y)))))

/-- `a := f b` over scalar operands. -/
def op2 (g : Guard) (a b : SOp) (f : State → Word → Word) : State → Host.Outcome State Fault Refusal :=
  issue (opIssue g [b] [a] [] []) (fun s => ranked s [b] [a] [] (withRead s b (fun s x => withWrite s a (f s x))))

/-- `s[a] := f s[a] b`: the forms that read their destination, a register (R78). -/
def opRmw (g : Guard) (a : SReg) (b : SOp) (f : State → Word → Word → Word) : State → Host.Outcome State Fault Refusal :=
  issue (opIssue g [b] [] [a.val] [a.val]) (fun s =>
    withRead s b (fun s x => .done (setSreg s a.val (f s (sreg s a.val) x))))

/-- `s[a] := f s[a] b c`. -/
def opRmw3 (g : Guard) (a : SReg) (b c : SOp) (f : State → Word → Word → Word → Word) : State → Host.Outcome State Fault Refusal :=
  issue (opIssue g [b, c] [] [a.val] [a.val]) (fun s => ranked s [b, c] [] []
    (withRead s b (fun s x => withRead s c (fun s y => .done (setSreg s a.val (f s (sreg s a.val) x y))))))

/-- `P[a] := f b c`. -/
def opPred (g : Guard) (a : PBit) (b c : SOp) (f : Word → Word → Bool) : State → Host.Outcome State Fault Refusal :=
  issue (opIssue g [b, c] [] [] []) (fun s => ranked s [b, c] [] []
    (withRead s b (fun s x => withRead s c (fun s y => .done (setPbit s a.val (f x y))))))

end Sys2Proof.Machine
end

