-- ==== Sys2Proof/Machine/Streams.lean ====
section
/-! DEFINITION. Page 4: the stream instructions. -/

namespace Sys2Proof.Machine

/-- The issue of an engine instruction of pages 4, 5 and 6: ILLEGAL in a handler, the return trap on a bank core (R193, R397). -/
def engineIssue (g : Guard) (rd wr : List Nat) (begins : List Path) : Issue :=
  { g, rd, wr, vregs := [], noTok := [], handler := false, bank := .ret, begins }

/-- A STREAM trap value (R316, R325): a stream register and a code. -/
def streamVal (z code : Nat) : Word := w64 (z + code * 2 ^ 8)

/-- A handle resolved on the strand's core (R325): the context's number, or the trap. -/
def resolveHandle (s : State) (h : Word) : Except (Cause × Word) Nat :=
  let c := s.me.core
  if wbits h 63 63 = 0 || wbits h 62 34 != 0 || wbits h 17 6 != c then .error (.stream, streamVal 0 0x13)
  else
    let x := wbits h 5 0
    let t := ctxOf s c x
    if t.state != 0 && t.did != s.me.did then .error (.domain, descriptor t.did c x 0x06)
    else if t.state = 0 || t.ser != wbits h 33 18 then .error (.stream, streamVal 0 0x13)
    else .ok x

/-- An address that the device writes later on the strand's behalf, checked as an 8-byte store (R93): it may not lie beyond the package (R453). -/
def laterStore (s : State) (a : Word) : Option (Cause × Word) :=
  firstTrap [chk (a.toNat % 8 != 0) .misalign a,
    if isTranslated a then chkE (checkVa s (holderOf s.me) s.me.did a.toNat .write false)
    else if isLocalSpad a then checkSpad s s.me.core s.me.did (wbits a 17 0) 8
    else if isDevice a then some (devOther s.me.did a)
    else some (.xlate, a)]

/-- SDEF: a context defined from a record of the local scratchpad (R306, R326), which the strand reads on the CORE path as it reads any of its own (R276). -/
def execSdef (g : Guard) (a : SReg) (b : SReg) : State → Host.Outcome State Fault Refusal :=
  issue (engineIssue g [b.val] [a.val] [.core]) (fun s =>
    let rp := sreg s b.val
    let c := s.me.core
    let o := wbits rp 17 0
    let k := spadKey c o
    let inside := isLocalSpad rp && decide (o + 96 ≤ 2 ^ 18)
    if inside && spadBusy s c o 96 s.me.did then .wait .retry
    else match firstTrap [chk (!inside) .xlate rp, chk (rp.toNat % 32 != 0) .misalign rp,
        if inside then checkSpad s c s.me.did o 96 else none,
        chk (inside && poisonedAt s k 96) .poison rp,
        chk (inside && (checkSpad s c s.me.did o 96).isNone && !poisonedAt s k 96 && !recOk (memVal s.mem k 96)) .stream (streamVal 0 0x14)] with
    | some (e, v) => .trap e v
    | none =>
      let used := ((coreOf s c).ctxs.filter (fun e => e.2.state != 0 && e.2.did == s.me.did)).length
      match (List.range 64).find? (fun x => (ctxOf s c x).state == 0) with
      | some x =>
        if (domCore s c s.me.did).strq ≤ used then .done (setSreg s a.val 0)
        else
          let r := parseRec (memVal s.mem k 96)
          let ser := ((ctxOf s c x).ser + 1) % 2 ^ 16
          let t : Ctx := { Ctx.reset with state := 1, loc := c, did := s.me.did, owner := s.me.sid, ser, part := partInit r, srec := r, rnd := s.me.rnd, okey := s.me.key }
          .done (setSreg (updCtx s c x (fun _ => t)) a.val (w64 (handleOf c x t)))
      | none => .done (setSreg s a.val 0))

/-- An instruction that names a stream by its handle in s[b] (R325): `k` gets the context's number. -/
def withHandle (g : Guard) (rd wr : List Nat) (b : SReg) (begins : List Path) (k : State → Nat → Res) : State → Host.Outcome State Fault Refusal :=
  issue (engineIssue g (b.val :: rd) wr begins) (fun s => match resolveHandle s (sreg s b.val) with
    | .error (c, v) => .trap c v
    | .ok x => k s x)

/-- SBIND (R312, R327). -/
def execSbind (g : Guard) (a : ZReg) (b : SReg) : State → Host.Outcome State Fault Refusal :=
  withHandle g [] [] b [.stream] (fun s x =>
    let t := ctxOf s s.me.core x
    if (s.me.z.getD a.val none).isSome || t.state != 1 then .trap .stream (streamVal a.val 0x15)
    else if t.srec.sink != 0 || (!t.srec.write && t.srec.fpol == 2) then .trap .stream (streamVal a.val 0x14)
    else
      let ts := max s.me.tck (kget s.me.floors 3 0)
      let s := updCtx s s.me.core x (fun t => { t with state := 2, zreg := a.val, owner := s.me.sid, okey := s.me.key, tstart := ts, era := s.era, clk := ts, tc := ts })
      .done (updMe s (fun m => { m with z := m.z.setIfInBounds a.val (some x) })))

/-- SGO: a release, then the detached run from the strand's clock (R317, R328). -/
def execSgo (g : Guard) (b : SReg) : State → Host.Outcome State Fault Refusal :=
  withHandle g [] [] b [.stream] (fun s x =>
    let t := ctxOf s s.me.core x
    if t.recalled || (t.srec.sink == 2 && stalls s (w64 t.srec.sinka)) || (t.srec.cword != 0 && stalls s (w64 t.srec.cword)) then .wait .retry
    else match firstTrap [chk (t.state != 1 && t.state != 6) .stream (streamVal 0 0x15), chk (t.srec.write || t.srec.op == 0) .stream (streamVal 0 0x14),
        if t.srec.sink = 2 then laterStore s (w64 t.srec.sinka) else none,
        if t.srec.cword = 0 then none else laterStore s (w64 t.srec.cword)] with
    | some (c, v) => .trap c v
    | none =>
      if !acked s .sys then .wait .retry
      else
        let s := raiseClock s s.me.h
        let ts := max s.me.tck (kget s.me.floors 3 0)
        let s := updCtx s s.me.core x (fun t => { t with state := 3, lock := 0, loc := s.me.core, owner := s.me.sid, okey := s.me.key, tstart := ts, era := s.era,
                                                         clk := ts, tc := max t.tc ts, recalled := false })
        .done (if streamLen t.srec ≤ t.eidx then endCtx s s.me.core x else s))

/-- SRECALL: recalls and waits until the context is home (R320, R329). -/
def execSrecall (g : Guard) (b : SReg) : State → Host.Outcome State Fault Refusal :=
  withHandle g [] [] b [] (fun s x =>
    let t := ctxOf s s.me.core x
    if t.state = 2 then .trap .stream (streamVal 0 0x15)
    else if t.state == 3 || t.state == 4 || t.state == 5 then
      .hold (updMe (updCtx s s.me.core x (fun t => { t with recalled := true })) (fun m => { m with wait := .retry }))
    else if t.state == 6 || t.state == 7 then .done (raiseClock s (if t.state = 7 then t.tc else t.clk))
    else .done s)

/-- SSTAT: a doubleword of the context (R311, R330). -/
def execSstat (g : Guard) (a : SReg) (b : SReg) : State → Host.Outcome State Fault Refusal :=
  withHandle g [a.val] [a.val] b [] (fun s x =>
    let t := ctxOf s s.me.core x
    let s' := if t.state = 7 then raiseClock s t.tc else s
    .done (setSreg s' a.val (w64 (ctxWord t ((sreg s a.val).toNat % 8)))))

/-- SWAIT on a handle (R331): `k` is the handle as it was read. -/
def swaitBody (s : State) (h : Word) : Res :=
  match resolveHandle s h with
  | .error (c, v) => .trap c v
  | .ok x =>
    let t := ctxOf s s.me.core x
    if t.state == 1 || t.state == 2 then .trap .stream (streamVal 0 0x15)
    else if t.state = 6 then .done s
    else if t.state = 7 then .done (raiseClock s t.tc)
    else if t.state = 8 then .trap .stream (streamVal 0 0x16)
    else .hold (updMe s (fun m => { m with wait := .swait, wnext := s.nextPc, wkey := 0, wval := h.toNat }))

/-- SWAIT: waits until the stream stops (R331). -/
def execSwait (g : Guard) (b : SReg) : State → Host.Outcome State Fault Refusal :=
  issue (engineIssue g [b.val] [] []) (fun s => swaitBody s (sreg s b.val))

/-- A stopped run that is not complete reports in its CWORD when it is freed (R332). -/
def freeReports (t : Ctx) : Bool := t.state == 6 && decide (t.eidx < streamLen t.srec)

/-- A context freed by SFREE (R332): CWORD for a stopped run that is not complete, the register unbound. -/
def sfreeCtx (s : State) (x : Nat) : State :=
  let c := s.me.core
  let t := ctxOf s c x
  let s := if t.state = 2 then updStrand s t.okey (fun o => { o with z := o.z.map (fun z => if z == some x then none else z) }) else s
  let s := if freeReports t then
      cwWrite s t.did t.srec.cword (t.eidx % 2 ^ 32 * 2 ^ 32 + 0x0E * 2 ^ 8 + 2) t.clk else s
  updCtx s c x freeCtx

/-- SFREE (R332). The strand's clock takes the time of the last push of a write stream, so that its CORE-path loads see what it has pushed (R315).
DEDUCED: log entry 96. -/
def execSfree (g : Guard) (b : SReg) : State → Host.Outcome State Fault Refusal :=
  withHandle g [] [] b [] (fun s x =>
    let t := ctxOf s s.me.core x
    if (t.state = 2 && !t.pushes.isEmpty) || (freeReports t && t.srec.cword != 0 && !devReady s t.did t.srec.cword) then .wait .retry
    else if t.state == 3 || t.state == 4 || t.state == 5 then
      .hold (updMe (updCtx s s.me.core x (fun t => { t with recalled := true })) (fun m => { m with wait := .retry }))
    else .done (sfreeCtx (if t.state == 2 && t.srec.write then raiseClock s t.tc else s) x))

end Sys2Proof.Machine
end

