-- ==== Sys2Proof/Machine/Copy.lean ====
section
/-! DEFINITION. Page 5: the tensor copy engine: shape records, boxes, issue, bursts and completion. -/

namespace Sys2Proof.Machine

/-! ### Shape records and box descriptors, as numbers of 1,024 and 512 bits (R343, R346) -/

/-- One bit of the reflected CRC-32C, eight times (R343). -/
def crcStep : Nat → Nat → Nat
  | 0, c => c
  | n + 1, c => crcStep n (if c % 2 = 1 then c / 2 ^^^ 0x82F63B78 else c / 2)

/-- CRC-32C of bytes (R343). -/
def crc32c (bs : List Byte) : Nat :=
  (bs.foldl (fun c b => crcStep 8 (c ^^^ b.toNat)) 0xFFFFFFFF) ^^^ 0xFFFFFFFF

/-- FMT of a shape record. -/
def shFmt (r : Nat) : Nat := bits r 99 96
/-- RANK. -/
def shRank (r : Nat) : Nat := bits r 102 100
/-- FILL. -/
def shFill (r : Nat) : Nat := bits r 105 104
/-- SWZ. -/
def shSwz (r : Nat) : Nat := bits r 109 108
/-- BASE. -/
def shBase (r : Nat) : Nat := bits r 191 128
/-- SIZEk. -/
def shSize (r k : Nat) : Nat := bits r (192 + 128 * k + 31) (192 + 128 * k)
/-- STRIDEk. -/
def shStride (r k : Nat) : Int := sextN 64 (bits r (256 + 128 * k + 63) (256 + 128 * k))

/-- Element size of a format code (R343). -/
def fmtSize : Nat → Nat
  | 0 => 2 | 5 => 16 | 6 => 16 | 7 => 4
  | _ => 1

/-- The form of R344 apart from MAGIC and CRC. -/
def shForm (r : Nat) : Bool :=
  let es := fmtSize (shFmt r)
  let rank := shRank r
  shFmt r < 8 && !bit r 103 && !bit r 107 && bits r 127 110 == 0 && bits r 1023 832 == 0
    && decide (1 ≤ rank ∧ rank ≤ 5) && shFill r != 3
    && !(shFill r == 2 && (shFmt r == 3 || shFmt r == 5 || shFmt r == 6))
    && shBase r % es == 0
    && (upto 0 5).all (fun k => bits r (192 + 128 * k + 63) (192 + 128 * k + 32) == 0 && shStride r k % (es : Int) == 0
      && (if k < rank then decide (1 ≤ shSize r k) else shSize r k == 0 && shStride r k == 0))

/-- MAGIC (R343). -/
def shMagic (r : Nat) : Bool := bits r 31 0 == 0x53484150

/-- The record is sealed (R344). -/
def sealed (r : Nat) : Bool := shMagic r && shForm r && bits r 63 32 == crc32c ((leBytes 128 r).drop 8)

/-- ORGk of a box descriptor (R346). -/
def bxOrg (d k : Nat) : Int := sextN 32 (bits d (64 + 32 * k + 31) (64 + 32 * k))
/-- EXTk. -/
def bxExt (d k : Nat) : Nat := if k = 4 then bits d 255 224 else bits d (256 + 32 * k + 31) (256 + 32 * k)
/-- LADDR. -/
def bxAddr (d : Nat) : Nat := bits d 63 0
/-- BAR. -/
def bxBar (d : Nat) : Nat := bits d 447 384
/-- MASK. -/
def bxMask (d : Nat) : Nat := bits d 511 448

/-- E, the elements of the box (R347). -/
def boxLen (d : Nat) : Nat := bxExt d 0 * bxExt d 1 * bxExt d 2 * bxExt d 3 * bxExt d 4

/-- Indices of element n along dimensions k and up (R347). -/
def boxIdx (d : Nat) : Nat → Nat → Nat → List Nat
  | 0, _, _ => []
  | f + 1, k, n => n % bxExt d k :: boxIdx d f (k + 1) (n / bxExt d k)

/-- The virtual address of element n, or none outside the tensor (R347). -/
def boxElem (r d n : Nat) : Option Nat :=
  let cs := ((boxIdx d 5 0 n).zipIdx).map (fun (x : Nat × Nat) => (x.2, bxOrg d x.2 + (x.1 : Int)))
  let cs := cs.filter (fun x => decide (x.1 < shRank r))
  if cs.all (fun x => decide (0 ≤ x.2 ∧ x.2 < (shSize r x.1 : Int))) then
    some (cs.foldl (fun a x => a + x.2 * shStride r x.1) (shBase r : Int)).toNat
  else none

/-- ROWB (R349). -/
def rowBytes (r d : Nat) : Nat := bxExt d 0 * fmtSize (shFmt r)

/-- The scratchpad offset of local byte q through the swizzle (R349). -/
def swizzle (r d q : Nat) : Nat :=
  let o := bxAddr d % 2 ^ 18 + q
  let row := q / rowBytes r d
  match shSwz r with
  | 1 => setBits o 5 4 (bits o 5 4 ^^^ row % 4)
  | 2 => setBits o 6 4 (bits o 6 4 ^^^ row % 8)
  | 3 => setBits o 17 14 (bits o 17 14 + row)
  | _ => o

/-- The scratchpad banks a box touches, in order of its rows (R350). -/
def boxBanks (r d : Nat) : List Nat :=
  let nb := boxLen d * fmtSize (shFmt r)
  let lo := bxAddr d % 2 ^ 18
  if nb = 0 then []
  else if shSwz r = 3 then
    (upto 0 (ceilDiv nb (rowBytes r d))).foldl (fun acc row =>
      let a := lo + row * rowBytes r d
      let b := min (a + rowBytes r d) (lo + nb) - 1
      (upto (a / 2 ^ 14) (b / 2 ^ 14 - a / 2 ^ 14 + 1)).foldl (fun acc k => addNew acc ((k + row) % 16)) acc) []
  else upto (lo / 2 ^ 14) ((lo + nb - 1) / 2 ^ 14 - lo / 2 ^ 14 + 1)

/-- The least and greatest address of the box's elements in the tensor, or none when there are none (R348). -/
def boxSpan (r d : Nat) : Option (Int × Int) :=
  if boxLen d = 0 then none
  else (upto 0 (shRank r)).foldl (fun acc k => acc.bind (fun (x : Int × Int) =>
    let a := max (bxOrg d k) 0
    let b := min (bxOrg d k + (bxExt d k : Int)) (shSize r k : Int) - 1
    if b < a then none
    else some (x.1 + min (a * shStride r k) (b * shStride r k), x.2 + max (a * shStride r k) (b * shStride r k))))
    (some ((shBase r : Int), (shBase r : Int)))

/-- The box lies inside the tensor (R348). -/
def boxInside (r d : Nat) : Bool :=
  (upto 0 (shRank r)).all (fun k => decide (0 ≤ bxOrg d k ∧ bxOrg d k + (bxExt d k : Int) ≤ (shSize r k : Int)))

/-- The fill value of an element (R348). -/
def fillVal (r : Nat) : Nat :=
  if shFill r = 2 then match shFmt r with
    | 0 => 0x7FC0 | 1 => 0x7F | 2 => 0x80 | 4 => 0x20 | 7 => 0x7FC00000
    | _ => 0
  else 0

/-! ### Operand slots (R378, R387) -/

/-- The non-finite flags of what a slot holds (R378). -/
def slotFlags (s : State) (c m : Nat) : Nat :=
  nonfinFlags (if m % 2 = 1 then some ((memGet s.mem (slotKey c (m - 1) 8191)).toNat / 16) else none) (memBytes s.mem (slotKey c m 0) 8192)
    (memBytes s.mem (sideKey c m 0) 512)

/-- A slot's non-finite flags set from what it holds, and those of the second slot of its pair, into which its last 6-bit value reaches (R364, R378). -/
def flagSlot (s : State) (c m : Nat) : State :=
  updCore s c (fun cs => { cs with nonfin := (if m % 2 = 1 then [m] else [m, m + 1]).foldl (fun k i => kset k i (slotFlags s c i)) cs.nonfin })

/-- Granules that a set of single writes covers wholly lose their poison (R441): `ks` are the keys of elements of n bytes. -/
def coverPoison (s : State) (ks : List Nat) (n : Nat) : State :=
  if s.poison.isEmpty then s
  else { s with poison := s.poison.filter (fun g => decide (((ks.foldl addNew []).filter (fun k => k / 64 == g)).length * n < 64)) }

/-! ### Issue (R350 to R353) -/

/-- A line as the CORE path reads it for TSEAL: a leased copy or its home (R266), the strand's own stores seen (R267). DEDUCED: log entry 34. -/
def coreLine (s : State) (pa : Nat) : State × Nat :=
  match (l1Find s s.me.core s.me.did (pa / 64)).filter (fun cp => decide (s.me.tck ≤ cp.rts) && !onBank s) with
  | some cp => (raiseClock s cp.wts, overlayOwn s.me pa 64 (leVal cp.data))
  | none =>
    let (s, data, w) := fetchCopy s pa
    (raiseClock s w, overlayOwn s.me pa 64 (leVal data))

/-- A leased copy of a full core serves the line to the strand (R266, R398). -/
def copyServes (s : State) (pa : Nat) : Bool :=
  !onBank s && (l1Find s s.me.core s.me.did (pa / 64)).any (fun cp => decide (s.me.tck ≤ cp.rts))

/-- The line can be read on the CORE path now: a leased copy serves it, or its home can (R262). -/
def coreReady (s : State) (pa : Nat) : Bool := homeReady s (pa / 64) || copyServes s pa

/-- A read on the CORE path meets poison (R441): at the home of the line, not in a copy that holds good data. -/
def corePoisoned (s : State) (pa n : Nat) : Bool := !copyServes s pa && poisonedAt s pa n

/-- TSEAL (R345). DEDUCED: log entry 34. -/
def execTseal (g : Guard) (b : SReg) : State → Host.Outcome State Fault Refusal :=
  issue (engineIssue g [b.val] [] [.core]) (fun s =>
    let rp := sreg s b.val
    if stalls s rp then .wait .retry
    else match firstTrap [chk (privAccess s rp) .priv rp, chk (rp.toNat % 128 != 0) .misalign rp, if isTranslated rp then chkE (checkVa s s.me.core s.me.did rp.toNat .both false) else
        some (if isDevice rp then devOther s.me.did rp else (.xlate, rp))] with
    | some (c, v) => .trap c v
    | none => match checkVa s s.me.core s.me.did rp.toNat .both false with
      | .error (c, v) => .trap c v
      | .ok pa =>
        let hs := heldBy s rp.toNat 16
        if !coreReady s pa || !coreReady s (pa + 64) || heldFull s hs then .wait .retry
        else if corePoisoned s pa 64 then .trap .poison rp
        else if corePoisoned s (pa + 64) 64 then .trap .poison (rp + 64)
        else
          let s := tlbKeep s s.me.core s.me.did rp.toNat
          let (s, x) := coreLine s pa
          let (s, y) := coreLine s (pa + 64)
          let r := x + y * 2 ^ 512
          if !(shMagic r && shForm r) then .trap .seal rp
          else
            let r := setBits r 95 64 (bits r 95 64 + 1)
            let r := setBits r 63 32 (crc32c ((leBytes 128 r).drop 8))
            let s := updMe s (fun t => { t with tck := t.tck + 1 })
            .done (patchWindows (post s .store pa 16 (r % 2 ^ 128) hs false) pa 16 (r % 2 ^ 128)))

/-- A record read at issue (R353), as POLL reads it: its 128 bytes and the state with both lines' leases renewed, or its fault. DEDUCED: log entry 33. -/
def readShape (s : State) (rp : Word) : Except (Cause × Word) (State × Nat × Nat) :=
  let one (s : State) (a : Word) : Except (Cause × Word) (State × Nat × Nat) :=
    if !isTranslated a then .error (if isDevice a then devOther s.me.did a else (.xlate, a))
    else match checkVa s s.me.core s.me.did a.toNat .read false with
      | .error e => .error e
      | .ok pa =>
        if poisonedAt s pa 64 then .error (.poison, a)
        else
          let s := chargeEnergy (tlbKeep s s.me.core s.me.did a.toNat) s.me.did 1
          let (s, w, _) := renew s (pa / 64) s.me.tck s.me.did
          .ok (s, overlayOwn s.me pa 64 (leVal (homeLine s (pa / 64))), w)
  match one s rp with
  | .error e => .error e
  | .ok (s, x, w) => match one s (rp + 64) with
    | .error e => .error e
    | .ok (s, y, u) => .ok (s, x + y * 2 ^ 512, max w u)

/-- The lines of a record can be read at their homes now (R262). -/
def shapeReady (s : State) (rp : Word) : Bool :=
  match checkVa s s.me.core s.me.did rp.toNat .read false with
  | .ok pa => homeReady s (pa / 64) && homeReady s (pa / 64 + 1)
  | .error _ => true

/-- The receivers of TCOPYM (R357). -/
def receivers (core mask : Nat) : List Nat :=
  ((List.range 64).filter (fun i => bit mask i)).map (fun i =>
    core / 1024 * 1024 + i % 4 * 256 + (core % 256 / 16 / 4 * 4 + i / 16) * 16 + (core % 16 / 4 * 4 + i / 4 % 4))

/-- The local side is a scratchpad. -/
def localSpad : CopyKind → Bool
  | .slot => false
  | .ws => false
  | .sp => true
  | .mem => true
  | .multi => true
  | .tred _ => true

/-- A weight-store copy of a DID is in flight on a core (R227). -/
def wsCopy (s : State) (c d : Nat) : Bool := (coreOf s c).copies.any (fun k => k.kind == .ws && k.did == d)

/-- An MLDW of a DID is in flight on a core (R227). -/
def mldwBusy (s : State) (c d : Nat) : Bool := (coreOf s c).matq.any (fun m => m.did == d && (match m.op with
  | .mldw _ _ => true
  | _ => false))

/-- Another strand of a DID is seated in a barrel slot of a core, or an MLDW of it is in flight there: a write window of the weight store is closed (R227).
A handler in the handler slot closes none. DESIGN CHOICE: log entry 93. -/
def windowClosed (s : State) (c did : Nat) : Bool :=
  (strands s).any (fun t => t.key != s.me.key && t.did == did && t.core == c && seated t && (match t.seat with
    | .slot _ => true
    | _ => false)) || mldwBusy s c did

/-- The first of some scratchpad banks of a core that the strand's DID does not hold (R350). -/
def bankTrap (s : State) (c : Nat) (banks : List Nat) : Option (Cause × Word) :=
  (banks.find? (fun b => !bit (domCore s c s.me.did).spbank b)).map (fun b => (.domain, descriptor (bankHolder s c b) c b 0x02))

/-- The receivers' checks (R357): first that each is exposed and in the partition, then the banks and the mailbox share of each. -/
def receiverTrap (s : State) (cores banks : List Nat) : List (Option (Cause × Word)) :=
  cores.map (fun k => chk (!(exposed s k && inPartition s k s.me.did)) .domain (descriptor 0x1F k 0 0x0A))
    ++ cores.flatMap (fun k => [bankTrap s k banks, chk ((domCore s k s.me.did).mbox == 0) .domain (descriptor 0x1F k 0 0x07)])

/-- The scratchpad bank of the first byte of a box, which no swizzle moves (R349). -/
def firstBank (d : Nat) : List Nat := if boxLen d = 0 || !isLocalSpad (w64 (bxAddr d)) then [] else [bxAddr d % 2 ^ 18 / 2 ^ 14]

/-- The checks that need the descriptor alone (R352): the local window, the slot's claim, the first granule of a weight-store copy, the first scratchpad bank, the
receivers (R350, R357). -/
def descTrap (s : State) (kind : CopyKind) (d : Nat) : List (Option (Cause × Word)) :=
  let c := s.me.core
  let did := s.me.did
  match kind with
  | .slot =>
    let m := bits (bxAddr d) 19 16
    [chk (kget? (coreOf s c).claims m != some did) .domain (descriptor (kget (coreOf s c).claims m 0x1F) c m 0x03)]
  | .ws =>
    let g := bxAddr d % 2 ^ 20 / 2 ^ 16
    if boxLen d != 0 && !bit (domCore s c did).wsg g then [some (.domain, descriptor (granuleHolder s c g) c g 0x08)]
    else [chk (windowClosed s c did) .domain (descriptor did c g 0x08)]
  | .multi => chk (!isLocalSpad (w64 (bxAddr d))) .xlate (w64 (bxAddr d)) :: receiverTrap s (receivers c (bxMask d)) (firstBank d)
  | _ => [chk (!isLocalSpad (w64 (bxAddr d))) .xlate (w64 (bxAddr d)), bankTrap s c (firstBank d)]

/-- The local checks of R349 and R350, and the receivers' of R357. A weight-store copy of an empty box while its window is closed raises DOMAIN as any other, with the
granule of LADDR for INDEX. DESIGN CHOICE: log entry 93. -/
def localTrap (s : State) (kind : CopyKind) (r d : Nat) : List (Option (Cause × Word)) :=
  let c := s.me.core
  let did := s.me.did
  let la := w64 (bxAddr d)
  let nb := boxLen d * fmtSize (shFmt r)
  match kind with
  | .slot =>
    let m := bits (bxAddr d) 19 16
    let far := decide (8192 < bxAddr d % 2 ^ 13 + nb)
    [chk far .xlate la,
     chk (kget? (coreOf s c).claims m != some did) .domain (descriptor (kget (coreOf s c).claims m 0x1F) c m 0x03)]
  | .ws =>
    let o := bxAddr d % 2 ^ 20
    if 2 ^ 20 < o + nb then [some (.xlate, la)]
    else
      let gs := if nb = 0 then [] else upto (o / 2 ^ 16) ((o + nb - 1) / 2 ^ 16 - o / 2 ^ 16 + 1)
      match gs.find? (fun g => !bit (domCore s c did).wsg g) with
      | some g => [some (.domain, descriptor (granuleHolder s c g) c g 0x08)]
      | none => [chk (windowClosed s c did) .domain (descriptor did c (o / 2 ^ 16) 0x08)]
  | _ =>
    let al := match shSwz r with
      | 1 => bxAddr d % 64 != 0 || rowBytes r d % 64 != 0
      | 2 => bxAddr d % 128 != 0 || rowBytes r d % 128 != 0
      | _ => false
    if !isLocalSpad la then [chk al .misalign la, some (.xlate, la)]
    else if 2 ^ 18 < bxAddr d % 2 ^ 18 + nb then [chk al .misalign la, some (.xlate, la)]
    else
      chk al .misalign la :: (if kind = .multi then receiverTrap s (receivers c (bxMask d)) (boxBanks r d) else [bankTrap s c (boxBanks r d)])

/-- The descriptor is well formed for the record (R346), and TRED's operation defined for its format (R359). -/
def boxFormed (kind : Option CopyKind) (r d : Nat) : Bool :=
  (upto 0 5).all (fun k => decide (k < shRank r) || (bxOrg d k == 0 && bxExt d k == 1))
    && (match kind with
      | none => bxBar d == 0 && bxMask d == 0
      | some .slot => bxMask d == 0 && bits (bxAddr d) 15 13 == 0 && bits (bxAddr d) 63 20 == 0
      | some .ws => bxMask d == 0 && bits (bxAddr d) 63 20 == 0
      | some .multi => bxMask d != 0
      | some (.tred op) => bxMask d == 0 && (match op with
        | .faddF32 => shFmt r == 7
        | .faddBf16 => shFmt r == 0
        | .max => shFmt r == 7 || shFmt r == 0 || shFmt r == 3
        | .min => shFmt r == 7 || shFmt r == 0 || shFmt r == 3)
      | some .sp => bxMask d == 0
      | some .mem => bxMask d == 0)

/-- The physical address of BAR, once checked for a 32-byte store but for its alignment (R352). -/
def barPlace (s : State) (d : Nat) : Except (Cause × Word) (Option Nat) :=
  let b := w64 (bxBar d)
  if bxBar d = 0 then .ok none
  else if !isTranslated b then .error (if isDevice b then devOther s.me.did b else (.xlate, b))
  else match checkVa s s.me.core s.me.did b.toNat .write false with
    | .error e => .error e
    | .ok pa => .ok (some pa)

/-- A copy command or TPREF up to the point where it may begin (R352, R360): `rp` is the record, or none where the descriptor names it.
The continuation gets the record, the descriptor, the record's address and the barrier's place. DEDUCED: log entry 33. -/
def copyIssue (s : State) (kind : Option CopyKind) (dp : Word) (rp? : Option Word) (k : State → Nat → Nat → Word → Option Nat → Nat → Res) : Res :=
  let c := s.me.core
  let o := wbits dp 17 0
  let dOk := isLocalSpad dp && dp.toNat % 64 == 0 && (checkSpad s c s.me.did o 64).isNone && !poisonedAt s (spadKey c o) 64
  let d := memVal s.mem (spadKey c o) 64
  let rp := rp?.getD (w64 (bxAddr d))
  let rpKnown := rp?.isSome || dOk
  let rec? : Option (Except (Cause × Word) (State × Nat × Nat)) := if rpKnown && rp.toNat % 128 == 0 then some (readShape s rp) else none
  let sealedRec : Option Nat := match rec? with
    | some (.ok (_, r, _)) => if sealed r then some r else none
    | _ => none
  let unsealed : Bool := match rec? with
    | some (.ok (_, r, _)) => !sealed r
    | _ => false
  let readFault : Option (Cause × Word) := match rec? with
    | some (.error e) => some e
    | _ => none
  let barrier : List (Option (Cause × Word)) := if dOk && kind.isSome && bxBar d != 0 then
      [chk (privAccess s (w64 (bxBar d))) .priv (w64 (bxBar d)), chk (bxBar d % 32 != 0) .misalign (w64 (bxBar d)), chkE (barPlace s d)]
    else []
  let later : List (Option (Cause × Word)) := match sealedRec with
    | none => match kind with
      | some kd => if dOk then descTrap s kd d else []
      | none => []
    | some r =>
      if !dOk then []
      else
        [chk (!boxFormed kind r d) .illegal s.words]
        ++ (match kind with
          | some kd => if boxFormed kind r d then localTrap s kd r d else []
          | none => [])
        ++ [match boxSpan r d with
            | some (lo, hi) => chk (decide (lo < 0 ∨ 2 ^ 56 < hi + (fmtSize (shFmt r) : Int))) .xlate (wInt lo)
            | none => none,
            chk (kind.isSome && !boxInside r d && !(bit r 106 && shFill r != 0)) .bounds rp]
  if isLocalSpad dp && dp.toNat % 64 == 0 && (checkSpad s c s.me.did o 64).isNone && spadBusy s c o 64 s.me.did then .wait .retry
  else if (rpKnown && (stalls s rp || stalls s (rp + 64) || (rp.toNat % 128 == 0 && !privAccess s rp && !shapeReady s rp)))
      || (dOk && kind.isSome && bxBar d != 0 && stalls s (w64 (bxBar d))) then .wait .retry
  else match firstTrap ([chk (!isLocalSpad dp) .xlate dp, chk (dp.toNat % 64 != 0) .misalign dp,
      chk (rpKnown && privAccess s rp) .priv rp, chk (rpKnown && rp.toNat % 128 != 0) .misalign rp,
      if isLocalSpad dp && dp.toNat % 64 == 0 then checkSpad s c s.me.did o 64 else none,
      chk (isLocalSpad dp && poisonedAt s (spadKey c o) 64) .poison dp,
      readFault, chk unsealed .seal rp] ++ barrier ++ later) with
  | some (e, v) => .trap e v
  | none =>
    match readShape s rp, barPlace s d with
      | .ok (t, r, w), .ok bar => k t r d rp bar w
      | .error (e, v), _ => .trap e v
      | _, .error (e, v) => .trap e v

/-- TCOPY, TCOPYM and TRED (R352, R354), whose records the core reads on the CORE path (R276, R353): checks, room, then the command on its way and its token pending. -/
def startCopy (g : Guard) (a b c : SReg) (kind : CopyKind) : State → Host.Outcome State Fault Refusal :=
  issue (engineIssue g [b.val, c.val] [a.val] [.core, .copy]) (fun s =>
    copyIssue s (some kind) (sreg s c.val) (some (sreg s b.val)) (fun t r d rp _ w =>
      if 4 ≤ ((coreOf s s.me.core).copies.filter (fun k => k.key == s.me.key)).length || 16 ≤ (coreOf s s.me.core).copies.length then .wait .retry
      else
        let t := raiseClock t w
        let ts := max t.me.tck (kget t.me.floors 1 0)
        let cmd : CopyCmd := { id := t.nextId, key := t.me.key, sid := t.me.sid, did := t.me.did, kind, tok := a.val, rp, shape := r, box := d, ts, clk := ts, tc := ts,
                               next := 0, bytes := 0, recv := if kind = .multi then receivers t.me.core (bxMask d) else [], served := 0,
                               bar := if bxBar d = 0 then none else some (w64 (bxBar d)), fail := none, parked := false }
        let t := updCore t t.me.core (fun cs => { cs with copies := cs.copies ++ [cmd] })
        .done (updMe { t with nextId := t.nextId + 1 } (fun m => { m with pend := addNew m.pend a.val, tc := kdel m.tc a.val }))))

/-- TCOPY, memory to scratchpad (R351). -/
def execTcopySp (g : Guard) (a : SReg) (b : SReg) (c : SReg) : State → Host.Outcome State Fault Refusal := startCopy g a b c .sp

/-- TCOPY, memory to operand slot (R351). -/
def execTcopySlot (g : Guard) (a : SReg) (b : SReg) (c : SReg) : State → Host.Outcome State Fault Refusal := startCopy g a b c .slot

/-- TCOPY, memory to weight store (R227, R351). -/
def execTcopyWs (g : Guard) (a : SReg) (b : SReg) (c : SReg) : State → Host.Outcome State Fault Refusal := startCopy g a b c .ws

/-- TCOPY, scratchpad to memory (R351). -/
def execTcopyMem (g : Guard) (a : SReg) (b : SReg) (c : SReg) : State → Host.Outcome State Fault Refusal := startCopy g a b c .mem

/-- TCOPYM (R357). -/
def execTcopym (g : Guard) (a : SReg) (b : SReg) (c : SReg) : State → Host.Outcome State Fault Refusal := startCopy g a b c .multi

/-- TRED (R359). -/
def execTred (g : Guard) (op : TredOp) (a : SReg) (b : SReg) (c : SReg) : State → Host.Outcome State Fault Refusal := startCopy g a b c (.tred op)

/-- One prefetch posted (R251): skipped for a line present, in flight, unmapped or not readable. -/
def postPref (s : State) (d : Nat) (va : Nat) : State :=
  match checkVa s (holderOf s.me) d va .read false with
  | .error _ => s
  | .ok pa => if inL2 s (pa / 64) || s.prefq.any (fun q => q.1 == pa / 64) then s else { s with prefq := s.prefq ++ [(pa / 64, d, holderOf s.me)] }

/-- TPREF: one prefetch for each line of the box's elements in the tensor (R360); its record is read on the CORE path (R276, R353). -/
def execTpref (g : Guard) (b : SReg) : State → Host.Outcome State Fault Refusal :=
  issue (engineIssue g [b.val] [] [.core, .copy]) (fun s =>
    copyIssue s none (sreg s b.val) none (fun t r d _ _ _ =>
      let lines := (List.range (boxLen d)).foldl (fun acc n => match boxElem r d n with
        | some va => addNew acc (va / 64)
        | none => acc) []
      .done (lines.foldl (fun s l => postPref s s.me.did (64 * l)) t)))

/-- TSTAT reads a token without waiting, whatever its registers wait for (R354, R356). -/
def execTstat (g : Guard) (a : SReg) (b : SReg) : State → Host.Outcome State Fault Refusal :=
  issue { engineIssue g [b.val] [a.val] [] with noTok := [a.val, b.val] } (fun s =>
    .done (setSreg s a.val (if s.me.pend.contains b.val then 0 else sreg s b.val)))

/-! ### The engine (R352, R355, R357 to R359) -/

/-- A command of a core changed. -/
def updCopy (s : State) (c id : Nat) (f : CopyCmd → CopyCmd) : State :=
  updCore s c (fun cs => { cs with copies := mapIf (fun k => k.id == id) f cs.copies })

/-- The keys at which local byte offset q lies: of each receiver's scratchpad, a slot or the weight store (R349, R350, R357). -/
def localKeys (c : Nat) (k : CopyCmd) (q : Nat) : List Nat :=
  match k.kind with
  | .slot => [slotKey c (bits (bxAddr k.box) 19 16) (bxAddr k.box % 2 ^ 13 + q)]
  | .ws => [wsKey c (bxAddr k.box % 2 ^ 20 + q)]
  | .multi => k.recv.map (fun r => spadKey r (swizzle k.shape k.box q))
  | _ => [spadKey c (swizzle k.shape k.box q)]

/-- The elements of one burst from element n (R352): at most `f`, all of one line, or all outside the tensor. -/
def burstRun (r d : Nat) (line : Option Nat) : Nat → Nat → List Nat
  | 0, _ => []
  | f + 1, n => if n < boxLen d && (boxElem r d n).map (· / 64) == line then n :: burstRun r d line f (n + 1) else []

/-- Local bytes written for elements of a burst, with their values, each byte through the swizzle (R349). -/
def localWrite (s : State) (c : Nat) (k : CopyCmd) (es : Nat) (xs : List (Nat × Nat)) : State :=
  let ks := xs.flatMap (fun x => (leBytes es x.2).zipIdx.flatMap (fun b => (localKeys c k (x.1 * es + b.2)).map (fun a => (a, b.1))))
  let s := ks.foldl (fun s x => { s with mem := memSet s.mem x.1 x.2 }) s
  let s := coverPoison s (ks.map Prod.fst) 1
  match k.kind with
  | .slot => flagSlot s c (bits (bxAddr k.box) 19 16)
  | _ => s

/-- The key of each local byte of element n of a command that reads its local side (R349). -/
def localBytes (c : Nat) (k : CopyCmd) (es n : Nat) : List Nat := (upto (n * es) es).map (fun q => (localKeys c k q).headD 0)

/-- One step of TRED on the bits found (R359). -/
def tredApply (op : TredOp) (fmt w e : Nat) : Nat :=
  let f := fmtOf fmt
  match op with
  | .faddF32 => redAdd .f32 w e
  | .faddBf16 => redAdd .bf16 w e
  | .max => if fmt = 3 then (if sextN 8 w < sextN 8 e then e else w) else minMaxCode f true w e
  | .min => if fmt = 3 then (if sextN 8 e < sextN 8 w then e else w) else minMaxCode f false w e

/-- Elements of a burst written to memory, one store or reduction each, in ascending order (R277, R355, R359): it stops at the first that fails. -/
def burstOut (c es : Nat) (pa0 va0 : Nat) : State → CopyCmd → List Nat → State × CopyCmd
  | s, k, [] => (s, k)
  | s, k, n :: rest =>
    let lk := localBytes c k es n
    let pa := pa0 + ((boxElem k.shape k.box n).getD va0 - va0)
    let pa := if va0 ≤ (boxElem k.shape k.box n).getD va0 then pa else pa0 - (va0 - (boxElem k.shape k.box n).getD va0)
    if lk.any (fun a => poisonedAt s a 1) then (s, { k with fail := some .poison })
    else
      let e := leVal (lk.map (memGet s.mem))
      match k.kind with
      | .tred op =>
        if poisonedAt s pa es then (foundDead s pa es k.did, { k with fail := some .poison })
        else
          let (s, w) := homeWrite s pa (leBytes es (tredApply op (shFmt k.shape) (homeVal s pa es) e)) k.clk k.ts 4096 k.did
          burstOut c es pa0 va0 s { k with clk := w, tc := max k.tc w, next := n + 1, bytes := k.bytes + es } rest
      | _ =>
        let (s, w) := homeWrite s pa (leBytes es e) k.clk k.ts 4096 k.did
        burstOut c es pa0 va0 s { k with clk := w, tc := max k.tc w, next := n + 1, bytes := k.bytes + es } rest

/-- The command moves data from memory. -/
def copyReads : CopyKind → Bool
  | .mem => false
  | .tred _ => false
  | .sp => true
  | .slot => true
  | .ws => true
  | .multi => true

/-- A zeroing of the slot that the command writes stands before it in the core's order (R368). -/
def slotStale (s : State) (c : Nat) (k : CopyCmd) : Bool :=
  k.kind == .slot && (coreOf s c).matq.any (fun m => m.op == .zeroSlot (bits (bxAddr k.box) 19 16) && decide (m.id < k.id))

/-- The elements of a command's next burst (R352). Elements outside the tensor, which lie in no line, count as one burst, and no burst takes more than 64 elements.
DESIGN CHOICE: log entry 117. -/
def nextRun (k : CopyCmd) : List Nat := burstRun k.shape k.box ((boxElem k.shape k.box k.next).map (· / 64)) 64 k.next

/-- A command has no burst to move now: in a drain window or an interval or while it is parked (R262), has failed or is done, or its slot, its home or a handed-over bank
cannot serve it. -/
def burstWaits (s : State) (c : Nat) (k : CopyCmd) : Bool :=
  let es := fmtSize (shFmt k.shape)
  k.parked || calState s.gtc != 0 || k.fail.isSome || decide (boxLen k.box ≤ k.next) || slotStale s c k
    || (localSpad k.kind && s.cores.any (fun e => !e.2.handover.isEmpty && (if k.kind = .multi then k.recv.contains e.1 else e.1 == c)
          && (nextRun k).any (fun n => (upto (n * es) es).any (fun q => spadWaits s e.1 (swizzle k.shape k.box q) 1 k.did k.id))))
    || (boxElem k.shape k.box k.next).any (fun va => match checkVa s c k.did va (if copyReads k.kind then .read else .write) false with
      | .ok pa => !homeReady s (pa / 64)
      | .error _ => false)

/-- The strand whose turn it is at a core's copy engine (R352): of those with a burst to move, the first in the rotation, one not in it yet being served last. DESIGN CHOICE: log entry 108. -/
def copyDue (s : State) (c : Nat) : Option Nat :=
  let keys := ((coreOf s c).copies.filter (fun k => !burstWaits s c k)).map (fun k => k.key)
  ((coreOf s c).copyTurn.find? keys.contains).orElse (fun _ => keys.head?)

/-- A strand has been served (R352): the strands with commands on the core, those new to the rotation behind the others, and the one served last of all. -/
def passTurn (s : State) (c key : Nat) : State :=
  updCore s c (fun cs =>
    let keys := cs.copies.map (fun k => k.key)
    let old := cs.copyTurn.filter (fun x => keys.contains x && x != key)
    { cs with copyTurn := keys.foldl (fun l x => if x == key then l else addNew l x) old ++ [key] })

/-- One burst of a command of the strand in turn (R352), when it has one to move. A copy into the weight store goes on when a granule that it writes passes to another DID
meanwhile. DEDUCED: log entry 30. DESIGN CHOICE: log entry 93. -/
def copyBurst (s : State) (c id : Nat) : State :=
  match (coreOf s c).copies.find? (fun k => k.id == id) with
  | none => s
  | some k =>
    if burstWaits s c k || copyDue s c != some k.key then s
    else
      let s := passTurn s c k.key
      let es := fmtSize (shFmt k.shape)
      let run := nextRun k
      match boxElem k.shape k.box k.next with
      | none =>
        if copyReads k.kind then
          let s := localWrite s c k es (run.map (fun n => (n, fillVal k.shape)))
          updCopy s c id (fun k => { k with next := k.next + run.length, bytes := k.bytes + run.length * es * (if k.kind = .multi then k.recv.length else 1) })
        else updCopy s c id (fun k => { k with next := k.next + run.length })
      | some va =>
        match checkVa s c k.did va (if copyReads k.kind then .read else .write) false with
        | .error (e, _) => updCopy s c id (fun k => { k with fail := some e })
        | .ok pa =>
          let s := chargeEnergy (tlbKeep s c k.did va) k.did 1
          if copyReads k.kind then
            if poisonedAt s pa es then updCopy (foundDead s pa 64 k.did) c id (fun k => { k with fail := some .poison })
            else
              let (s, line, t) := homeRead s (alignDown pa 64) 64 k.clk k.did
              let s := localWrite s c k es (run.map (fun n => (n, bits line (8 * ((boxElem k.shape k.box n).getD 0 % 64) + 8 * es - 1) (8 * ((boxElem k.shape k.box n).getD 0 % 64)))))
              updCopy s c id (fun k => { k with next := k.next + run.length, clk := t, tc := max k.tc t,
                                                bytes := k.bytes + run.length * es * (if k.kind = .multi then k.recv.length else 1) })
          else
            let (s, k') := burstOut c es pa va s k run
            let done := run.filter (fun n => decide (n < k'.next))
            let s := coverPoison s (done.map (fun n => alignDown pa 64 + (boxElem k.shape k.box n).getD 0 % 64)) es
            updCopy s c id (fun _ => k')

/-- The bytes of a command leave the pending bytes of its barrier object, as one step after its last write (R212, R358). BAR is translated for each step, as any
access of the command is (R249); one that no longer passes fails the command, and nothing is subtracted. DEDUCED: log entry 31. -/
def copyBarrier (s : State) (c : Nat) (k : CopyCmd) (n : Nat) : State :=
  match k.bar with
  | none => s
  | some b => match checkVa s c k.did b.toNat .write false with
    | .error (e, _) => updCopy s c k.id (fun k => { k with fail := k.fail.orElse (fun _ => some e) })
    | .ok pa =>
      let s := chargeEnergy (tlbKeep s c k.did b.toNat) k.did 1
      let old := homeVal s pa 32
      let (s, w) := homeWrite s pa (leBytes 32 (barrierTest (setBits old 183 128 (bits old 183 128 + 2 ^ 56 - n % 2 ^ 56)))) k.clk k.ts 4096 k.did
      updCopy s c k.id (fun k => { k with clk := w, tc := max k.tc w })

/-- The barrier object of a command can be reached now (R262). -/
def barReady (s : State) (c : Nat) (k : CopyCmd) : Bool :=
  match k.bar with
  | none => true
  | some b => walkReady s c k.did b.toNat && (match checkVa s c k.did b.toNat .write false with
    | .ok pa => homeReady s (pa / 64)
    | .error _ => true)

/-- A command as it stands, or as it was given. -/
def copyNow (s : State) (c : Nat) (k : CopyCmd) : CopyCmd := ((coreOf s c).copies.find? (fun x => x.id == k.id)).getD k

/-- The word of a token or of a receipt that has written n bytes: COMPLETE, or FAILED with the code of a cause (R354, R357). -/
def copyWord (n : Nat) (fail : Option Nat) : Nat :=
  match fail with
  | none => n * 2 ^ 24 + 1
  | some e => n * 2 ^ 24 + e * 2 ^ 8 + 2

/-- The steps on the barrier that a TCOPYM takes before its receipts: one for each receiver, where it has a barrier (R357). -/
def barSteps (k : CopyCmd) : Nat := if k.bar.isSome then k.recv.length else 0

/-- The receipt of receiver i of a TCOPYM (R357). -/
def postReceipt (s : State) (c : Nat) (k : CopyCmd) (i : Nat) (fail : Option Nat) (origin : Option Nat) : State :=
  postMsg s (k.recv.getD i 0) k.did ⟨3, c, k.sid, k.tc, s.era, k.rp.toNat + copyWord (k.bytes / k.recv.length) fail % 2 ^ 64 * 2 ^ 64, origin⟩

/-- The completion of a numbered command is kept for the FENCE.X obligations of its strand (R275). DEDUCED: log entry 32. -/
def noteEnd (t : Strand) (path id tc : Nat) : Strand :=
  let e := kset t.ends (2 ^ 64 + path) (max (kget t.ends (2 ^ 64 + path) 0) tc)
  { t with ends := if t.fencex.any (fun f => f.work.contains id) then kset e id tc else e }

/-- Bytes of at most a line written into the save area of a strand that is unseated (R354, R373, R429). -/
def toArea (s : State) (t : Strand) (o : Nat) (bs : List Byte) (clock : Nat) : State :=
  match t.area with
  | none => s
  | some a => match devWrite s t.did (w64 (a + o)) bs clock with
    | .ok (s, _) => s
    | .error e => devFailed s t.did e

/-- A token is written (R354): in the register, or in the save area of an unseated strand, with Tc carried. -/
def writeToken (s : State) (key reg v tc id : Nat) : State :=
  match strandOf s key with
  | none => s
  | some t =>
    let s := updStrand s key (fun t => noteEnd { t with s := t.s.setIfInBounds reg (w64 v), tc := kset t.tc reg tc, pend := t.pend.filter (· != reg) } 1 id tc)
    toArea (toArea s t (0x100 + 8 * reg) (leBytes 8 v) tc) t 0x0B0 (leBytes 8 ((t.pend.filter (· != reg)).foldl (fun acc r => acc + 2 ^ r) 0)) tc

/-- A command that has moved its last element, or has failed, completes unless it is parked (R262, R354, R355, R357, R358): the barrier, for each receiver of a
TCOPYM; then its receipts, each with the completion time; then the token. DEDUCED: log entry 31. -/
def copyComplete (s : State) (c id : Nat) : State :=
  match (coreOf s c).copies.find? (fun k => k.id == id) with
  | none => s
  | some k =>
    if k.parked || calState s.gtc != 0 || !(k.fail.isSome || decide (boxLen k.box ≤ k.next)) then s
    else if !barReady s c k then s
    else if k.served < barSteps k then
      updCopy (copyBarrier s c k (k.bytes / k.recv.length)) c id (fun k => { k with served := k.served + 1 })
    else if k.served < barSteps k + k.recv.length then
      updCopy (postReceipt s c k (k.served - barSteps k) (k.fail.map causeCode) (some (2 ^ 32 + id))) c id (fun k => { k with served := k.served + 1 })
    else if s.cores.any (fun e => e.2.held.any (fun h => h.2.any (fun m => m.origin == some (2 ^ 32 + id)))) then s
    else
      let s := if k.recv.isEmpty then copyBarrier s c k k.bytes else s
      let k := copyNow s c k
      let s := updCore s c (fun cs => { cs with copies := cs.copies.filter (fun k => k.id != id) })
      writeToken s k.key k.tok (copyWord k.bytes (k.fail.map causeCode) % 2 ^ 64) k.tc id

/-- A command that a reset stops after its burst in flight (R436, R437): the bytes it wrote leave the pending bytes of its barrier (R358), and each receiver of a TCOPYM
that has no receipt gets one with STATE 2. -/
def stopCopy (s : State) (c cause : Nat) (k : CopyCmd) : State :=
  let s := if k.recv.isEmpty then copyBarrier s c k k.bytes
    else (upto k.served (barSteps k - k.served)).foldl (fun s _ => copyBarrier s c (copyNow s c k) (k.bytes / k.recv.length)) s
  (upto (k.served - barSteps k) (k.recv.length - (k.served - barSteps k))).foldl (fun s i => postReceipt s c (copyNow s c k) i (some cause) none) s

end Sys2Proof.Machine
end

