-- ==== Sys2Proof/Machine/Migration.lean ====
section
/-! DEFINITION. Page 7: migration, active messages, queue levels and mailboxes. -/

namespace Sys2Proof.Machine

/-- The issue of a page-7 instruction (R193, R397). -/
def msgIssue (g : Guard) (rd wr : List Nat) (bank : BankUse) (begins : List Path) : Issue :=
  { g, rd, wr, vregs := [], noTok := [], handler := false, bank, begins }

/-- An address translated as a one-byte load (R187, R190): its physical address, or its trap. DEDUCED: log entry 38. -/
def oneByte (s : State) (a : Word) (far : Bool) : Except (Cause × Word) Nat :=
  if isTranslated a then checkVa s (holderOf s.me) s.me.did a.toNat .read far
  else .error (if isDevice a then devOther s.me.did a else (.xlate, a))

/-! ### Migration (R187) -/

/-- The destination of a migration whose instruction waits, its checks made (R187). -/
def migrating (s : State) : Option Nat := if s.me.pre.isSome then s.me.dest.map Prod.fst else none

/-- MIG: to the home core of an address (R187). Its checks are made once, with the values at issue (R422): while it waits, its destination stands. -/
def execMig (g : Guard) (b : SReg) : State → Host.Outcome State Fault Refusal :=
  issue (msgIssue g [b.val] [] .run []) (fun s =>
    let a := sreg s b.val
    match migrating s with
    | some d => migrate s s.nextPc d true
    | none =>
    if !eligible s then .trap .illegal s.words
    else if stalls s a then .wait .retry
    else match oneByte s a false with
      | .error (c, v) => .trap c v
      | .ok pa =>
        let dest := homeCore s pa
        if !inPartition s dest s.me.did then .trap .domain (descriptor 0x1F dest 0 0x0A)
        else
          let t := tlbKeep s (holderOf s.me) s.me.did a.toNat
          if s.me.seat != .none && !onBank s && dest == s.me.core then .done t
          else migrate t s.nextPc dest true)

/-- MIG.BANK: to the bank core of the DRAM channel that holds an address (R187), its checks made once as those of MIG are. -/
def execMigBank (g : Guard) (b : SReg) : State → Host.Outcome State Fault Refusal :=
  issue (msgIssue g [b.val] [] .run []) (fun s =>
    let a := sreg s b.val
    match migrating s with
    | some d => migrate s s.nextPc d true
    | none =>
    if !eligible s then .trap .illegal s.words
    else if stalls s a then .wait .retry
    else match oneByte s a false with
      | .error (c, v) => .trap c v
      | .ok pa =>
        let ch := channelOf pa
        if !namesDram pa then .trap .xlate a
        else if !bankInPartition s ch s.me.did then .trap .domain (descriptor 0x1F (4096 + ch) 0 0x0A)
        else
          let t := tlbKeep s (holderOf s.me) s.me.did a.toNat
          let here : Bool := match s.me.seat with
            | .bank c _ => c == ch
            | _ => false
          if here then .done t else migrate t s.nextPc (4096 + ch) true)

/-! ### Active messages (R190) -/

/-- A message takes its place at the handler slot of a core: in the queue of 32, or in the network before it (R192). -/
def sendHandler (s : State) (c : Nat) (m : HMsg) : State :=
  updCore s c (fun cs =>
    if cs.hq.length < 32 && cs.hwait.isEmpty then { cs with hq := cs.hq ++ [m] } else { cs with hwait := cs.hwait ++ [m] })

/-- AMSG: sends an active message to the home core of an address and waits for its reply (R190, R454). DEDUCED: log entry 38. -/
def execAmsg (g : Guard) (a : SReg) (b : SReg) (c : SReg) : State → Host.Outcome State Fault Refusal :=
  issue (msgIssue g [a.val, b.val, c.val] [a.val] .run []) (fun s =>
    let entry := sreg s c.val
    let addr := sreg s b.val
    if stalls s addr then .wait .retry
    else match firstTrap [chk (bit entry.toNat 0) .misalign entry, chkE (oneByte s addr true)] with
    | some (e, v) => .trap e v
    | none => match oneByte s addr true with
      | .error (e, v) => .trap e v
      | .ok pa =>
        if isHost pa then .trap .xlate addr
        else if !s.me.posted.isEmpty then .wait .retry
        else
          let s := raiseClock (tlbKeep s (holderOf s.me) s.me.did addr.toNat) s.me.h
          let m : HMsg := { entry, addr, arg := sreg s a.val, did := s.me.did, sid := s.me.sid, core := s.me.core, clock := s.me.tck, caller := some s.me.key, pkg := 0, seq := 0, era := 0 }
          let s := if isFar pa then sendMsg s addr pa (.amsg entry addr (sreg s a.val) s.me.sid s.me.core) else sendHandler s (homeCore s pa) m
          .hold (updMe s (fun t => { t with wait := .reply, wnext := s.nextPc, wreg := a.val })))

/-! ### Queue registers and the mailbox (R197 to R199) -/

/-- QSTAT: the fill level of a queue register (R197). -/
def execQstat (g : Guard) (a : SReg) (b : QReg) : State → Host.Outcome State Fault Refusal :=
  issue (msgIssue g [] [a.val] .ret []) (fun s =>
    match queueTrap s b.val with
    | some (c, v) => .trap c v
    | none => .done (setSreg s a.val (w64 ((coreOf s s.me.core).queues.getD b.val []).length)))

/-- `n` bytes of one line read on the CORE path as a load reads them (R266, R267): leased copy or home, the clock crept. DEDUCED: log entry 40. -/
def coreRead (s : State) (pa n : Nat) : State × Nat :=
  let (s, v) := coreLine s (alignDown pa 64)
  (updMe s (fun t => { t with tck := t.tck + 1 }), bits v (8 * (pa % 64) + 8 * n - 1) (8 * (pa % 64)))

/-- The traps of a mailbox instruction's access of `n` bytes (R93, R199, R453). -/
def mboxTrap (s : State) (a : Word) (n : Nat) (need : Need) : Option (Cause × Word) :=
  firstTrap [chk (a.toNat % n != 0) .misalign a, match placeOf s a n need false with
    | .ok .dev => some (devOther s.me.did a)
    | .ok (.mem pa) => chk (isFar pa) .xlate a
    | .ok _ => none
    | .error e => some e]

/-- The 32 bytes of a mailbox entry (R198). -/
def mboxBytes (m : MboxMsg) : Nat :=
  m.kind + m.src * 2 ^ 16 + m.sid % 2 ^ 32 * 2 ^ 32 + m.time % 2 ^ 48 * 2 ^ 64 + m.era % 2 ^ 16 * 2 ^ 112 + m.payload % 2 ^ 128 * 2 ^ 128

/-- The messages held for a share take their entries, in order (R198). -/
def letHeldIn (s : State) (c d : Nat) : State :=
  updCore s c (fun cs => { cs with
    mbox := kset cs.mbox d (kget cs.mbox d [] ++ kget cs.held d [])
    held := kdel cs.held d })

/-- A share is full (R199): its messages, and those held for it that take the next entries to free (R198), leave none. DEDUCED: log entry 39. -/
def shareFull (s : State) (c d : Nat) : Bool :=
  decide ((domCore s c d).mbox ≤ (kget (coreOf s c).mbox d []).length + (kget (coreOf s c).held d []).length)

/-- MBSEND, the payload read: a release, then the entry, behind what is held for the share, or status 1 (R199). `s0` is the state at issue. DEDUCED: log entry 39. -/
def mbsendTail (s0 s : State) (a c pl : Nat) : Res :=
  let s := raiseClock s s.me.h
  if shareFull s c s.me.did then .done (setSreg s0 a 1)
  else .done (setSreg (postMsg (letHeldIn s c s.me.did) c s.me.did ⟨0, s.me.core, s.me.sid, s.me.tck, s.era, pl, none⟩) a 0)

/-- MBSEND (R199). DEDUCED: log entry 39. -/
def execMbsend (g : Guard) (a : SReg) (b : SReg) : State → Host.Outcome State Fault Refusal :=
  issue (msgIssue g [a.val, b.val] [a.val] .ret [.core]) (fun s =>
    let c := (sreg s a.val).toNat
    let va := sreg s b.val
    if 4096 ≤ c || !exposed s c || (domCore s c s.me.did).mbox == 0 then .done (setSreg s a.val 2)
    else if stalls s va then .wait .retry
    else match mboxTrap s va 16 .read with
      | some (e, v) => .trap e v
      | none => match placeOf s va 16 .read false with
        | .ok (.spad o) =>
          let k := spadKey s.me.core o
          if spadBusy s s.me.core o 16 s.me.did then .wait .retry
          else if poisonedAt s k 16 then .trap .poison va
          else if !s.me.posted.isEmpty then .wait .retry
          else mbsendTail s s a.val c (memVal s.mem k 16)
        | .ok (.mem pa) =>
          if !coreReady s pa then .wait .retry
          else if corePoisoned s pa 16 then .trap .poison va
          else if !s.me.posted.isEmpty then .wait .retry
          else
            let t := tlbKeep s s.me.core s.me.did va.toNat
            let (u, pl) := coreRead t pa 16
            mbsendTail t u a.val c pl
        | .ok (.remote _ _) => .trap .xlate va
        | .ok .dev => .trap .xlate va
        | .error (e, v) => .trap e v)

/-- The head of a share leaves it, and its clock is merged; strands that wait for the share go on, though it may be empty by then (R199). -/
def mbTake (s : State) (m : MboxMsg) (rest : List MboxMsg) (a : Nat) : State :=
  let s := callWaiters s s.me.core s.me.did
  setSreg (raiseClock (updCore s s.me.core (fun cs => { cs with mbox := kset cs.mbox s.me.did rest })) m.time) a 0

/-- MBRECV (R199). -/
def execMbrecv (g : Guard) (a : SReg) (b : SReg) : State → Host.Outcome State Fault Refusal :=
  issue (msgIssue g [b.val] [a.val] .ret [.core]) (fun s =>
    let va := sreg s b.val
    if stalls s va then .wait .retry
    else match mboxTrap s va 32 .write with
    | some (e, v) => .trap e v
    | none => match kget (coreOf s s.me.core).mbox s.me.did [] with
      | [] => .done (setSreg s a.val 1)
      | m :: rest => match placeOf s va 32 .write false with
        | .ok (.spad o) =>
          if spadBusy s s.me.core o 32 s.me.did then .wait .retry
          else .done (mbTake { s with mem := memPut s.mem (spadKey s.me.core o) (leBytes 32 (mboxBytes m)) } m rest a.val)
        | .ok (.mem pa) =>
          let hs := heldBy s va.toNat 32
          if heldFull s hs then .wait .retry
          else
            let s := post (tlbKeep s s.me.core s.me.did va.toNat) .store pa 32 (mboxBytes m) hs false
            .done (mbTake (patchWindows s pa 32 (mboxBytes m)) m rest a.val)
        | .ok (.remote _ _) => .trap .xlate va
        | .ok .dev => .trap .xlate va
        | .error (e, v) => .trap e v)

/-- The strand's share on its core holds a message. -/
def mboxReady (s : State) : Bool := !(kget (coreOf s s.me.core).mbox s.me.did []).isEmpty

/-- MBWAIT: waits until the share is not empty (R199). -/
def execMbwait (g : Guard) : State → Host.Outcome State Fault Refusal :=
  issue (msgIssue g [] [] .ret []) (fun s =>
    if (domCore s s.me.core s.me.did).mbox == 0 then .trap .domain (descriptor 0x1F s.me.core 0 0x07)
    else if mboxReady s then .done s
    else .hold (updMe s (fun t => { t with wait := .mbwait, wnext := s.nextPc, wkey := 0 })))

end Sys2Proof.Machine
end

