-- ==== Sys2Proof/Machine/Sync.lean ====
section
/-! DEFINITION. Page 3: atomics, reservations, barrier objects, monitors, fences and clocks. -/

namespace Sys2Proof.Machine

/-- The issue of a page-3 instruction (R53, R193, R276). -/
def syncIssue (g : Guard) (rd wr : List Nat) (handler : Bool) (begins : List Path) : Issue :=
  { g, rd, wr, vregs := [], noTok := [], handler, bank := .run, begins }

/-- A form has acquire order. -/
def acquires : Order → Bool
  | .acquire => true
  | .acqrel => true
  | .relaxed => false
  | .release => false

/-- A form has release order. -/
def releases : Order → Bool
  | .release => true
  | .acqrel => true
  | .relaxed => false
  | .acquire => false

/-- Where a page-3 step's address leads (R201): AMO, CAS and RED alone may name the local scratchpad. -/
def stepPlace (s : State) (a : Word) (n : Nat) (need : Need) (spadOk : Bool) : Except (Cause × Word) Place :=
  if isLocalSpad a && !spadOk then .error (.xlate, a)
  else match placeOf s a n need false with
  | .ok .dev => .error (devOther s.me.did a)
  | .ok (.remote _ _) => .error (.xlate, a)
  | .ok (.spad o) => if spadOk then .ok (.spad o) else .error (.xlate, a)
  | .ok (.mem pa) => .ok (.mem pa)
  | .error e => .error e

/-- The checks of R201 and then the step: the return trap for a scratchpad window on a bank core comes first (R397), then the walk that the address needs (R262);
`more` are further checks of the form. -/
def withStep (s : State) (a : Word) (n : Nat) (need : Need) (spadOk : Bool) (more : List (Option (Cause × Word))) (k : Place → Res) : Res :=
  if onBank s && (isLocalSpad a || (remoteOf a).isSome) then .back
  else if accessStalls s a n then .wait .retry
  else match firstTrap (more ++ [chk (a.toNat % n != 0) .misalign a, chkE (stepPlace s a n need spadOk)]) with
  | some (c, v) => .trap c v
  | none => match stepPlace s a n need spadOk with
    | .error (c, v) => .trap c v
    | .ok p => k p

/-- A release (R202, R273): every write acknowledged, then the clock at the horizon. -/
def withRelease (s : State) (rel : Bool) (sc : Scope) (k : State → Res) : Res :=
  if !rel then k s
  else if acked s sc then k (raiseClock s s.me.h)
  else .wait .retry

/-- The home can perform a step of the strand now: its earlier writes to the line are in place (R206), and no maintenance holds the step back (R262).
DEDUCED: log entry 37. -/
def stepReady (s : State) (pa : Nat) : Bool :=
  lineClear s (pa / 64) && (isFar pa || homeReady s (pa / 64)) && !(isPeer pa && inMajor s.gtc)

/-- The requester clock with which a step that writes nothing reaches the home of its line: beyond the package one more than the strand's (R286). -/
def readClock (s : State) (pa : Nat) : Nat := if isFar pa then s.me.tck + 1 else s.me.tck

/-- The energy of a step at a home of the package (R468); one beyond it is charged as it is sent. -/
def chargeStep (s : State) (pa : Nat) : State := if isFar pa then s else chargeEnergy s s.me.did 1

/-- A step whose word is at another package is sent there and may come back with a fault, raised precisely (R286, R454). -/
def atPeer (s : State) (a : Word) (pa : Nat) (op : RemoteOp) (k : State → Res) : Res :=
  if isPeer pa then
    match peerFault s with
    | (_, some c) => .fault (fun s0 => sendMsgAt (peerFault s0).1 s.me.tck a pa op) c a
    | (t, none) => k (sendMsg t a pa op)
  else k (sendMsg s a pa op)

/-- One step at the home for the strand in turn (R202, R204): `upd` gives what is written, or none for a read; the state with the clock per R202, and the old bytes. DEDUCED: log entry 73. -/
def stepAt (s : State) (pa n : Nat) (acq : Bool) (upd : Nat → Option Nat) : State × Nat :=
  let old := anyVal s pa n
  if isHost pa then
    (match upd old with
      | some v => updMe { s with mem := memPut s.mem pa (leBytes n v) } (fun t => supersede t (fun _ => true) pa n)
      | none => s, old)
  else
    let s := if isFar pa then s else demand s (pa / 64) s.me.did
    let x := timesOf s (pa / 64)
    match upd old with
    | some v =>
      let ta := max (s.me.tck + 1) (x.rts + 1)
      let s := if isFar pa then { s with mem := memPut s.mem pa (leBytes n v) } else homePut s pa (leBytes n v)
      let s := wroteTimes s (pa / 64) ta
      let s := if onBank s || isFar pa then s else l1Store s s.me.core (pa / 64) ta
      (updMe s (fun t => supersede { t with tck := max t.tck (if acq then ta else x.wts), h := max t.h ta } (fun _ => true) pa n), old)
    | none =>
      let ta := max (readClock s pa) x.wts
      (raiseClock (setTimes s (pa / 64) x.wts (max x.rts ta)) ta, old)

/-- A value-returning read-modify-write (R203, R204); `ask` is what it asks another package for. DEDUCED: log entry 73. -/
def rmw (s : State) (a : Word) (n : Nat) (o : Order) (sc : Scope) (ask : RemoteOp) (upd : Nat → Option Nat) (k : State → Nat → State) : Res :=
  withStep s a n .both true [] (fun p => withRelease s (releases o) sc (fun s =>
    match p with
    | .spad x =>
      let key := spadKey s.me.core x
      if spadBusy s s.me.core x n s.me.did then .wait .retry
      else if poisonedAt s key n then .trap .poison a
      else
        let old := memVal s.mem key n
        .done (k (match upd old with
          | some v => { s with mem := memPut s.mem key (leBytes n v) }
          | none => s) old)
    | .mem pa =>
      if !stepReady s pa then .wait .retry
      else if poisonedAt s pa n then .trap .poison a
      else atPeer s a pa ask (fun s =>
        let (s, old) := stepAt (chargeStep (tlbKeep s (holderOf s.me) s.me.did a.toNat) pa) pa n (acquires o) upd
        .done (k s old))
    | .remote _ _ => .trap .xlate a
    | .dev => .trap .xlate a))

/-- AMO of `n` bytes (R203). -/
def amo (g : Guard) (o : Order) (sc : Scope) (op : AmoOp) (a b c : SReg) (n : Nat) : State → Host.Outcome State Fault Refusal :=
  issue (syncIssue g [b.val, c.val] [a.val] true [.core]) (fun s =>
    let y := (sreg s c.val).toNat % 256 ^ n
    rmw s (sreg s b.val) n o sc (.amo op n y) (fun old => some (amoApply op n old y)) (fun s old => setSreg s a.val (w64 old)))

/-- AMO.D (R203). -/
def execAmoD (g : Guard) (o : Order) (sc : Scope) (op : AmoOp) (a : SReg) (b : SReg) (c : SReg) : State → Host.Outcome State Fault Refusal :=
  amo g o sc op a b c 8

/-- AMO.W (R203). -/
def execAmoW (g : Guard) (o : Order) (sc : Scope) (op : AmoOp) (a : SReg) (b : SReg) (c : SReg) : State → Host.Outcome State Fault Refusal :=
  amo g o sc op a b c 4

/-- AMO.H (R203). -/
def execAmoH (g : Guard) (o : Order) (sc : Scope) (op : AmoOp) (a : SReg) (b : SReg) (c : SReg) : State → Host.Outcome State Fault Refusal :=
  amo g o sc op a b c 2

/-- CAS.D (R204). -/
def execCasD (g : Guard) (o : Order) (sc : Scope) (a : SReg) (b : SReg) (c : SReg) : State → Host.Outcome State Fault Refusal :=
  issue (syncIssue g [a.val, b.val, c.val] [a.val] true [.core]) (fun s =>
    rmw s (sreg s b.val) 8 o sc (.cas 8 (sreg s a.val).toNat (sreg s c.val).toNat) (fun old => if old = (sreg s a.val).toNat then some (sreg s c.val).toNat else none)
      (fun s old => setSreg s a.val (w64 old)))

/-- The pair of registers r + 1 : r as a number. -/
def pairVal (s : State) (r : Nat) : Nat := (sreg s r).toNat + (sreg s (r + 1)).toNat * 2 ^ 64

/-- CAS.Q (R204). -/
def execCasQ (g : Guard) (o : Order) (sc : Scope) (a : SReg) (b : SReg) (c : SReg) : State → Host.Outcome State Fault Refusal :=
  issue (syncIssue g [a.val, a.val + 1, b.val, c.val, c.val + 1] [a.val, a.val + 1] true [.core]) (fun s =>
    rmw s (sreg s b.val) 16 o sc (.cas 16 (pairVal s a.val) (pairVal s c.val)) (fun old => if old = pairVal s a.val then some (pairVal s c.val) else none)
      (fun s old => setSreg (setSreg s a.val (w64 old)) (a.val + 1) (w64 (old / 2 ^ 64))))

/-- Bytes of a RED (R53). -/
def redBytes : RedWidth → Nat
  | .d => 8
  | .w => 4
  | .h => 2

/-- RED: sent to the home and complete at once (R205). -/
def execRed (g : Guard) (o : Order) (sc : Scope) (wd : RedWidth) (op : AmoOp) (b : SReg) (c : SReg) : State → Host.Outcome State Fault Refusal :=
  issue (syncIssue g [b.val, c.val] [] true [.core]) (fun s =>
    let n := redBytes wd
    let y := (sreg s c.val).toNat % 256 ^ n
    let a := sreg s b.val
    withStep s a n .write true [] (fun p => withRelease s (releases o) sc (fun s =>
      match p with
      | .spad x =>
        let key := spadKey s.me.core x
        if spadBusy s s.me.core x n s.me.did then .wait .retry
        else .done { s with mem := memPut s.mem key (leBytes n (amoApply op n (memVal s.mem key n) y)) }
      | .mem pa => .done (sendMsg (post (tlbKeep s (holderOf s.me) s.me.did a.toNat) (.red op) pa n y [] false) a pa (postAsk (.red op) n y))
      | .remote _ _ => .trap .xlate a
      | .dev => .trap .xlate a)))

/-! ### Reservations (R207 to R210) -/

/-- A grant reaches the strand that waits for it (R207): the register, the clock, the reservation. -/
def takeGrant (s : State) (pa : Nat) (reg : Nat) : Option State :=
  match kget? s.resv pa with
  | some q =>
    if q.holder = some s.me.key then q.grant.map (fun g =>
      let s := { s with resv := kset s.resv pa { q with grant := none } }
      updMe (raiseClock (setSreg s reg (w64 g.1)) g.2) (fun t => { t with rsv := some (pa, t.gates.length) }))
    else none
  | none => none

/-- LRW: requests the reservation and waits for it (R207). -/
def execLrw (g : Guard) (_sc : Scope) (a : SReg) (b : SReg) : State → Host.Outcome State Fault Refusal :=
  issue (syncIssue g [b.val] [a.val] false [.core]) (fun s =>
    let va := sreg s b.val
    withStep s va 8 .both false [chk s.me.rsv.isSome .illegal s.words] (fun p => match p with
      | .mem pa =>
        if !stepReady s pa then .wait .retry
        else atPeer s va pa (.lrw s.me.sid) (fun s =>
          let s := tlbKeep s (holderOf s.me) s.me.did va.toNat
          let q := kget s.resv pa ⟨none, [], none⟩
          let s := if q.holder = some s.me.key || q.waiters.any (fun w => w.1 == s.me.key) then s
            else grantNext { s with resv := kset s.resv pa { q with waiters := q.waiters ++ [(s.me.key, readClock s pa)] } } pa 0
          let mine := (kget? s.resv pa).any (fun q => q.holder == some s.me.key)
          if mine && poisonedAt s pa 8 then .trap .poison va
          else match takeGrant s pa a.val with
          | some t => .done t
          | none => .hold (updMe s (fun t => { t with wait := .lrw, wnext := s.nextPc, wreg := a.val, wkey := pa, wval := va.toNat })))
      | .spad _ => .trap .xlate va
      | .remote _ _ => .trap .xlate va
      | .dev => .trap .xlate va))

/-- The checks SCH and RLS share, and their release (R208, R209); `ask` is what they ask another package for: the reserved doubleword is named by its physical address, known once no fault of R201 stands.
DEDUCED: log entry 26. -/
def withHeld (s : State) (va : Word) (sc : Scope) (ask : RemoteOp) (k : State → Nat → Res) : Res :=
  let other := match s.me.rsv with
    | none => true
    | some (pa, _) => match stepPlace s va 8 .both false with
      | .ok (.mem x) => x / 8 != pa / 8
      | _ => false
  withStep s va 8 .both false [chk other .illegal s.words] (fun p => match p with
    | .mem pa => if acked s sc && stepReady s pa then atPeer (raiseClock s s.me.h) va pa ask (fun s => k s pa) else .wait .retry
    | .spad _ => .trap .xlate va
    | .remote _ _ => .trap .xlate va
    | .dev => .trap .xlate va)

/-- SCH: stores to the reserved word and hands the reservation on (R208). -/
def execSch (g : Guard) (sc : Scope) (a : SReg) (b : SReg) : State → Host.Outcome State Fault Refusal :=
  issue (syncIssue g [a.val, b.val] [] true [.core]) (fun s =>
    let va := sreg s b.val
    withHeld s va sc (.sch s.me.sid (sreg s a.val).toNat) (fun s pa =>
      let (s, _) := stepAt (chargeStep (tlbKeep s (holderOf s.me) s.me.did va.toNat) pa) pa 8 true (fun _ => some (sreg s a.val).toNat)
      .done (updMe (resvRelease s pa s.me.key 0) (fun t => { t with rsv := none }))))

/-- RLS: gives the reservation up without a write (R209), beyond the package with a clock of one more than the strand's (R286). -/
def execRls (g : Guard) (sc : Scope) (b : SReg) : State → Host.Outcome State Fault Refusal :=
  issue (syncIssue g [b.val] [] true [.core]) (fun s =>
    let va := sreg s b.val
    withHeld s va sc (.rls s.me.sid) (fun s pa =>
      .done (updMe (resvRelease (tlbKeep s (holderOf s.me) s.me.did va.toNat) pa s.me.key (readClock s pa)) (fun t => { t with rsv := none }))))

/-! ### Barrier objects (R211 to R214) -/

/-- BARI and BARX: releases, posted (R213). -/
def postBar (g : Guard) (sc : Scope) (a b : SReg) (op : PostOp) (v : Word → Nat) : State → Host.Outcome State Fault Refusal :=
  issue (syncIssue g [a.val, b.val] [] true [.core]) (fun s =>
    let va := sreg s b.val
    withStep s va 32 .write false [] (fun p => match p with
      | .mem pa => withRelease s true sc (fun s =>
          .done (sendMsg (post (tlbKeep s (holderOf s.me) s.me.did va.toNat) op pa 32 (v (sreg s a.val)) [] false) va pa (postAsk op 32 (v (sreg s a.val)))))
      | .spad _ => .trap .xlate va
      | .remote _ _ => .trap .xlate va
      | .dev => .trap .xlate va))

/-- BARI (R213). -/
def execBari (g : Guard) (sc : Scope) (a : SReg) (b : SReg) : State → Host.Outcome State Fault Refusal :=
  postBar g sc a b .bari (fun x => x.toNat % 2 ^ 32)

/-- BARX (R213). -/
def execBarx (g : Guard) (sc : Scope) (a : SReg) (b : SReg) : State → Host.Outcome State Fault Refusal :=
  postBar g sc a b .barx (fun x => x.toNat)

/-- BARA: one arrival, the phase before the step returned (R213). -/
def execBara (g : Guard) (sc : Scope) (a : SReg) (b : SReg) : State → Host.Outcome State Fault Refusal :=
  issue (syncIssue g [b.val] [a.val] true [.core]) (fun s =>
    let va := sreg s b.val
    withStep s va 32 .both false [] (fun p => match p with
      | .mem pa => withRelease s true sc (fun s =>
        if !stepReady s pa then .wait .retry
        else if poisonedAt s pa 32 then .trap .poison va
        else atPeer s va pa .bara (fun s =>
          let (s, old) := stepAt (chargeStep (tlbKeep s (holderOf s.me) s.me.did va.toNat) pa) pa 32 false (fun old => some (arriveApply old))
          .done (setSreg s a.val (w64 (bits old 63 32)))))
      | .spad _ => .trap .xlate va
      | .remote _ _ => .trap .xlate va
      | .dev => .trap .xlate va))

/-- Phase k of a barrier object has completed (R214). -/
def phaseDone (v k : Nat) : Bool :=
  let d := (bits v 63 32 + 2 ^ 32 - k % 2 ^ 32) % 2 ^ 32
  decide (1 ≤ d ∧ d < 2 ^ 31)

/-- The line of a read at its home is renewed for the strand in turn (R214, R215, R286): the state, and the time that an acquire of it merges. -/
def readHome (s : State) (pa : Nat) : State × Nat :=
  let c := readClock s pa
  let (s, w, _) := if isFar pa then lease s (pa / 64) c s.me.did else renew s (pa / 64) c s.me.did
  (s, if isFar pa then max c w else w)

/-- The object is read at its home with its lease renewed (R214): whether the phase is done, with the clock of an acquire then, else with the count of writes
after which it is read again. -/
def lookBar (s : State) (pa k : Nat) : State × Bool :=
  if isHost pa then (s, phaseDone (memVal s.mem pa 32) k)
  else
    let (s, w) := readHome s pa
    if phaseDone (anyVal s pa 32) k then (raiseClock s w, true)
    else (updMe s (fun t => { t with wn := (timesOf s (pa / 64)).n }), false)

/-- BARW: waits until phase k has completed (R214). DEDUCED: log entry 27. -/
def execBarw (g : Guard) (_sc : Scope) (a : SReg) (b : SReg) : State → Host.Outcome State Fault Refusal :=
  issue (syncIssue g [a.val, b.val] [] true [.core]) (fun s =>
    let va := sreg s b.val
    withStep s va 32 .read false [] (fun p => match p with
      | .mem pa =>
        if !stepReady s pa then .wait .retry
        else atPeer s va pa (.barw ((sreg s a.val).toNat % 2 ^ 32)) (fun s =>
          let k := (sreg s a.val).toNat % 2 ^ 32
          let (s, ok) := lookBar (chargeStep (tlbKeep s (holderOf s.me) s.me.did va.toNat) pa) pa k
          if ok then .done s
          else .hold (updMe s (fun t => { t with wait := .barw, wnext := s.nextPc, wkey := pa, wval := k, wva := va.toNat })))
      | .spad _ => .trap .xlate va
      | .remote _ _ => .trap .xlate va
      | .dev => .trap .xlate va))

/-! ### Monitors and polling (R215 to R217) -/

/-- POLL: the doubleword from its home, never from a leased copy (R215). -/
def execPoll (g : Guard) (_sc : Scope) (a : SReg) (b : SReg) : State → Host.Outcome State Fault Refusal :=
  issue (syncIssue g [b.val] [a.val] true [.core]) (fun s =>
    let va := sreg s b.val
    withStep s va 8 .read false [] (fun p => match p with
      | .mem pa =>
        if !stepReady s pa then .wait .retry
        else if poisonedAt s pa 8 then .trap .poison va
        else atPeer s va pa (.load 8) (fun s =>
          let s := tlbKeep s (holderOf s.me) s.me.did va.toNat
          let s := if isHost pa then s else
            let (s, w) := readHome s pa
            raiseClock s w
          .done (setSreg (chargeStep s pa) a.val (w64 (anyVal s pa 8))))
      | .spad _ => .trap .xlate va
      | .remote _ _ => .trap .xlate va
      | .dev => .trap .xlate va))

/-- MON: arms the monitor on a line (R216); memory beyond the package raises XLATE (R453). DEDUCED: log entry 27. -/
def execMon (g : Guard) (_sc : Scope) (b : SReg) : State → Host.Outcome State Fault Refusal :=
  issue (syncIssue g [b.val] [] true [.core]) (fun s =>
    let va := sreg s b.val
    let beyond := isTranslated va && (match translate s (holderOf s.me) s.me.did va.toNat with
      | .ok (pa, _) => bits pa 47 40 != 0
      | .error _ => false)
    withStep s va 64 .read false [chk beyond .xlate va] (fun p => match p with
      | .mem pa =>
        if !homeReady s (pa / 64) then .wait .retry
        else
          let s := demand (chargeStep (tlbKeep s (holderOf s.me) s.me.did va.toNat) pa) (pa / 64) s.me.did
          let wm := (timesOf s (pa / 64)).wts
          .done (updMe (raiseClock s wm) (fun t => { t with mon := some (pa / 64, wm), monN := (timesOf s (pa / 64)).n }))
      | .spad _ => .trap .xlate va
      | .remote _ _ => .trap .xlate va
      | .dev => .trap .xlate va))

/-- The monitored line has been written since the monitor was armed (R217), which no eviction, drop or rebase does (R218): the wts that ends the wait.
DEDUCED: log entry 27. -/
def monFired (s : State) : Option Nat :=
  s.me.mon.bind (fun m => let x := timesOf s m.1; if x.n = s.me.monN then none else some x.wts)

/-- MWAIT: waits on the monitor (R217). -/
def execMwait (g : Guard) : State → Host.Outcome State Fault Refusal :=
  issue (syncIssue g [] [] false []) (fun s =>
    if s.me.mon.isNone then .done s
    else match monFired s with
      | some w => .done (updMe (raiseClock s w) (fun t => { t with mon := none }))
      | none => .hold (updMe s (fun t => { t with wait := .mwait, wnext := s.nextPc })))

/-! ### Fences and clocks (R274, R275, R281, R282) -/

/-- FENCE (R274). -/
def execFence (g : Guard) (sc : Scope) : State → Host.Outcome State Fault Refusal :=
  issue (syncIssue g [] [] true []) (fun s => if acked s sc then .done (raiseClock s s.me.h) else .wait .retry)

/-- FENCE.S (R274): the clock is unchanged. -/
def execFenceS (g : Guard) (sc : Scope) : State → Host.Outcome State Fault Refusal :=
  issue (syncIssue g [] [] true []) (fun s => if acked s sc then .done (updMe s (fun t => { t with sf := max t.sf t.h })) else .wait .retry)

/-- The work of a path that a FENCE.X waits for (R275, R276, R280). -/
def fenceWork (s : State) (sc : Scope) (k1 k2 : Path) : List Nat :=
  match k1 with
  | .core => ((s.me.posted.filter (fun p => !p.far || sc == .sys)).map (fun p => p.id)) ++ (if k2 = .bank then s.me.wbs else [])
  | .copy => s.cores.flatMap (fun e => (e.2.copies.filter (fun c => c.key == s.me.key)).map (fun c => c.id))
  | .matrix => s.cores.flatMap (fun e => (e.2.matq.filter (fun c => c.key == s.me.key)).map (fun c => c.id))
  | .stream => []
  | .bank => (s.bank.filter (fun b => b.key == s.me.key)).map (fun b => b.id)

/-- The pushes a FENCE.X waits for (R276): those its bound streams have accepted. -/
def fencePush (s : State) (k1 : Path) : List (Nat × Nat × Nat × Nat) :=
  if k1 = .stream then s.me.z.toList.filterMap (fun z => z.map (fun x =>
    let t := ctxOf s s.me.core x
    (s.me.core, x, t.ser, t.written + t.pushes.length)))
  else []

/-- FENCE.X: an obligation that the next instruction of path k2 meets (R275). -/
def execFenceX (g : Guard) (sc : Scope) (k1 : Path) (k2 : Path) : State → Host.Outcome State Fault Refusal :=
  issue (syncIssue g [] [] true []) (fun s =>
    let f : FenceX := ⟨sc, k1, k2, fenceWork s sc k1 k2, fencePush s k1, if k1 = .core then 0 else kget s.me.ends (2 ^ 64 + pathNo k1) 0⟩
    .done (updMe s (fun t => { t with fencex := t.fencex ++ [f] })))

/-- CLKMAX merges a clock received in data (R281). -/
def execClkmax (g : Guard) (a : SReg) : State → Host.Outcome State Fault Refusal :=
  issue (syncIssue g [a.val] [] true []) (fun s =>
    let x := (sreg s a.val).toNat
    let e := bits x 63 48
    let c := bits x 47 0
    let v := if e = s.era % 2 ^ 16 then c else if e = (s.era + 2 ^ 16 - 1) % 2 ^ 16 then c - 2 ^ 46 else 0
    .done (raiseClock s (min v 0xA00000000000)))

/-- RDTCK (R282). -/
def execRdtck (g : Guard) (a : SReg) : State → Host.Outcome State Fault Refusal :=
  issue (syncIssue g [] [a.val] true []) (fun s => .done (setSreg s a.val (w64 (s.era % 2 ^ 16 * 2 ^ 48 + s.me.tck % 2 ^ 48))))

end Sys2Proof.Machine
end

