-- ==== Sys2Proof/Machine/Bank.lean ====
section
/-! DEFINITION. Page 7: completion pairs and bank commands, and the bank units that run them. -/

namespace Sys2Proof.Machine

/-! ### Completion pairs (R400, R411) -/

/-- The checks of a completion pair (R29, R400, R411): its physical address, or the trap. -/
def pairPlace (s : State) (cp : Word) (need : Need) : Except (Cause × Word) Nat :=
  if privAccess s cp then .error (.priv, cp)
  else if cp.toNat % 16 != 0 then .error (.misalign, cp)
  else if isTranslated cp then checkVa s (holderOf s.me) s.me.did cp.toNat need false
  else .error (if isDevice cp then devOther s.me.did cp else (.xlate, cp))

/-- BKSEQ prepares a completion pair (R400). -/
def execBkseq (g : Guard) (b : SReg) : State → Host.Outcome State Fault Refusal :=
  issue (msgIssue g [b.val] [] .run [.core]) (fun s =>
    let cp := sreg s b.val
    if onBank s && (isLocalSpad cp || (remoteOf cp).isSome) then .back
    else if stalls s cp then .wait .retry
    else match pairPlace s cp .write with
      | .error (c, v) => .trap c v
      | .ok pa =>
        let hs := heldBy s cp.toNat 16
        if !s.me.posted.isEmpty || heldFull s hs then .wait .retry
        else
          let s := raiseClock (tlbKeep s (holderOf s.me) s.me.did cp.toNat) s.me.h
          .done (patchWindows (post s .store pa 16 0 hs false) pa 16 0))

/-- BKSTAT: commands of a pair that have not ended (R411). DEDUCED: log entry 41. -/
def execBkstat (g : Guard) (a : SReg) (b : SReg) : State → Host.Outcome State Fault Refusal :=
  issue (msgIssue g [b.val] [a.val] .run [.core]) (fun s =>
    let cp := sreg s b.val
    if onBank s && (isLocalSpad cp || (remoteOf cp).isSome) then .back
    else if stalls s cp then .wait .retry
    else match pairPlace s cp .read with
      | .error (c, v) => .trap c v
      | .ok pa =>
        if !stepReady s pa then .wait .retry
        else if poisonedAt s pa 16 then .trap .poison cp
        else
          let s := chargeEnergy (tlbKeep s (holderOf s.me) s.me.did cp.toNat) s.me.did 1
          let (s, w, _) := renew s (pa / 64) s.me.tck s.me.did
          let v := homeVal s pa 16
          .done (setSreg (raiseClock s w) a.val (w64 (v / 2 ^ 64) - w64 v)))

/-! ### Issue (R401 to R403) -/

/-- The descriptor is well formed for the operation (R403). -/
def bankFormed (op : BankOp) (d : Nat) : Bool :=
  let n := bits d 198 192
  let x := bits d 127 64
  let y := bits d 191 128
  bits d 255 199 == 0 && bits d 511 384 == 0 && decide (1 ≤ n ∧ n ≤ 64) && bits d 383 320 != 0
    && (match op with
      | .zero => x == 0 && y == 0
      | .copy => x != 0 && y == 0
      | .add => x != 0
      | .mul => x != 0
      | .fma => x != 0)

/-- The page that holds an address for a holder: its base, its size and the generation of the translation (R403). -/
def pageOf (s : State) (holder did va : Nat) : Nat × Nat × Nat :=
  match tlbFind s holder did va with
  | some t => (t.va, t.size, t.gen)
  | none => match walkFrom s va (domOf s did).troot walkLevels with
    | .ok (_, size, _) => (alignDown va size, size, (domOf s did).gen)
    | .error _ => (alignDown va 4096, 4096, (domOf s did).gen)

/-- An operand chunk translated (R403): its physical address, or the address that fails with its trap. -/
def chunkPlace (s : State) (a : Word) (need : Need) : Except (Word × Cause × Word) Nat :=
  if isTranslated a then
    match checkVa s (holderOf s.me) s.me.did a.toNat need false with
    | .error (c, v) => .error (a, c, v)
    | .ok pa => .ok pa
  else .error (a, if isDevice a then devOther s.me.did a else (.xlate, a))

/-- The chunks of a command in ascending order, each with what each of its operands translates to: destination, first and second source. -/
def chunkPlaces (s : State) (useX useY : Bool) (d : Nat) : List (List (Word × Except (Word × Cause × Word) Nat)) :=
  (upto 0 (bits d 198 192)).map (fun i =>
    let at' (o : Nat) : Word := w64 (bits d (o + 63) o) + w64 (2048 * i)
    [(at' 0, chunkPlace s (at' 0) .write)]
      ++ (if useX then [(at' 64, chunkPlace s (at' 64) .read)] else [])
      ++ (if useY then [(at' 128, chunkPlace s (at' 128) .read)] else []))

/-- The physical address of an operand, 0 where it has none. -/
def placeNat (x : Except (Word × Cause × Word) Nat) : Nat :=
  match x with
  | .ok pa => pa
  | .error _ => 0

/-- The translation fault of the least rank at the lowest failing address (R29, R403). -/
def chunkFault (cs : List (List (Word × Except (Word × Cause × Word) Nat))) : Option (Cause × Word) :=
  (minBy (fun (e : Word × Cause × Word) => causeRank e.2.1 * 2 ^ 64 + e.1.toNat) (cs.flatten.filterMap (fun x => match x.2 with
    | .error e => some e
    | .ok _ => none))).map (fun e => e.2)

/-- A source chunk that lies in another channel than its destination (R403). -/
def chunkSplit (cs : List (List (Word × Except (Word × Cause × Word) Nat))) : Option (Cause × Word) :=
  (cs.findSome? (fun c => match c with
    | [] => none
    | d :: srcs => (srcs.find? (fun x => match d.2, x.2 with
      | .ok p, .ok q => channelOf p != channelOf q
      | _, _ => false)).map (fun x => x.1))).map (fun a => (.misalign, a))

/-- The record's place, if it is asked for (R403). -/
def recPlace (s : State) (a : Nat) : Except (Cause × Word) (Option Nat) :=
  if a = 0 then .ok none
  else if privAccess s (w64 a) then .error (.priv, w64 a)
  else if a % 64 != 0 then .error (.misalign, w64 a)
  else if isTranslated (w64 a) then
    match checkVa s (holderOf s.me) s.me.did a .write false with
    | .error e => .error e
    | .ok pa => .ok (some pa)
  else .error (if isDevice (w64 a) then devOther s.me.did (w64 a) else (.xlate, w64 a))

/-- Bank commands of the issuing core that have not ended (R403): a core, or 4096 + channel. -/
def bankCore (s : State) : Nat := holderOf s.me

/-- A bank command (R403): `sc` is the scalar. On a bank core a descriptor in a scratchpad window takes the return trap; an operand, CPAIR or REC there raises XLATE as
anywhere. DEDUCED: log entry 41. DEDUCED: log entry 119. -/
def bankCmd (g : Guard) (a b : SReg) (rd : List Nat) (op : BankOp) (sc : State → Nat) : State → Host.Outcome State Fault Refusal :=
  issue (msgIssue g (b.val :: rd) [a.val] .run [.core, .bank]) (fun s =>
    let dp := sreg s b.val
    if onBank s && (isLocalSpad dp || (remoteOf dp).isSome) then .back
    else if stalls s dp then .wait .retry
    else match firstTrap [chk (dp.toNat % 64 != 0) .misalign dp, chkE (if isTranslated dp then checkVa s (holderOf s.me) s.me.did dp.toNat .read false
        else .error (if isDevice dp then devOther s.me.did dp else (.xlate, dp)))] with
      | some (c, v) => .trap c v
      | none => match checkVa s (holderOf s.me) s.me.did dp.toNat .read false with
        | .error (c, v) => .trap c v
        | .ok dpa =>
          if !coreReady s dpa then .wait .retry
          else if corePoisoned s dpa 64 then .trap .poison dp
          else
            let (t, d) := coreRead (tlbKeep s (holderOf s.me) s.me.did dp.toNat) dpa 64
            if !bankFormed op d then .trap .illegal s.words
            else
              let useX := op != .zero
              let useY := useX && op != .copy && bits d 191 128 != 0
              let cs := chunkPlaces t useX useY d
              let cp := w64 (bits d 383 320)
              let ops := [bits d 63 0] ++ (if useX then [bits d 127 64] else []) ++ (if useY then [bits d 191 128] else [])
              if (cs.flatten.map (fun x => x.1) ++ [cp, w64 (bits d 319 256)]).any (stalls t) then .wait .retry
              else match firstTrap (ops.map (fun x => chk (x % 2048 != 0) .misalign (w64 x)) ++ [chk (cp.toNat % 16 != 0) .misalign cp,
                  chk (bits d 319 256 % 64 != 0) .misalign (w64 (bits d 319 256)), chunkFault cs, chunkSplit cs, chkE (pairPlace t cp .write), chkE (recPlace t (bits d 319 256))]) with
              | some (c, v) => .trap c v
              | none => match pairPlace t cp .write, recPlace t (bits d 319 256) with
                | .ok cpa, .ok rec? =>
                  if 16 ≤ (s.bank.filter (fun k => k.core == bankCore s)).length || !stepReady t cpa then .wait .retry
                  else if poisonedAt t cpa 16 then .trap .poison (cp + 8)
                  else
                    let h := holderOf s.me
                    let t := (cs.flatten.map (fun x => x.1.toNat)).foldl (fun t va => tlbKeep t h s.me.did va) t
                    let t := tlbKeep t h s.me.did cp.toNat
                    let (t, old) := stepAt (chargeEnergy t s.me.did 1) (cpa + 8) 8 false (fun old => some ((old + 1) % 2 ^ 64))
                    let n := (old + 1) % 2 ^ 64
                    let chunks := cs.map (fun c =>
                      let p (i : Nat) : Nat := ((c.map (fun x => placeNat x.2)).getD i 0)
                      ({ dst := p 0, src1 := p 1, src2 := p 2, pages := c.map (fun x => pageOf t h s.me.did x.1.toNat), state := 0, cause := 0, ops := 0, bufs := [] } : Chunk))
                    let cmd : BankCmd := { id := t.nextId, key := s.me.key, sid := s.me.sid, did := s.me.did, op, scalar := sc s, useY, chunks, ticket := n, cpair := cpa,
                                           cpairVa := cp, recPa := rec?, tb := max t.me.tck (kget t.me.floors 4 0), begun := false, core := bankCore s }
                    .done (setSreg { t with bank := t.bank ++ [cmd], nextId := t.nextId + 1 } a.val (w64 n))
                | .error (c, v), _ => .trap c v
                | _, .error (c, v) => .trap c v)

/-- BKADD (R402, R404). -/
def execBkadd (g : Guard) (a : SReg) (b : SReg) (c : SReg) : State → Host.Outcome State Fault Refusal :=
  bankCmd g a b [c.val] .add (fun s => wbits (sreg s c.val) 15 0)

/-- BKMUL (R402, R404). -/
def execBkmul (g : Guard) (a : SReg) (b : SReg) (c : SReg) : State → Host.Outcome State Fault Refusal :=
  bankCmd g a b [c.val] .mul (fun s => wbits (sreg s c.val) 15 0)

/-- BKFMA (R402, R404). -/
def execBkfma (g : Guard) (a : SReg) (b : SReg) (c : SReg) : State → Host.Outcome State Fault Refusal :=
  bankCmd g a b [c.val] .fma (fun s => wbits (sreg s c.val) 15 0)

/-- DRCPY (R402, R405). -/
def execDrcpy (g : Guard) (a : SReg) (b : SReg) : State → Host.Outcome State Fault Refusal := bankCmd g a b [] .copy (fun _ => 0)

/-- DRZERO (R402, R405). -/
def execDrzero (g : Guard) (a : SReg) (b : SReg) : State → Host.Outcome State Fault Refusal := bankCmd g a b [] .zero (fun _ => 0)

/-! ### The bank units (R404 to R410) -/

/-- The mode of a chunk (R405, R409). -/
def chunkMode (op : BankOp) (k : Chunk) : Nat :=
  if op = .copy && k.dst != k.src1 && !sameSubarray k.dst k.src1 then 1 else 0

/-- The rows a chunk reads before its write, in order (R404, R405): a clone reads its row in the operation that writes it. -/
def chunkReads (c : BankCmd) (k : Chunk) : List Nat :=
  match c.op with
  | .zero => []
  | .copy => [k.src1]
  | .add => k.src1 :: (if c.useY then [k.src2] else [])
  | .mul => k.src1 :: (if c.useY then [k.src2] else [])
  | .fma => k.src1 :: (if c.useY then [k.src2] else []) ++ [k.dst]

/-- The 1,024 BF16 elements of a row. -/
def rowElems (l : List Byte) : List Nat := (upto 0 1024).map (fun i => leVal ((l.drop (2 * i)).take 2))

/-- The bytes written for a chunk from the rows read (R404, R405). -/
def chunkOut (c : BankCmd) (bufs : List (List Byte)) : List Byte :=
  let row (i : Nat) : List Nat := rowElems (bufs.getD i [])
  let x := row 0
  let y := if c.useY then row 1 else List.replicate 1024 c.scalar
  let d := row (if c.useY then 2 else 1)
  let pack (l : List Nat) : List Byte := l.flatMap (leBytes 2)
  match c.op with
  | .zero => List.replicate 2048 0
  | .copy => bufs.getD 0 []
  | .add => pack ((x.zip y).map (fun p => bankRound (addNum false (bankIn p.1) (bankIn p.2))))
  | .mul => pack ((x.zip y).map (fun p => bankRound (mulNum (bankIn p.1) (bankIn p.2))))
  | .fma => pack (((x.zip y).zip d).map (fun p =>
      bankRound (addNum false (decodeNum .bf16 (bankRound (mulNum (bankIn p.1.1) (bankIn p.1.2)))) (bankIn p.2))))

/-- The state with a command changed. -/
def updBankCmd (s : State) (id : Nat) (f : BankCmd → BankCmd) : State := { s with bank := mapIf (fun k => k.id == id) f s.bank }

/-- A chunk of a command changed. -/
def updChunk (s : State) (id i : Nat) (f : Chunk → Chunk) : State :=
  updBankCmd s id (fun k => { k with chunks := (k.chunks.zipIdx).map (fun x => if x.2 = i then f x.1 else x.1) })

/-- The chunk a channel works on next (R406): of the oldest command with an unfinished chunk there, its first. -/
def bankNext (s : State) (ch : Nat) : Option (BankCmd × Nat × Chunk) :=
  s.bank.findSome? (fun c => ((c.chunks.zipIdx).find? (fun x => x.1.state == 0 && channelOf x.1.dst == ch)).map (fun x => (c, x.2, x.1)))

/-- One row operation at a bank core (R405, R406): none in a drain window or an interval (R262). A bank core out of service (R446) fails the chunks that come to it,
with a cause that the spec does not name: a free value. DEDUCED: log entry 68. -/
def bankRow (s : State) (ch : Nat) : State :=
  match bankNext s ch with
  | none => s
  | some (c, i, k) =>
    let reads := chunkReads c k
    if calState s.gtc != 0 then s
    else if s.health.deadBk.contains ch then
      updChunk { s with fresh := s.fresh + 1 } c.id i (fun k => { k with state := 2, cause := (Config.fatalCause s.fresh).val + 1, bufs := [] })
    else if c.op = .copy && k.dst == k.src1 then updChunk s c.id i (fun k => { k with state := 1 })
    else
      let s := updBankCmd (chargeEnergy s c.did 1) c.id (fun c => { c with begun := true })
      let clone := c.op == .zero || (c.op == .copy && chunkMode .copy k == 0)
      let fail (s : State) : State := updChunk s c.id i (fun k => { k with state := 2, cause := causeCode .poison })
      let write (s : State) (bufs : List (List Byte)) : State :=
        let s := { s with mem := memPut s.mem k.dst (chunkOut c bufs) }
        updChunk (clearPoison s k.dst 2048) c.id i (fun k => { k with state := 1, ops := k.ops + 1, bufs := [] })
      if clone then
        match reads with
        | [] => write s []
        | r :: _ => if poisonedAt s r 2048 then fail (foundDead s r 2048 c.did) else write s [memBytes s.mem r 2048]
      else if k.ops < reads.length then
        let r := reads.getD k.ops 0
        if poisonedAt s r 2048 then fail (foundDead s r 2048 c.did)
        else updChunk s c.id i (fun k => { k with ops := k.ops + 1, bufs := k.bufs ++ [memBytes s.mem r 2048] })
      else write s k.bufs

/-- Every unfinished chunk of a command fails with a cause (R407). DEDUCED: log entry 79. -/
def bankCut (s : State) (id cause : Nat) : State :=
  updBankCmd s id (fun c => { c with chunks := c.chunks.map (fun k => if k.state = 0 then { k with state := 2, cause := cause, bufs := [] } else k) })

/-- The completion record (R409). -/
def bankRecord (c : BankCmd) : Nat :=
  let bad := c.chunks.find? (fun k => k.state == 2)
  let cause := (bad.map (fun k => k.cause)).getD 0
  let codes := (c.chunks.zipIdx).foldl (fun a x => a + (x.1.state + chunkMode c.op x.1 * 4) * 2 ^ (4 * x.2)) 0
  c.ticket + ((if bad.isSome then 2 else 1) + cause * 2 ^ 8 + c.chunks.length * 2 ^ 16 + (c.chunks.filter (fun k => k.state == 1)).length * 2 ^ 24) * 2 ^ 64
    + codes * 2 ^ 256

/-- A write of a bank command at a physical address (R408), with its energy (R468): dropped and counted when it no longer lies in the DID's ranges. -/
def bankPut (s : State) (d pa : Nat) (bs : List Byte) (clock : Nat) : State × Nat :=
  if mayReach s d pa then homeWrite (chargeEnergy s d 1) pa bs clock 0 4096 d else (addCnt s d 5 1, clock)

/-- The lines that the end of a command writes can be written now (R262). -/
def bankEndReady (s : State) (id : Nat) : Bool :=
  (s.bank.filter (fun c => c.id == id)).all (fun c => homeReady s (c.cpair / 64) && !(c.recPa.any (fun pa => !homeReady s (pa / 64))))

/-- The end of a command (R408 to R410): its record, then the completion step in ticket order, then SLOT_OVERRUN to its strand. DEDUCED: log entry 79. -/
def bankFinish (s : State) (id : Nat) : State :=
  match s.bank.find? (fun c => c.id == id) with
  | none => s
  | some c =>
    let first := (s.bank.find? (fun x => x.cpair == c.cpair)).any (fun x => x.id == id)
    if c.chunks.any (fun k => k.state == 0) || !first then s
    else
      let (s, t) := match c.recPa with
        | none => (s, c.tb)
        | some pa => bankPut s c.did pa (leBytes 64 (bankRecord c)) c.tb
      let (s, _) := bankPut s c.did c.cpair (leBytes 8 c.ticket) t
      let s := { s with bank := s.bank.filter (fun x => x.id != id) }
      if c.chunks.any (fun k => k.cause == causeCode .slotOverrun) then
        updStrand s c.key (fun t => if t.dead then t else { t with async := t.async ++ [(.slotOverrun, c.cpairVa)] })
      else s

/-- A command ends once the lines that its end writes can be written (R262, R408). -/
def bankEnd (s : State) (id : Nat) : State := if bankEndReady s id then bankFinish s id else s

end Sys2Proof.Machine
end

