-- ==== Sys2Proof/Machine/Matrix.lean ====
section
/-! DEFINITION. Page 6: the matrix engine. -/

namespace Sys2Proof.Machine

/-- A MATRIX trap value (R370). -/
def matVal (n reason : Nat) : Word := w64 (n + reason * 2 ^ 8)

/-- The claimant of a slot of the strand's core, or of accumulator i at 16 + i (R367). -/
def claimOf (s : State) (i : Nat) : Option Nat := kget? (coreOf s s.me.core).claims i

/-- NOTCLAIMED for a slot, or for accumulator i at 16 + i (R370). -/
def claimTrap (s : State) (i : Nat) : Option (Cause × Word) :=
  chk (claimOf s i != some s.me.did) .matrix (matVal (i % 16) 0x01)

/-- A command is an MMA. -/
def isMma : MatOp → Bool
  | .mma _ _ _ => true
  | .mfill _ _ _ _ => false
  | .mfillV _ _ _ => false
  | .mldw _ _ => false
  | .msclSp _ _ => false
  | .mscl _ _ => false
  | .mstc _ _ _ => false
  | .mstcV _ _ => false
  | .mzero _ => false
  | .zeroSlot _ => false
  | .zeroAcc _ => false

/-- The matrix commands of a strand that are not complete, on whichever core it issued them. -/
def strandCmds (s : State) (key : Nat) : List MatCmd := s.cores.flatMap (fun e => e.2.matq.filter (fun m => m.key == key))

/-- The core's queue and the strand's limit have room for a command other than an MMA (R372). -/
def fillRoom (s : State) : Bool :=
  decide (((coreOf s s.me.core).matq.filter (fun m => !isMma m.op)).length < 16)
    && decide (((strandCmds s s.me.key).filter (fun m => !isMma m.op)).length < 8)

/-- A command put into its queue with what it captures at issue (R371, R374). -/
def pushCmd (s : State) (op : MatOp) : State :=
  let t := s.me
  let cmd : MatCmd := { id := s.nextId, key := t.key, sid := t.sid, did := t.did, op, fa := wbits t.fmta 3 0, fb := wbits t.fmtb 3 0, fc := wbits t.fmtc 3 0,
                        offa := wbits t.scla 8 0, offb := wbits t.sclb 8 0, rnd := t.rnd }
  { updCore s t.core (fun cs => { cs with matq := cs.matq ++ [cmd] }) with nextId := s.nextId + 1 }

/-- A matrix command other than MMA: its checks, then its place in the fill queue (R371 to R373). -/
def fillCmd (s : State) (traps : List (Option (Cause × Word))) (k : State → State) : Res :=
  match firstTrap traps with
  | some (c, v) => .trap c v
  | none => if fillRoom s then .done (k s) else .wait .retry

/-- The issue of a page-6 instruction. -/
def matIssue (g : Guard) (rd wr vregs : List Nat) (work : Bool) : Issue :=
  { engineIssue g rd wr (if work then [.matrix] else []) with vregs }

/-- The legal pairs of formats and their K (R380). -/
def pairK (fa fb : Nat) : Option Nat :=
  let b8 (f : Nat) : Bool := f == 1 || f == 2 || f == 3
  let blk (f : Nat) : Bool := f == 5 || f == 6
  if fa = 0 ∧ fb = 0 then some 128
  else if b8 fa && b8 fb then some 256
  else if fa = 4 ∧ fb = 4 then some 384
  else if blk fa && blk fb then some 512
  else none

/-- MMA (R379): checked and queued; the strand leaves the rotation until it completes (R373). -/
def execMma (g : Guard) (a : CAcc) (b : MSlot) (c : MSlot) : State → Host.Outcome State Fault Refusal :=
  issue (matIssue g [] [] [] true) (fun s =>
    let fa := wbits s.me.fmta 3 0
    let fb := wbits s.me.fmtb 3 0
    let pair (m : Nat) : List (Option (Cause × Word)) :=
      if fa = 4 ∧ fb = 4 then [chk (m % 2 == 1) .matrix (matVal m 0x04), if m % 2 = 1 then none else claimTrap s (m + 1)] else []
    match firstTrap ([claimTrap s (16 + a.val), claimTrap s b.val, claimTrap s c.val, chk (pairK fa fb).isNone .matrix (matVal a.val 0x03)] ++ pair b.val ++ pair c.val) with
    | some (e, v) => .trap e v
    | none =>
      if 2 ≤ ((coreOf s s.me.core).matq.filter (fun m => isMma m.op)).length then .wait .retry
      else .hold (updMe (pushCmd s (.mma a.val b.val c.val)) (fun t => { t with wait := .mma, wnext := s.nextPc })))

/-- A slot's data or sidecar holds a poisoned granule (R387). -/
def slotPoisoned (s : State) (c m : Nat) : Bool := poisonedAt s (slotKey c m 0) 8192 || poisonedAt s (sideKey c m 0) 512

/-- The zeroing of a slot, or of accumulator i at 16 + i, whose claim has ended is still queued: its new claimant sees zeros and no mark (R368). -/
def zeroing (s : State) (c i : Nat) : Bool :=
  (coreOf s c).matq.any (fun m => m.op == (if i < 16 then .zeroSlot i else .zeroAcc (i - 16)))

/-- An accumulator of a core written, with its poison mark. -/
def setAcc (s : State) (c a : Nat) (v : BitVec 32768) (pois : Bool) : State :=
  updCore s c (fun cs => { cs with
    acc := cs.acc.setIfInBounds a v
    accPois := if pois then cs.accPois ||| BitVec.ofNat 8 (2 ^ a) else cs.accPois &&& ~~~ BitVec.ofNat 8 (2 ^ a) })

/-- A slot, or an accumulator at 16 + its number, set to zero with its flags and its poison (R368). -/
def zeroStore (s : State) (c i : Nat) : State :=
  if i < 16 then
    let s := { s with mem := memZero (memZero s.mem (slotKey c i 0) 8192) (sideKey c i 0) 512 }
    flagSlot (clearPoison (clearPoison s (slotKey c i 0) 8192) (sideKey c i 0) 512) c i
  else setAcc s c (i - 16) 0 false

/-- A slot, or an accumulator at 16 + its number, that nobody claims has been found bad: it is zeroed before it is claimed (R442). -/
def foundBad (s : State) (c i : Nat) : Bool :=
  (claimOf s i).isNone && !zeroing s c i && (if i < 16 then slotPoisoned s c i else (coreOf s c).accPois.getLsbD (i - 16))

/-- MCLM: a claim (R367, R385, R442): `i` is a slot, or 16 + an accumulator. The DID's masks decide what it may newly claim (R367), so one that it has claimed already stays
claimed whatever they say (R393). An item outside the masks raises DOMAIN also where another DID has claimed it, as the order of R385 and R29 has it. DEDUCED: log entry 118. -/
def claim (g : Guard) (i : Nat) : State → Host.Outcome State Fault Refusal :=
  issue (matIssue g [] [] [] false) (fun s =>
    let k := domCore s s.me.core s.me.did
    let held := if i < 16 then bit k.opsm i else bit k.accm (i - 16)
    let owner := ownerBy (fun d => let k := domCore s s.me.core d; if i < 16 then bit k.opsm i else bit k.accm (i - 16))
    let busy := match claimOf s i with
      | some d => d != s.me.did
      | none => false
    fillCmd s [chk (!held && claimOf s i != some s.me.did) .domain (descriptor owner s.me.core (i % 16) (if i < 16 then 0x03 else 0x04)), chk busy .matrix (matVal (i % 16) 0x02)]
      (fun s => updCore (if foundBad s s.me.core i then zeroStore s s.me.core i else s) s.me.core (fun cs => { cs with claims := kset cs.claims i s.me.did })))

/-- MREL: unclaimed at issue, zeroed in command order (R368, R385). -/
def unclaim (g : Guard) (i : Nat) : State → Host.Outcome State Fault Refusal :=
  issue (matIssue g [] [] [] false) (fun s => fillCmd s [claimTrap s i] (fun s =>
    let s := pushCmd s (if i < 16 then .zeroSlot i else .zeroAcc (i - 16))
    updCore s s.me.core (fun cs => { cs with claims := kdel cs.claims i })))

/-- MCLM of a slot (R385). -/
def execMclmSlot (g : Guard) (a : MSlot) : State → Host.Outcome State Fault Refusal := claim g a.val

/-- MCLM of an accumulator (R385). -/
def execMclmAcc (g : Guard) (a : CAcc) : State → Host.Outcome State Fault Refusal := claim g (16 + a.val)

/-- MREL of a slot (R385). DEDUCED: log entry 35. -/
def execMrelSlot (g : Guard) (a : MSlot) : State → Host.Outcome State Fault Refusal := unclaim g a.val

/-- MREL of an accumulator (R385). -/
def execMrelAcc (g : Guard) (a : CAcc) : State → Host.Outcome State Fault Refusal := unclaim g (16 + a.val)

/-- MZERO (R385). -/
def execMzero (g : Guard) (a : CAcc) : State → Host.Outcome State Fault Refusal :=
  issue (matIssue g [] [] [] false) (fun s => fillCmd s [claimTrap s (16 + a.val)] (fun s => pushCmd s (.mzero a.val)))

/-- A bit for each number below n for which a test holds. -/
def maskOf (n : Nat) (f : Nat → Bool) : Nat := (List.range n).foldl (fun a i => a + b2n (f i) * 2 ^ i) 0

/-- MSTAT (R386). -/
def execMstat (g : Guard) (a : SReg) : State → Host.Outcome State Fault Refusal :=
  issue (matIssue g [] [a.val] [] false) (fun s =>
    let c := s.me.core
    let mine (i : Nat) : Bool := claimOf s i == some s.me.did
    let pend := (strandCmds s s.me.key).length
    .done (setSreg s a.val (w64 (maskOf 16 mine + maskOf 8 (fun i => mine (16 + i)) * 2 ^ 16 + min pend 15 * 2 ^ 24
      + maskOf 8 (fun i => mine (16 + i) && (coreOf s c).accPois.getLsbD i && !zeroing s c (16 + i)) * 2 ^ 32
      + maskOf 16 (fun m => mine m && slotPoisoned s c m && !zeroing s c m) * 2 ^ 40))))

/-- MFILL from scratchpad (R375). -/
def execMfill (g : Guard) (a : MSlot) (b : SReg) (c : SReg) : State → Host.Outcome State Fault Refusal :=
  issue (matIssue g [b.val, c.val] [] [] true) (fun s =>
    let src := sreg s b.val
    let d := sreg s c.val
    let len := wbits d 13 0
    let off := wbits d 28 16
    let bad := wbits d 63 29 != 0 || wbits d 15 14 != 0 || len == 0 || len % 64 != 0 || off % 64 != 0 || decide (8192 < off + len)
    let o := wbits src 17 0
    let out := !isLocalSpad src || decide (2 ^ 18 < o + len)
    fillCmd s [claimTrap s a.val, chk out .xlate src, chk (src.toNat % 64 != 0) .misalign src, chk bad .matrix (matVal a.val 0x05),
        if out || len == 0 then none else checkSpad s s.me.core s.me.did o len]
      (fun s => pushCmd s (.mfill a.val o off len)))

/-- MFILL from a vector register, read at issue (R375). -/
def execMfillV (g : Guard) (a : MSlot) (b : VReg) : State → Host.Outcome State Fault Refusal :=
  issue (matIssue g [] [] [b.val] true) (fun s => fillCmd s [claimTrap s a.val] (fun s => pushCmd s (.mfillV a.val (b.val % 8) (vreg s b.val))))

/-- DOMAIN for the lowest weight-store granule of a range that the strand's DID does not hold (R376). -/
def granuleTrap (s : State) (o n : Nat) : Option (Cause × Word) :=
  ((upto (o / 2 ^ 16) ((o + n - 1) / 2 ^ 16 - o / 2 ^ 16 + 1)).find? (fun g => decide (g < 16) && !bit (domCore s s.me.core s.me.did).wsg g)).map
    (fun g => (.domain, descriptor (granuleHolder s s.me.core g) s.me.core g 0x08))

/-- MLDW (R376). -/
def execMldw (g : Guard) (a : MSlot) (b : SReg) : State → Host.Outcome State Fault Refusal :=
  issue (matIssue g [b.val] [] [] true) (fun s =>
    let w := sreg s b.val
    let bad := decide (2 ^ 20 < w.toNat + 8192)
    fillCmd s [claimTrap s a.val, chk bad .matrix (matVal a.val 0x05), chk (w.toNat % 64 != 0) .misalign w, granuleTrap s w.toNat 8192]
      (fun s => pushCmd s (.mldw a.val w.toNat)))

/-- MSCL (R377). -/
def execMscl (g : Guard) (a : MSlot) (b : SReg) : State → Host.Outcome State Fault Refusal :=
  issue (matIssue g [b.val] [] [] true) (fun s =>
    let w := sreg s b.val
    let o := wbits w 17 0
    let sp := isLocalSpad w && decide (o + 512 ≤ 2 ^ 18)
    let ws := decide (w.toNat + 512 ≤ 2 ^ 20)
    fillCmd s [claimTrap s a.val, chk (!sp && !ws) .xlate w, chk (w.toNat % 64 != 0) .misalign w,
        if sp then checkSpad s s.me.core s.me.did o 512 else if ws then granuleTrap s w.toNat 512 else none]
      (fun s => pushCmd s (if sp then .msclSp a.val o else .mscl a.val w.toNat)))

/-- Bytes of a row of the store image (R384). -/
def storeRow : Nat → Nat
  | 7 => 128 | 0 => 64 | 5 => 16 | 6 => 16
  | _ => 32

/-- The format in FMTC writes scales (R384). -/
def isBlock (f : Nat) : Bool := f == 5 || f == 6

/-- A command that writes accumulator a stands in the core's order: whether it leaves a poison mark is known once it has been performed (R371, R384). -/
def accBusy (s : State) (c a : Nat) : Bool :=
  (coreOf s c).matq.any (fun m => match m.op with
    | .mma x _ _ => x == a
    | .mzero x => x == a
    | .zeroAcc x => x == a
    | _ => false)

/-- An MSTC of accumulator a: its trap at issue sees the effect of every earlier command, so that it waits for those that write the accumulator (R371, R384).
DEDUCED: log entry 35. -/
def storeCmd (s : State) (a : Nat) (tval : Word) (traps : List (Option (Cause × Word))) (k : State → State) : Res :=
  let mine := claimOf s (16 + a) == some s.me.did
  if mine && accBusy s s.me.core a then .wait .retry
  else fillCmd s (claimTrap s (16 + a) :: chk (mine && (coreOf s s.me.core).accPois.getLsbD a) .poison tval :: traps) k

/-- MSTC to scratchpad (R384). -/
def execMstc (g : Guard) (a : CAcc) (b : SReg) (c : SReg) : State → Host.Outcome State Fault Refusal :=
  issue (matIssue g [b.val, c.val] [] [] true) (fun s =>
    let dst := sreg s b.val
    let st := (sreg s c.val).toNat
    let fc := wbits s.me.fmtc 3 0
    let rb := storeRow fc
    let o := wbits dst 17 0
    let last := if isBlock fc then max (31 * st + rb) (32 * st + 32) else 31 * st + rb
    let bad := decide (st < rb) || (isLocalSpad dst && decide (2 ^ 18 < o + last))
    let rows := (upto 0 32).map (fun i => (o + i * st, rb)) ++ (if isBlock fc then [(o + 32 * st, 32)] else [])
    storeCmd s a.val dst [chk (!isLocalSpad dst) .xlate dst, chk (dst.toNat % 16 != 0) .misalign dst, chk (st % 16 != 0) .misalign (w64 st),
        chk bad .matrix (matVal a.val 0x05),
        if !isLocalSpad dst then none
        else (rows.filterMap (fun x => if x.1 < 2 ^ 18 then checkSpad s s.me.core s.me.did x.1 (min x.2 (2 ^ 18 - x.1)) else none)).head?]
      (fun s => pushCmd s (.mstc a.val o st)))

/-- Vector registers MSTC.V writes (R384). -/
def storeRegs (f : Nat) : Nat := match f with
  | 7 => 4 | 0 => 2
  | _ => 1

/-- MSTC to vector registers (R384), all of which the mode must have, whatever the guard (R14), and which wait for it (R153). -/
def execMstcV (g : Guard) (a : CAcc) (b : VReg) : State → Host.Outcome State Fault Refusal := fun s =>
  let rs := upto b.val (storeRegs (wbits s.me.fmtc 3 0))
  issue (matIssue g [] [] rs true) (fun s =>
    storeCmd s a.val 0 [] (fun s => updMe (pushCmd s (.mstcV a.val b.val)) (fun t => { t with vpend := t.vpend ++ rs }))) s

/-- A command names slot i, or accumulator i at 16 + i (R368); the operands of a T6 MMA, whose format `fa` it captured, are pairs of slots (R364). -/
def namesItem (op : MatOp) (fa i : Nat) : Bool :=
  match op with
  | .mma a m n => i == 16 + a || i == m || i == n || (fa == 4 && (i == m + 1 || i == n + 1))
  | .mfill m _ _ _ => i == m
  | .mfillV m _ _ => i == m
  | .mldw m _ => i == m
  | .msclSp m _ => i == m
  | .mscl m _ => i == m
  | .mstc a _ _ => i == 16 + a
  | .mstcV a _ => i == 16 + a
  | .mzero a => i == 16 + a
  | .zeroSlot m => i == m
  | .zeroAcc a => i == 16 + a

/-! ### The engine (R371, R378, R379, R384, R387) -/

/-- 64-byte units written to a slot or sidecar: good data clears a granule's poison, poisoned data marks it (R387). -/
def unitsPut (s : State) (adid : Nat) : List (Nat × Nat) → State
  | [] => s
  | (dst, src) :: rest =>
    let bad := poisonedAt s src 64
    let s := { s with mem := memPut s.mem dst (memBytes s.mem src 64) }
    unitsPut (if bad then poisonMark s dst adid else clearPoison s dst 64) adid rest

/-- Units of a block copied from one key to another. -/
def units (dst src n : Nat) : List (Nat × Nat) := (upto 0 (n / 64)).map (fun i => (dst + 64 * i, src + 64 * i))

/-- An operand image as a number, with the second slot of a pair behind the first (R364). -/
def slotVal (s : State) (c m : Nat) : Nat := memVal s.mem (slotKey c m 0) 8192 + memVal s.mem (slotKey c (m + 1) 0) 8192 * 2 ^ 65536

/-- Element k of row r of an operand image (R364, R365, R381). -/
def operand (f data side off r k : Nat) : Num :=
  match f with
  | 0 => decodeNum .bf16 (bits data (8 * (256 * r + 2 * k) + 15) (8 * (256 * r + 2 * k)))
  | 1 => decodeNum .e4m3 (bits data (8 * (256 * r + k) + 7) (8 * (256 * r + k)))
  | 2 => decodeNum .t8 (bits data (8 * (256 * r + k) + 7) (8 * (256 * r + k)))
  | 3 => ofInt (sextN 8 (bits data (8 * (256 * r + k) + 7) (8 * (256 * r + k))))
  | 4 => let b := 8 * (288 * r + 3 * (k / 4)) + 6 * (k % 4)
    decodeNum .t6 (bits data (b + 5) b)
  | f =>
    let sc := bits side (8 * ((off + 16 * r + k / 32) % 512) + 7) (8 * ((off + 16 * r + k / 32) % 512))
    let b := 8 * (256 * r + 16 * (k / 32)) + 4 * (k % 32)
    mulNum (scaleNum (f == 6) sc) (decodeNum .e2m1 (bits data (b + 3) b))

/-- Element (i, j) of an accumulator. -/
def accElem (v : BitVec 32768) (i j : Nat) : Nat := bits v.toNat (32 * (32 * i + j) + 31) (32 * (32 * i + j))

/-- Numbers of 32 bits packed, the first lowest. -/
def pack32 (l : List Nat) : Nat := l.foldr (fun x acc => x % 2 ^ 32 + 2 ^ 32 * acc) 0

/-- The accumulator after an MMA (R124 to R127, R379). -/
def mmaResult (fa fb offa offb K : Nat) (da sa db sb : Nat) (v : BitVec 32768) : BitVec 32768 :=
  let rowsOfOp (f d sc off : Nat) : List (List Num) := (upto 0 32).map (fun r => (upto 0 K).map (fun k => operand f d sc off r k))
  let as := rowsOfOp fa da sa offa
  let bs := rowsOfOp fb db sb offb
  BitVec.ofNat 32768 (pack32 ((as.zipIdx).flatMap (fun (x : List Num × Nat) => (bs.zipIdx).map (fun (y : List Num × Nat) =>
    mmaSum (fa == 0) ((x.1.zip y.1).map (fun p => mmaMul p.1 p.2) ++ [decodeNum .f32 (accElem v x.2 y.2)])))))

/-- The rows of an accumulator as Num values. -/
def accRow (v : BitVec 32768) (i : Nat) : List Nat := (upto 0 32).map (accElem v i)

/-- Nibbles packed two to a byte. -/
def nibbles : List Nat → List Byte
  | x :: y :: l => BitVec.ofNat 8 (x + 16 * y) :: nibbles l
  | [x] => [BitVec.ofNat 8 x]
  | [] => []

/-- A row of the store image and its scale (R384). -/
def storeImageRow (f : Nat) (rnd : Word) (row : List Nat) : List Byte × Nat :=
  let xs := row.map (decodeNum .f32)
  match f with
  | 7 => (row.flatMap (leBytes 4), 0)
  | 0 => (xs.flatMap (fun x => leBytes 2 (roundRnd .bf16 rnd x)), 0)
  | 1 => (xs.flatMap (fun x => leBytes 1 (roundRnd .e4m3 rnd x)), 0)
  | 2 => (xs.flatMap (fun x => leBytes 1 (roundRnd .t8 rnd x)), 0)
  | 3 => (xs.flatMap (fun x => leBytes 1 (toInt (rndMode rnd) (-128) 127 x % 256).toNat), 0)
  | 4 => (xs.flatMap (fun x => leBytes 1 (roundRnd .t6 rnd x)), 0)
  | f =>
    let e := encodeBlock (f == 6) (rndMode rnd) (rndSat rnd) xs
    (nibbles e.2, e.1)

/-- The rows and the scale bytes of the store image (R384). -/
def storeImage (f : Nat) (rnd : Word) (v : BitVec 32768) : List (List Byte) × List Byte :=
  let rs := (upto 0 32).map (fun i => storeImageRow f rnd (accRow v i))
  (rs.map Prod.fst, if isBlock f then rs.map (fun r => BitVec.ofNat 8 r.2) else [])

/-- A matrix command performed (R371). An MLDW or MSCL whose granule has passed to another DID since its check at issue reads it all the same. DESIGN CHOICE: log entry 93. -/
def matPerform (s : State) (c : Nat) (k : MatCmd) : State :=
  match k.op with
  | .mma a m n =>
    let t6 := k.fa = 4
    if slotPoisoned s c m || slotPoisoned s c n || (t6 && (slotPoisoned s c (m + 1) || slotPoisoned s c (n + 1))) || (coreOf s c).accPois.getLsbD a then
      setAcc (accFound s (accKey c a 0) k.did) c a (BitVec.ofNat 32768 (pack32 (List.replicate 1024 0x7FC00000))) true
    else
      setAcc s c a (mmaResult k.fa k.fb k.offa k.offb ((pairK k.fa k.fb).getD 0) (slotVal s c m) (memVal s.mem (sideKey c m 0) 512) (slotVal s c n) (memVal s.mem (sideKey c n 0) 512)
        ((coreOf s c).acc.getD a 0)) false
  | .mfill m src off len => flagSlot (unitsPut s k.did (units (slotKey c m off) (spadKey c src) len)) c m
  | .mfillV m j d =>
    let s := { s with mem := memPut s.mem (slotKey c m (1024 * j)) (leBytes 1024 d.toNat) }
    flagSlot (clearPoison s (slotKey c m (1024 * j)) 1024) c m
  | .mldw m w => flagSlot (unitsPut s k.did (units (slotKey c m 0) (wsKey c w) 8192)) c m
  | .msclSp m src => flagSlot (unitsPut s k.did (units (sideKey c m 0) (spadKey c src) 512)) c m
  | .mscl m w => flagSlot (unitsPut s k.did (units (sideKey c m 0) (wsKey c w) 512)) c m
  | .mstc a dst st =>
    let (rows, scs) := storeImage k.fc k.rnd ((coreOf s c).acc.getD a 0)
    let s := (rows.zipIdx).foldl (fun s x => { s with mem := memPut s.mem (spadKey c (dst + x.2 * st)) x.1 }) s
    { s with mem := memPut s.mem (spadKey c (dst + 32 * st)) scs }
  | .mstcV a r =>
    let (rows, scs) := storeImage k.fc k.rnd ((coreOf s c).acc.getD a 0)
    let img := leVal (rows.flatten ++ scs)
    let n := storeRegs k.fc
    let s := updStrand s k.key (fun t => { t with
      v := (upto 0 n).foldl (fun v q => v.setIfInBounds (r + q) (BitVec.ofNat 8192 (img / 2 ^ (8192 * q)))) t.v
      vpend := t.vpend.filter (fun x => !decide (r ≤ x ∧ x < r + n)) })
    match strandOf s k.key with
    | none => s
    | some t => (pieces (16 * n) (0x400 + 1024 * r) (leBytes (1024 * n) img)).foldl (fun s x => toArea s t x.1 x.2 t.tck) s
  | .mzero a => setAcc s c a 0 false
  | .zeroAcc a => zeroStore s c (16 + a)
  | .zeroSlot m => zeroStore s c m

/-- A command must wait: a weight-store source in a maintenance interval or behind a weight-store copy, a bank still to be handed over, the save area of a strand that
is unseated where it stalls in an interval, the zeroing of a slot behind the copies into it that have issued before (R228, R368, R376, R388, R421). -/
def matBlocked (s : State) (c : Nat) (k : MatCmd) : Bool :=
  match k.op with
  | .mldw _ _ => inInterval s.gtc || wsCopy s c k.did
  | .mscl _ _ => inInterval s.gtc || wsCopy s c k.did
  | .mfill _ src _ len => spadWaits s c src len k.did k.id
  | .msclSp _ src => spadWaits s c src 512 k.did k.id
  | .mstc _ dst st => spadWaits s c dst (32 * st + 32) k.did k.id
  | .mstcV _ _ => (strandOf s k.key).any (fun t => t.area.any (fun a => !areaReady s t.did a))
  | .zeroSlot m => (coreOf s c).copies.any (fun x => x.kind == .slot && bits (bxAddr x.box) 19 16 == m && decide (x.id < k.id))
  | _ => false

/-- A waiting strand goes on past its instruction: PC, YDL and readiness. -/
def wakeStrand (s : State) (key : Nat) : State :=
  updStrand s key (fun t => { t with pc := t.wnext, ydl := t.ydl - 1, wait := .none, pre := none })

/-- The command at the head of a core's order is performed, when it is one of the kind asked for (R371). -/
def matStep (s : State) (c : Nat) (mma : Bool) : State :=
  match (coreOf s c).matq with
  | [] => s
  | k :: rest =>
    if isMma k.op != mma || matBlocked s c k then s
    else
      let s := matPerform s c k
      let s := updCore s c (fun cs => { cs with matq := rest })
      if mma then wakeStrand (chargeEnergy s k.did 0) k.key else s

end Sys2Proof.Machine
end

