-- ==== Sys2Proof/Machine/Maltster.lean ====
section
/-! DEFINITION. Regions, task queues and launch records as the Maltsters run them: readiness, dispatch, placement, seating, and the
instructions LAUNCH and LAUNCHI. -/

namespace Sys2Proof.Machine

/-! ### Regions (R164 to R167) -/

/-- A root that inherits its DID is bound at its first launch (R164). -/
def bindRoot (s : State) (ri : RInfo) (d : Nat) : State :=
  if (boundDid s ri).isSome then s else { s with bound := kset s.bound ri.rootPa d }

/-- A region the Maltsters know of from now on; its die is that of the home of its launch word (R170). DEDUCED: log entry 81. -/
def knowRegion (s : State) (d : Nat) (va : Word) (ri : RInfo) : State :=
  if (regionRec s ri.pa).isSome then s
  else match devCheck s d (va + 0x80) .read with
    | .error e => devFailed s d e
    | .ok pa =>
      let r : Region := { addr := va, pa := ri.pa, pub := 0, ndone := 0, did := d, die := bits (sliceOf pa) 9 8, ready := none, rot := s.nextId, boost := 0, cur := none,
                          pubs := [], tDep := 0, tDone := 0, recTurn := false, failed := false, depsOk := false, budget := ri.budget }
      { s with regions := s.regions ++ [r], nextId := s.nextId + 1 }

/-- A template is valid apart from its region (R168). -/
def pktValid (p : Packet) : Bool :=
  let f := p.getD 2 0
  let c := p.getD 3 0
  let y := p.getD 5 0
  decide (1 ≤ bits f 15 0 ∧ bits f 15 0 ≤ 31) && decide (64 ≤ y ∧ y ≤ 8192) && y % 64 == 0
    && decide (bits c 3 0 ≤ 7 ∧ bits c 7 4 ≤ 7 ∧ bits c 11 8 ≤ 7) && bits c 15 12 == 0 && decide (bits c 18 16 ≤ 5)
    && bits c 31 20 == 0 && bits c 47 41 == 0 && bits c 63 57 == 0 && p.getD 7 0 % 8 == 0 && p.getD 4 0 % 64 == 0

/-- The eight doublewords of a packet. -/
def pktOf (v : Nat) : Packet := (upto 0 8).map (fun i => bits v (64 * i + 63) (64 * i))

/-- A region whose RCB the Maltster could not read fails with the cause of that fault (R167). DESIGN CHOICE: log entry 100. -/
def regionLost (s : State) (r : Region) (e : Cause × Word) : State :=
  failStatus (devFailed s r.did e) r.did r.addr r.pa (causeCode e.1) 0

/-- A region fails with a cause (R167), under the DID that it is bound to (R164). -/
def regionFail (s : State) (r : Region) (ri : RInfo) (c : Cause) : State :=
  failStatus s ((boundDid s ri).getD r.did) r.addr r.pa (causeCode c) ri.prio

/-- Work of a malformed region fails with ILLEGAL (R164, R165, R176): its launch records, the queue entry that it would take next, and tasks with gangs still to
send; then the region itself. -/
def malformedFail (s : State) (r : Region) (ri : RInfo) (d : Nat) : State :=
  let recs := s.records.filter (fun q => (q.did == d || q.did == r.did) && q.pkt.getD 4 0 == r.addr.toNat && q.task == 0)
  let open' := s.tasks.filter (fun t => t.did == d && t.region == r.addr && !t.allSent && t.fail.isNone)
  let s := recs.foldl (fun s q => cwWrite s q.did (q.pkt.getD 7 0) (completionWord 0 (some (causeCode .illegal))) q.tl) s
  let s := { s with records := s.records.filter (fun q => !(recs.any (fun x => x.id == q.id))) }
  let s := if r.cur.isNone && decide (r.ndone < r.pub) then entryFail s r ri d (causeCode .illegal) r.ndone else s
  let s := open'.foldl (fun s t => settleTask (updTask s t.id (fun t => { t with fail := some (causeCode .illegal) })) t.id) s
  regionFail s r ri .illegal

/-- Strands of a region held aside return to their run queues once its budget is not exhausted (R172). DEDUCED: log entry 46. -/
def bringBack (s : State) (d : Nat) (va : Word) : State :=
  (s.others.filter (fun t => t.aside.isSome && t.wait != .gsync && homeDid t == d && t.region == va)).foldl (fun s t =>
    queueSaved { s with others := mapIf (fun x => x.key == t.key) (fun x => { x with aside := none }) s.others } (t.aside.getD t.core) t.key) s

/-- The Maltster's view of a region brought up to date (R166, R167, R171); where an RCB of its chain cannot be read, which the spec does not speak of, the region fails
with the cause of the fault. DEDUCED: log entry 47. DESIGN CHOICE: log entry 100. -/
def refreshRegion (s : State) (pa : Nat) : State :=
  match regionRec s pa with
  | none => s
  | some r =>
    if r.failed then s
    else match regionInfo s r.did r.addr with
      | .error e => regionLost s r e
      | .ok ri =>
        if ri.malformed then malformedFail s r ri ((boundDid s ri).getD r.did)
        else
          markRegion (if exhaustedInfo s r.did ri then s else bringBack s r.did r.addr) r ri

/-- The dependences of a region read (R166): the fence words with their times, or the cause that fails the region. Of the faults of a read the rule names that of
a word that does not translate only: every other fails the region with XLATE too. DESIGN CHOICE: log entry 94. -/
def readDeps (s : State) (r : Region) (rcb : List Nat) : Nat → Nat → Except (State × Cause) (State × Bool × Nat)
  | 0, _ => .ok (s, true, 0)
  | n + 1, k =>
    let a := rcb.getD (8 + 2 * k) 0
    if a % 8 != 0 then .error (s, .misalign)
    else match devRead s r.did (w64 a) 8 0 with
      | .error e => .error (devFailed s r.did e, .xlate)
      | .ok (s, v, t) => match readDeps s r rcb n (k + 1) with
        | .error e => .error e
        | .ok (s, ok, t') => .ok (s, ok && decide (rcb.getD (9 + 2 * k) 0 ≤ v), max t t')

/-- REGION_DEPENDENCE_REREAD: the fence words of a region that is not malformed (R164) are read again (R166). -/
def rereadDeps (s : State) (pa : Nat) : State :=
  match regionRec s pa with
  | none => s
  | some r =>
    if r.failed then s
    else match regionInfo s r.did r.addr with
      | .error e => regionLost s r e
      | .ok ri =>
        if ri.malformed then refreshRegion s pa
        else match readDeps s r ri.rcb (bits (ri.rcb.getD 1 0) 34 32) 0 with
        | .error (s, c) => regionFail s r ri c
        | .ok (s, ok, t) => refreshRegion (updRegion s pa (fun r => { r with depsOk := ok, tDep := max r.tDep t })) pa

/-- A launch word of `l` has been read at time `t`: what it publishes, and when (R165, R169). -/
def publish (r : Region) (l t : Nat) : Region :=
  { r with
    pub := l
    pubs := if r.pub < l then r.pubs ++ [(l, t)] else r.pubs.map (fun p => (min p.1 l, p.2)) }

/-- The launch word of a region read under the DID that it is, or is now, bound to (R164, R165), and its BUDGET with it (R172). -/
def readLaunch (s : State) (d : Nat) (va : Word) (ri : RInfo) : State :=
  match devRead s d (va + 0x80) 24 0 with
  | .error e => devFailed s d e
  | .ok (s1, v, t) =>
    let l := bits v 63 0
    let dn := bits v 127 64
    if l ≤ dn && (regionRec s ri.pa).isNone then s
    else
      let s := knowRegion (bindRoot s1 ri d) d va ri
      let revived := bits v 191 128 == 0
      let s := updRegion s ri.pa (fun r => { publish r l t with
        failed := if revived then false else r.failed
        ndone := if r.cur.isSome then r.ndone else dn
        budget := ri.budget })
      match regionRec s ri.pa with
      | none => s
      | some r =>
        if !r.failed && !ri.malformed && decide (2 ^ bits (ri.rcb.getD 6 0) 4 0 < l - dn) && decide (dn < l) then regionFail s r ri .bounds
        else rereadDeps s ri.pa

/-- LAUNCH_WORD_WATCH: the Maltster reads a region's launch word (R164, R165): a host launch binds the root to the partition whose memory range holds the RCB. A
region whose RCB it cannot read is none, nor is one that the DID it is bound to has elsewhere. DEDUCED: log entry 45. DESIGN CHOICE: log entry 100. -/
def watchLaunch (s : State) (d : Nat) (va : Word) : State :=
  if va.toNat % 64 ≠ 0 then s
  else match regionInfo s d va with
  | .error e => devFailed s d e
  | .ok ri =>
    let owner := match rangeOf s ri.pa with
      | some o => if o < 21 then o else d
      | none => d
    let b := (boundDid s ri).getD owner
    if b = d then readLaunch s d va ri
    else match regionInfo s b va with
      | .error e => devFailed s b e
      | .ok rb => if rb.pa = ri.pa then readLaunch s b va rb else s

/-- PRIORITY_AGING: a region ready without a dispatch rises one level for each full 2^20 cycles, up to 7, and joins the rotation of its level (R171). -/
def ageRegion (s : State) (pa : Nat) : State :=
  match regionRec s pa with
  | none => s
  | some r => match r.ready with
    | none => s
    | some g =>
      let prio := match regionInfo s r.did r.addr with
        | .ok ri => ri.prio
        | .error _ => 7
      let boost := min ((s.gtc - g) / 2 ^ 20) (7 - prio)
      if boost ≤ r.boost then s
      else refreshRegion { updRegion s pa (fun r => { r with boost := boost, rot := s.nextId }) with nextId := s.nextId + 1 } pa

/-! ### Launch records (R173 to R175) -/

/-- Records of a DID's share in the store of a die (R173). -/
def shareUsed (s : State) (die dom : Nat) : Nat := (s.records.filter (fun r => r.die == die && r.dom == dom)).length

/-- A launch record appended (R173): one without gangs completes at once. DEDUCED: log entry 44. -/
def appendRecord (s : State) (r : Record) : State :=
  if r.count = some 0 then cwWrite s r.did (r.pkt.getD 7 0) (completionWord 0 none) r.tl
  else
    let s := { s with records := s.records ++ [r] }
    match regionInfo s r.did (w64 (r.pkt.getD 4 0)) with
    | .error e => devFailed s r.did e
    | .ok ri => rereadDeps (knowRegion s r.did (w64 (r.pkt.getD 4 0)) ri) ri.pa

/-- The die on which the strand in turn sits (R173, R395). -/
def strandDie (s : State) : Nat :=
  match s.me.seat with
  | .bank ch _ => ch / 128
  | _ => s.me.core / 1024

/-- LAUNCH once its template has been read (R173): `s0` is the state at issue, which a status other than 0 leaves as it is but for s[a]. An RCB in a device window traps
as R93 and R420 give, and one that a maintenance interval holds back waits (R262). A REGION that is not aligned makes the template invalid before any RCB is read.
DEDUCED: log entry 44. DEDUCED: log entry 75. DESIGN CHOICE: log entry 100. -/
def launchTail (s0 s : State) (a n : Nat) (pkt : Packet) (ind park : Bool) : Res :=
  let d := s.me.did
  let no (st : Word) : Res := .done (setSreg s0 a st)
  if !bit (pkt.getD 0 0) 0 && pkt.getD 4 0 % 64 == 0 && !regionReadable s d (w64 (pkt.getD 4 0)) then .wait .retry else
  let region := if pkt.getD 4 0 % 64 != 0 then none else some (regionInfo s d (w64 (pkt.getD 4 0)))
  let lost : Option (Cause × Word) := match region with
    | some (.error e) => some e
    | _ => none
  match firstTrap [chk (bit (pkt.getD 0 0) 0) .misalign (w64 (pkt.getD 0 0)), lost], region with
  | some (c, v), _ => .trap c v
  | none, some (.ok ri) =>
      let bd := boundDid s ri
      if d != 0 && bd.any (· != d) then .trap .domain (descriptor (bd.getD 0x1F) 0x1FFF 0 0x0B)
      else if ri.malformed || !pktValid pkt || (!ind && decide (2 ^ 32 ≤ n)) || (ind && n % 8 != 0) then no 3
      else if exhaustedInfo s d ri || (domOf s d).pstate == 2 then no 2
      else if !acked s .sys then .wait .retry
      else
        let s := raiseClock s s.me.h
        let r : Record := { id := s.nextId, die := strandDie s, did := bd.getD d, dom := d, pkt, n, indirect := ind, tl := s.me.tck,
                            count := if ind then none else some n, gidx := 0, task := 0 }
        if shareUsed s r.die d < (domOf s d).pls then
          .done (setSreg (appendRecord { bindRoot s ri d with nextId := s.nextId + 1 } r) a 0)
        else if !park then no 1
        else .hold (updMe { bindRoot s ri d with nextId := s.nextId + 1, parked := kset s.parked s.me.key r } (fun t => { t with wait := .launch, wnext := s.nextPc, wreg := a }))
  | none, _ => no 3

/-- LAUNCH and LAUNCHI (R173, R193). DEDUCED: log entry 40. DEDUCED: log entry 75. -/
def launchOp (g : Guard) (a b c : SReg) (ind park : Bool) : State → Host.Outcome State Fault Refusal :=
  issue { msgIssue g [b.val, c.val] [a.val] .run [.core] with handler := !park } (fun s =>
    let t := sreg s b.val
    let n := (sreg s c.val).toNat
    if onBank s && (isLocalSpad t || (remoteOf t).isSome) then .back
    else if stalls s t then .wait .retry
    else match mboxTrap s t 64 .read with
      | some (e, v) => .trap e v
      | none => match placeOf s t 64 .read false with
        | .ok (.spad o) =>
          let k := spadKey s.me.core o
          if spadBusy s s.me.core o 64 s.me.did then .wait .retry
          else if poisonedAt s k 64 then .trap .poison t
          else launchTail s s a.val n (pktOf (memVal s.mem k 64)) ind (park && s.me.seat != .handler)
        | .ok (.mem pa) =>
          if !coreReady s pa then .wait .retry
          else if corePoisoned s pa 64 then .trap .poison t
          else
            let s1 := tlbKeep s (holderOf s.me) s.me.did t.toNat
            let (u, v) := coreRead s1 pa 64
            launchTail s1 u a.val n (pktOf v) ind (park && s.me.seat != .handler)
        | .ok (.remote _ _) => .trap .xlate t
        | .ok .dev => .trap .xlate t
        | .error (e, v) => .trap e v)

/-- LAUNCH (R173). -/
def execLaunch (g : Guard) (a : SReg) (b : SReg) (c : SReg) : State → Host.Outcome State Fault Refusal := launchOp g a b c false false

/-- LAUNCH.W (R173). -/
def execLaunchW (g : Guard) (a : SReg) (b : SReg) (c : SReg) : State → Host.Outcome State Fault Refusal := launchOp g a b c false true

/-- LAUNCHI (R173, R175). -/
def execLaunchi (g : Guard) (a : SReg) (b : SReg) (c : SReg) : State → Host.Outcome State Fault Refusal := launchOp g a b c true false

/-- LAUNCHI.W (R173, R175). -/
def execLaunchiW (g : Guard) (a : SReg) (b : SReg) (c : SReg) : State → Host.Outcome State Fault Refusal := launchOp g a b c true true

/-- LAUNCH_PARK_RELEASE: a parked LAUNCH.W of a seated strand appends its record once its share has room (R173). -/
def parkRelease (s : State) (key : Nat) : State :=
  match kget? s.parked key, strandOf s key with
  | some r, some t =>
    if t.wait != .launch || !seated t || decide ((domOf s r.dom).pls ≤ shareUsed s r.die r.dom) then s
    else
      let s := appendRecord { s with parked := kdel s.parked key } r
      updStrand s key (fun t => { t with s := t.s.setIfInBounds t.wreg 0, tc := kdel t.tc t.wreg, pc := t.wnext, ydl := t.ydl - 1, wait := .none, pre := none })
  | _, _ => s

/-- The head of a region's launch records. -/
def headRecord (s : State) (r : Region) : Option Record := (recordsOf s r.did r.addr).head?

/-- A task begun for a launch record. -/
def recordTask (r : Record) (id total ts : Nat) : Task :=
  { id, did := r.did, die := r.die, dom := r.dom, tl := r.tl, region := w64 (r.pkt.getD 4 0), cword := r.pkt.getD 7 0, entry := none, pkt := r.pkt, total, addr := none, ts, gangs := [],
    retired := 0, placed := 0, badGangs := [], fail := none, clk := ts, allSent := false }

/-- LAUNCHI_COUNT_READ: the count of the record at the head of a ready region is read (R175). -/
def countRead (s : State) (pa : Nat) : State :=
  match regionRec s pa with
  | none => s
  | some r => match headRecord s r with
    | none => s
    | some q =>
      if q.count.isSome || r.ready.isNone then s
      else
        let fail (s : State) (c : Cause) : State :=
          let t := { recordTask q s.nextId 0 q.tl with
            fail := some (causeCode c)
            addr := some q.n }
          let s := { s with nextId := s.nextId + 1, records := s.records.filter (fun x => x.id != q.id), tasks := s.tasks ++ [t] }
          refreshRegion (settleTask s t.id) pa
        match devRead s q.dom (w64 q.n) 8 0 with
        | .error e => fail (devFailed s q.dom e) e.1
        | .ok (s, n, t) =>
          if 2 ^ 32 ≤ n then fail s .bounds
          else if n = 0 then
            refreshRegion (cwWrite { s with records := s.records.filter (fun x => x.id != q.id) } q.did (q.pkt.getD 7 0) (completionWord 0 none) (max q.tl t)) pa
          else { s with records := mapIf (fun x => x.id == q.id) (fun x => { x with count := some n, tl := max x.tl t }) s.records }

end Sys2Proof.Machine
end

