-- ==== Sys2Proof/Machine/Seating.lean ====
section
/-! DEFINITION. Work on its way to a slot: dispatch and placement of packets, run-queue grants, migration packets, seating, handlers and
gang barriers. -/

namespace Sys2Proof.Machine

/-! ### Dispatch (R170, R171, R174, R176, R177) -/

/-- The DID of a run-queue entry. -/
def entryDid (s : State) : RunEntry → Nat
  | .gang d _ _ _ _ => d
  | .saved k => ((strandOf s k).map (fun t => homeDid t)).getD 0x1F
  | .migrated k => ((strandOf s k).map (fun t => t.did)).getD 0x1F

/-- The DID under which the strands of an entry run once they are seated: one saved inside a gate runs under the gate's (R432). -/
def entryRuns (s : State) : RunEntry → Nat
  | .saved k => ((strandOf s k).map (fun t => t.did)).getD 0x1F
  | e => entryDid s e

/-- Entries of a DID in the run queue of a core. -/
def entriesOf (s : State) (c d : Nat) : Nat := ((coreOf s c).runq.filter (fun e => entryDid s e == d)).length

/-- Slots of a core that are now a DID's and empty (R154, R178): an empty slot in rotation is its new owner's (R180). -/
def freeSlots (s : State) (c d : Nat) : List Nat :=
  let cs := coreOf s c
  (List.range (modeSlots cs.mode - 1)).filter (fun i => cs.slotown.getD i 0x1F == d && slotEmpty s c i)

/-- The slots that entries take are their owner's (R430). -/
def takeSlots (s : State) (c d : Nat) (l : List Nat) : State :=
  updCore s c (fun cs => { cs with curown := l.foldl (fun o i => o.set i d) cs.curown })

/-- Slots of a core that the monitor assigns to a DID (R176). -/
def ownedSlots (s : State) (c d : Nat) : Nat :=
  let cs := coreOf s c
  ((List.range (modeSlots cs.mode - 1)).filter (fun i => cs.slotown.getD i 0x1F == d)).length

/-- Where a gang's packet goes (R176, R177): no core of the die can ever hold it, no run queue has room, or a core. -/
inductive Placement where
  | never
  | full
  | core (c : Nat)
  deriving DecidableEq, Repr

/-- Placement of a packet on a die (R177). A hint whose line is at home on another die places as no hint does, and so does one in whose quad no core
has slots enough for the gang. Without a hint the fewest entries are sought among the cores whose slots hold the gang and whose run queue has room. DEDUCED: log entry 80.
DEDUCED: log entry 114. DESIGN CHOICE: log entry 94. DESIGN CHOICE: log entry 100. -/
def placement (s : State) (die d : Nat) (p : Packet) : Placement :=
  let fit := (upto (die * 1024) 1024).filter (fun c => exposed s c && decide (bits (p.getD 2 0) 15 0 ≤ ownedSlots s c d))
  let room := fit.filter (fun c => decide ((coreOf s c).runq.length + (coreOf s c).granted.length < 64))
  let hint := p.getD 6 0
  let quad := if hint = 0 || !isTranslated (w64 hint) then [] else match translate s walker d hint with
    | .error _ => []
    | .ok (pa, _) => if namesDram pa then room.filter (fun c => c / 1024 == bits (sliceOf pa) 9 8 && c % 256 == sliceOf pa % 256) else []
  if fit.isEmpty then .never
  else match minBy (fun c => 32 - (freeSlots s c d).length) quad with
    | some c => .core c
    | none => match minBy (fun c => entriesOf s c d) room with
      | some c => .core c
      | none => .full

/-- The next identifier of 32 bits from `x` up that is neither 0 nor in use (R16). -/
def nextFree (used : List Nat) : Nat → Nat → Nat
  | 0, x => x
  | f + 1, x => if x % 2 ^ 32 = 0 || used.contains (x % 2 ^ 32) then nextFree used f (x + 1) else x % 2 ^ 32

/-- `n` identifiers from `x` up that are free (R16). -/
def freeIds (used : List Nat) : Nat → Nat → List Nat
  | 0, _ => []
  | n + 1, x =>
    let i := nextFree used (used.length + 2) x
    i :: freeIds used n (i + 1)

/-- Identifiers of strands in use (R16). -/
def sidsUsed (s : State) : List Nat := (strands s ++ travellers s).map (fun t => t.sid)

/-- Identifiers of gangs in use (R16, R160): of strands and of gangs placed and not yet ended. -/
def gidsUsed (s : State) : List Nat := (strands s ++ travellers s).map (fun t => t.gid) ++ s.tasks.flatMap (fun t => t.gangs.map Prod.fst)

/-- A partition reset of the DID is under way: the Maltsters dispatch nothing of it, and nothing of it is seated (R436). -/
def resetting (s : State) (d : Nat) : Bool := (domOf s d).pstate == 2

/-- One gang of a task goes out to a run queue of the die, after which the region's other kind of work has its turn (R170, R174, R176). DEDUCED: log entry 80. -/
def sendGang (s : State) (die pa : Nat) (id : Nat) : State :=
  match s.tasks.find? (fun t => t.id == id) with
  | none => s
  | some t =>
    if resetting s t.did then s
    else match placement s die t.did t.pkt with
    | .never => settleTask (updTask s id (fun t => { t with fail := some (causeCode .domain) })) id
    | .full => s
    | .core c =>
      let n := bits (t.pkt.getD 2 0) 15 0
      let pkt := t.pkt.set 2 (bits (t.pkt.getD 2 0) 31 0 + t.placed * 2 ^ 32)
      let gid := (freeIds (gidsUsed s) 1 s.nextGid).headD 0
      let s := updCore s c (fun cs => { cs with runq := cs.runq ++ [.gang t.did pkt t.ts gid id] })
      let last := decide (t.total ≤ t.placed + 1)
      let s := updTask { s with nextGid := gid + 1 } id (fun t => { t with gangs := kset t.gangs gid n, placed := t.placed + 1, allSent := last })
      let s := if last then { s with records := s.records.filter (fun r => r.task != id) } else s
      let s := { updRegion s pa (fun r => { r with ready := r.ready.map (fun _ => s.gtc), boost := 0, rot := s.nextId, recTurn := t.entry.isSome }) with nextId := s.nextId + 1 }
      refreshRegion s pa

/-- A queue entry is taken (R165): its task, or its failure; a valid entry without gangs completes at once. An entry that the Maltster cannot read fails the region with
the cause of the fault. A template whose REGION names another region is a task of the queue's region, and charges the region that it names. DESIGN CHOICE: log entry 100. -/
def takeEntry (s : State) (r : Region) (ri : RInfo) : State :=
  let i := r.ndone
  let va := entryVa ri i
  match devRead s r.did va 64 0 with
  | .error e => regionFail (devFailed s r.did e) r ri e.1
  | .ok (s, v, _) =>
    let p := pktOf v
    let total := bits (p.getD 2 0) 63 32
    let ts := max (max (pubTime r i) r.tDep) r.tDone
    let named := regionInfo s r.did (w64 (p.getD 4 0))
    let s := match named with
      | .ok _ => s
      | .error e => devFailed s r.did e
    let ok := pktValid p && (match named with
      | .ok x => !x.malformed
      | .error _ => false)
    let fail := if bit (p.getD 0 0) 0 then some (causeCode .misalign) else if ok then none else some (causeCode .illegal)
    let t : Task := { id := s.nextId, did := (boundDid s ri).getD r.did, die := r.die, dom := r.did, tl := ts, region := r.addr,
                      cword := if p.getD 7 0 % 8 = 0 then p.getD 7 0 else 0, entry := some i, pkt := p, total, addr := none, ts, gangs := [], retired := 0, placed := 0,
                      badGangs := [], fail, clk := ts, allSent := total == 0 }
    let s := updRegion { s with nextId := s.nextId + 1, tasks := s.tasks ++ [t] } r.pa (fun r => { r with cur := some t.id, pubs := r.pubs.filter (fun p => decide (i < p.1)) })
    refreshRegion (settleTask s t.id) r.pa

/-- The head record of a region begins, or goes on with, its task: one gang goes out (R174). -/
def takeRecord (s : State) (die : Nat) (r : Region) (q : Record) : State :=
  let ts := max q.tl r.tDep
  let s := if q.task = 0 then
      { s with
        nextId := s.nextId + 1
        tasks := s.tasks ++ [recordTask q s.nextId (q.count.getD 0) ts]
        records := mapIf (fun x => x.id == q.id) (fun x => { x with task := s.nextId }) s.records }
    else s
  match s.records.find? (fun x => x.id == q.id) with
  | none => s
  | some q => sendGang s die r.pa q.task

/-- MALTSTER_DISPATCH: one packet of the ready region of the greatest effective priority, the longest in its rotation, none of an exhausted one (R170 to R172)
and none of a partition in reset (R436). DEDUCED: log entry 81. -/
def dispatch (s : State) (die : Nat) : State :=
  let s := s.regions.foldl (fun s r => ageRegion s r.pa) s
  let qok (r : Region) : Bool := r.die == die && (curOpen s r || (r.cur.isNone && decide (r.ndone < r.pub)))
  let rok (r : Region) : Bool := (headRecord s r).any (fun q => q.die == die && q.count.isSome)
  let prio (r : Region) : Nat := match regionInfo s r.did r.addr with
    | .ok ri => min 7 (ri.prio + r.boost)
    | .error _ => 0
  let stops (r : Region) : Bool := resetting s r.did || (match regionInfo s r.did r.addr with
    | .ok ri => resetting s ((boundDid s ri).getD r.did)
    | .error _ => false)
  let cands := s.regions.filter (fun r => r.ready.isSome && !r.failed && !stops r && (qok r || rok r) && !regionExhausted s r.did r.addr)
  match minBy (fun r => (7 - prio r) * 2 ^ 64 + r.rot) cands with
  | none => s
  | some r =>
    match regionInfo s r.did r.addr with
    | .error e => regionLost s r e
    | .ok ri =>
      if qok r && (!rok r || !r.recTurn) then
        if r.cur.isNone then takeEntry s r ri
        else match r.cur.bind (fun i => s.tasks.find? (fun t => t.id == i)) with
          | some t => sendGang s die r.pa t.id
          | none => s
      else match headRecord s r with
        | some q => takeRecord s die r q
        | none => s

/-! ### Migration packets (R187 to R189, R399) -/

/-- A core, or the bank core of channel `c` - 4096, takes entries: it is in the exposed set (R447), or in service (R446). -/
def takesWork (s : State) (c : Nat) : Bool := if 4096 ≤ c then !s.health.deadBk.contains (c - 4096) else exposed s c

/-- MIGRATION_RUNQ_GRANT: the oldest request at a destination is granted when its run queue has room (R189): a core, or 4096 + channel. -/
def grantEntry (s : State) (dest : Nat) : State :=
  let give (s : State) (k : Nat) : State := updStrand s k (fun t => { t with dest := some (dest, true), wait := if t.wait == .grant then .retry else t.wait })
  if !takesWork s dest then s
  else if 4096 ≤ dest then
    let b := bankOf s (dest - 4096)
    match b.asking with
    | [] => s
    | k :: rest =>
      if b.runq.length + b.granted.length < 16 then
        give (updBank s (dest - 4096) (fun b => { b with asking := rest, granted := b.granted ++ [k] })) k
      else s
  else
    let c := coreOf s dest
    match c.asking with
    | [] => s
    | k :: rest =>
      if c.runq.length + c.granted.length < 64 then
        give (updCore s dest (fun c => { c with asking := rest, granted := c.granted ++ [k] })) k
      else s

/-- MIGRATION_PACKET_ARRIVAL: a packet in flight becomes a run-queue entry of its DID (R189), at a core that takes entries (R447). A strand returned
from a bank core has reserved no entry, and joins a queue of 64 all the same (R397). DESIGN CHOICE: log entry 104. -/
def packetArrive (s : State) (key : Nat) : State :=
  match s.packets.find? (fun x => x.1.key == key) with
  | none => s
  | some (t, dest) =>
    if !takesWork s dest then s else
    let s := { s with packets := s.packets.filter (fun x => x.1.key != key), others := s.others ++ [t] }
    if 4096 ≤ dest then
      updBank s (dest - 4096) (fun b => { b with granted := b.granted.filter (· != key), runq := b.runq ++ [.migrated key] })
    else
      updCore (updStrand s key (fun t => { t with core := dest })) dest
        (fun c => { c with granted := c.granted.filter (· != key), runq := c.runq ++ [.migrated key] })

/-! ### Seating (R178, R189, R227, R399, R429) -/

/-- The strands of a gang as they start (R37, R160, R169): `x` names the slot, the strand's number j and its SID. -/
def gangStrand (s : State) (c d : Nat) (p : Packet) (ts gid task : Nat) (x : (Nat × Nat) × Nat) : Strand :=
  let f := p.getD 2 0
  let k := p.getD 3 0
  let rank := (bits f 31 16 + bits f 63 32 * bits f 15 0 + x.1.2) % 2 ^ 16
  let sid := x.2
  { Strand.reset with
    key := sid, sid, gid, rank, did := d, core := c, pc := w64 (p.getD 0 0),
    s := ((Vector.replicate 64 0).set 0 (w64 (p.getD 1 0))).set 1 (w64 rank)
    fmta := w64 (bits k 3 0), fmtb := w64 (bits k 7 4), fmtc := w64 (bits k 11 8), rnd := w64 (bits k 19 16), scla := w64 (bits k 40 32), sclb := w64 (bits k 56 48),
    tck := ts, h := ts, sf := ts, ydl := p.getD 5 0, seat := .slot x.1.1, region := w64 (p.getD 4 0), task, gcore := c, chargedAt := s.gtc }

/-- A saved strand takes a seat again (R178, R429): restored from its area, which is then free; a restore that faults ends it. -/
def reseat (s : State) (key : Nat) (seat : Seat) : State :=
  match strandOf s key with
  | none => s
  | some t =>
    let a := t.area.getD 0
    match restoreFrom s t t.did a with
    | .error e => taskLeave (removeStrand (devFailed s t.did e) key) t (some (causeCode e.1))
    | .ok (s, u) =>
      let s := freeArea s (homeDid t) t.region a
      updStrand s key (fun x => { u with seat := seat, area := none, posted := x.posted, chargedAt := s.gtc })

/-- A migrated strand takes its seat (R189): H and SF at its clock; with TH its trap registers come back from the area it travelled with (R399). -/
def reseatMigrated (s : State) (key : Nat) (seat : Seat) : State :=
  match strandOf s key with
  | none => s
  | some t =>
    match t.area with
    | none => updStrand s key (fun t => { t with seat := seat, chargedAt := s.gtc, h := t.tck, sf := t.tck })
    | some a => match areaGet s t.did t.tck [a + 0x070, a + 0x078, a + 0x080] with
      | .error e => taskLeave (removeStrand (devFailed s t.did e) key) t (some (causeCode e.1))
      | .ok (s, v) =>
        updStrand (freeArea s t.did t.region a) key (fun t => maskCrs { t with
          seat := seat
          area := none
          chargedAt := s.gtc
          h := t.tck
          sf := t.tck
          tcause := w64 (v.getD 0 0)
          tval := w64 (v.getD 1 0)
          tpc := w64 (v.getD 2 0) })

/-- The mode in which a strand was saved, as its area holds it (R428). -/
def savedMode (s : State) (t : Strand) : Mode :=
  match t.area with
  | none => .m16
  | some a => match devCheck s t.did (w64 (a + 8)) .read with
    | .ok pa => modeOf (bits (homeVal s pa 8) 33 32)
    | .error _ => .m16

/-- The area that holds a strand, if one does, can be read and given back now (R262). -/
def reseatReady (s : State) (key : Nat) : Bool :=
  !inInterval s.gtc || (strandOf s key).all (fun t => t.area.all (fun a => giveReady s (homeDid t) t.did t.region a))

/-- An entry can be seated now: the area that it comes from can be read (R262). -/
def entryReady (s : State) : RunEntry → Bool
  | .gang _ _ _ _ _ => true
  | .saved k => reseatReady s k
  | .migrated k => reseatReady s k

/-- Run-queue entries of a DID that one core holds. -/
def oldestOf (s : State) (q : List RunEntry) (d : Nat) : Option RunEntry := q.find? (fun e => entryDid s e == d)

/-- The first run-queue entry equal to `e` removed. -/
def dropEntry (q : List RunEntry) (e : RunEntry) : List RunEntry :=
  match takeFirst (· == e) q with
  | some (_, r) => r
  | none => q

/-- Slots an entry needs. -/
def entryNeeds : RunEntry → Nat
  | .gang _ p _ _ _ => bits (p.getD 2 0) 15 0
  | .saved _ => 1
  | .migrated _ => 1

/-- A waiter in GSYNC of the DID, on a core or at 4096 + channel on a bank core, whose region has a free save area (R162). DEDUCED: log entry 54. -/
def gsyncWaiter (s : State) (c d : Nat) : Option Nat :=
  ((strands s).find? (fun t => seated t && t.seat != .handler && holderOf t == c && homeDid t == d && t.wait == .gsync
    && areaFree s (homeDid t) t.region && takeReady s (homeDid t) t.did t.region)).map (fun t => t.key)

/-- The slot of a GSYNC waiter given up for want of a slot for another entry of its DID (R162). -/
def unseatWaiter (s : State) (c d : Nat) : State :=
  match gsyncWaiter s c d with
  | some k => asStrand s k (fun s => unseatMe s false)
  | none => s

/-- SEAT_ENTRY: the oldest entry of a DID on a core, or at 4096 + channel on a bank core, is seated if it fits (R178); for want of a slot a GSYNC waiter may give its up (R162).
Entries take the lowest-numbered free slots. DEDUCED: log entry 54. DESIGN CHOICE: log entry 94. -/
def seatEntry (s : State) (c d : Nat) : State :=
  if resetting s d || !takesWork s c then s
  else if 4096 ≤ c then
    let ch := c - 4096
    let b := bankOf s ch
    let free := (List.range 8).filter (fun i => bit (domBank s ch d).bslots i && !((strands s).any (fun t => t.seat == .bank ch i && !t.dead)))
    match oldestOf s b.runq d, free with
    | some e, i :: _ =>
      if !entryReady s e then s else
      let s := updBank s ch (fun b => { b with runq := dropEntry b.runq e })
      match e with
      | .saved k => reseat s k (.bank ch i)
      | .migrated k => reseatMigrated s k (.bank ch i)
      | .gang _ _ _ _ _ => s
    | some e, [] => if entryReady s e then unseatWaiter s c d else s
    | none, _ => s
  else
    let cs := coreOf s c
    let free := freeSlots s c d
    match oldestOf s cs.runq d with
    | none => s
    | some e =>
      if wsCopy s c (entryRuns s e) || !entryReady s e then s
      else if free.length < entryNeeds e then unseatWaiter s c d
      else
        let drop (s : State) : State := updCore s c (fun cs => { cs with runq := dropEntry cs.runq e })
        let slot := free.headD 0
        match e with
        | .gang _ p ts gid task =>
          let n := entryNeeds e
          let sids := freeIds (sidsUsed s) n s.nextSid
          let ts' := (((free.take n).zipIdx).zip sids).map (gangStrand s c d p ts gid task)
          { takeSlots (drop s) c d (free.take n) with others := s.others ++ ts', nextSid := sids.getLastD 0 + 1 }
        | .saved k =>
          if (strandOf s k).any (fun t => decide (modeCode cs.mode < modeCode (savedMode s t))) then s
          else reseat (takeSlots (drop s) c d [slot]) k (.slot slot)
        | .migrated k => reseatMigrated (takeSlots (drop s) c d [slot]) k (.slot slot)

/-! ### Handlers (R191, R192) -/

/-- Key of a handler, by a number of its own. -/
def handlerKey (n : Nat) : Nat := 2 ^ 32 + n

/-- HANDLER_START: the message at the head of the handler queue of a core in the exposed set starts (R191, R192, R447). -/
def handlerStart (s : State) (c : Nat) : State :=
  let cs := coreOf s c
  match cs.hq with
  | [] => s
  | m :: rest =>
    if !handlerIdle s c || !exposed s c then s
    else
      let s := updCore s c (fun cs => { cs with hq := rest ++ cs.hwait.take 1, hwait := cs.hwait.drop 1 })
      let t : Strand := { Strand.reset with
        key := handlerKey s.nextId, did := m.did, core := c, pc := m.entry
        s := ((((Vector.replicate 64 0).set 0 m.addr).set 1 m.arg).set 2 (w64 m.sid)).set 3 (w64 m.core)
        tck := m.clock, h := m.clock, sf := m.clock, ydl := 256, seat := .handler, caller := m.caller, msg := some m, chargedAt := s.gtc }
      { s with others := s.others ++ [t], nextId := s.nextId + 1 }

/-! ### The gang barrier (R161, R162) -/

/-- The members of a gang that have neither retired nor failed. -/
def gangOf (s : State) (gid : Nat) : List Strand := (strands s ++ s.packets.map Prod.fst).filter (fun t => t.gid == gid && !t.dead && decide (t.key < 2 ^ 32))

/-- A strand on its way as a migration packet, or in a run queue as one (R188, R189). -/
def inTransit (s : State) (key : Nat) : Bool :=
  (travellers s).any (fun t => t.key == key) || s.cores.any (fun e => e.2.runq.contains (.migrated key)) || s.banks.any (fun e => e.2.runq.contains (.migrated key))

/-- A member goes on from its barrier at a time (R161): at once when seated or on its way, else as an ordinary run-queue entry (R162), its area brought up to date,
with its times in the present era (R284). -/
def gsyncGo (s : State) (t : Strand) (tm : Nat) : State :=
  let s := updStrand s t.key (fun t => { t with pc := t.wnext, ydl := t.ydl - 1, wait := .none, arr := none, tck := tm, pre := none })
  match if inTransit s t.key then none else t.area with
  | none => s
  | some a =>
    let d := t.did
    let put (s : State) (o v : Nat) : State := match devWrite s d (w64 (a + o)) (leBytes 8 v) tm with
      | .ok (s, _) => s
      | .error e => devFailed s d e
    let u := { t with pc := t.wnext, ydl := t.ydl - 1, wait := .none, arr := none, tck := tm }
    let hd := areaHead s u
    let s := match devRead s d (w64 (a + 8)) 8 tm with
      | .ok (s, v, _) => put s 8 (setBits v 63 48 (s.era % 2 ^ 16))
      | .error e => devFailed s d e
    let s := put (put (put (put (put s 0 u.pc.toNat) 0x10 tm) 0x18 u.h) 0x20 u.sf) 0x28 u.ydl
    queueSaved (updStrand (put s 0x90 (hd.getD 18 0)) t.key (fun t => { t with aside := none })) (t.aside.getD t.core) t.key

/-- The area of a waiting member can be brought up to date now (R262). -/
def gsyncReady (s : State) (t : Strand) : Bool := inTransit s t.key || t.area.all (fun a => areaReady s t.did a)

/-- GSYNC_COMPLETE: once every member has arrived, all go on at the greatest arrival time (R161), and a pending slot table of the gang takes effect (R158). The
message of a member that has left the core of the barrier takes one turn of its handler slot (R160, R192). -/
def gsyncComplete (s : State) (gid : Nat) : State :=
  let ms := gangOf s gid
  if ms.isEmpty || ms.any (fun t => t.arr.isNone) || ms.any (fun t => holderOf t != t.gcore && !handlerFree s t.gcore)
      || !ms.all (gsyncReady s) then s
  else
    let tm := ms.foldl (fun m t => max m (t.arr.getD 0)) 0
    let s := ms.foldl (fun s t => gsyncGo s t tm) s
    { s with cores := s.cores.map (fun e => (e.1, match e.2.pendTab with
      | some tb => if e.2.pendGid = gid then { e.2 with table := tb, pendTab := none } else e.2
      | none => e.2)) }

end Sys2Proof.Machine
end

