-- ==== Sys2Proof/Machine/System.lean ====
section
/-! DEFINITION. Page 8: the end of a strand, traps, gates, control registers, modes and slot tables, clocks, range maintenance and
shootdowns. -/

namespace Sys2Proof.Machine

/-- The issue of a page-8 instruction that no handler may run (R193). -/
def sysIssue (g : Guard) (rd wr : List Nat) (bank : BankUse) (begins : List Path) : Issue :=
  { g, rd, wr, vregs := [], noTok := [], handler := false, bank, begins }

/-! ### RETIRE, YIELD, GSYNC (R161, R179, R181, R191) -/

/-- Copies and matrix commands of the strand that have not completed (R181). -/
def ownWork (s : State) : Bool :=
  s.cores.any (fun e => e.2.copies.any (fun k => k.key == s.me.key) || e.2.matq.any (fun k => k.key == s.me.key))

/-- Pushes of the strand's bound streams that are not written yet (R332, R337). -/
def boundPushes (s : State) : Bool :=
  s.me.z.toList.any (fun z => z.any (fun x => !(ctxOf s s.me.core x).pushes.isEmpty))

/-- RETIRE (R181); in the handler slot it sends the reply (R191). A reservation is released as RLS does it (R210), at another package by a message, with the strand's end.
DEDUCED: log entry 51. -/
def execRetire (g : Guard) : State → Host.Outcome State Fault Refusal :=
  issue { sysIssue g [] [] .run [] with handler := true } (fun s =>
    if !s.me.posted.isEmpty then .wait .retry
    else
      let s := raiseClock s s.me.h
      if s.me.seat == .handler then .gone (endHandler s (sreg s 0) 0 0)
      else if ownWork s || boundPushes s then .wait .retry
      else
        if s.me.rsv.any (fun r => !isFar r.1 && !homeReady s (r.1 / 64)) then .wait .retry else
        let s := match s.me.rsv with
          | some (pa, _) => resvRelease s pa s.me.key (if isFar pa then s.me.tck + 1 else s.me.tck)
          | none => s
        .gone (endMe s none))

/-- The slot of the strand is in rotation (R180). -/
def inRotation (s : State) : Bool :=
  match s.me.seat with
  | .slot n => (coreOf s s.me.core).slotown.getD n 0x1F != (coreOf s s.me.core).curown.getD n 0x1F
  | _ => false

/-- The slot of a core passes to the owner the monitor has given it (R430). -/
def passSlot (s : State) (c n : Nat) : State :=
  updCore s c (fun cs => { cs with curown := cs.curown.set n (cs.slotown.getD n 0x1F) })

/-- The oldest run-queue entry of the strand's DID where it sits cannot be seated for want of a slot (R179). -/
def crowded (s : State) : Bool :=
  match s.me.seat with
  | .bank ch _ => (oldestOf s (bankOf s ch).runq s.me.did).isSome
      && !((List.range 8).any (fun i => bit (domBank s ch s.me.did).bslots i && !((strands s).any (fun t => t.seat == .bank ch i && !t.dead))))
  | .slot _ => match oldestOf s (coreOf s s.me.core).runq s.me.did with
    | some e => decide ((freeSlots s s.me.core s.me.did).length < entryNeeds e)
    | none => false
  | _ => false

/-- YIELD: a pre-emption point (R179). DEDUCED: log entry 56. -/
def execYield (d : Fin 128) : State → Host.Outcome State Fault Refusal :=
  issue (sysIssue .always [] [] .run []) (fun s =>
    let s := updMe s (fun t => { t with pc := s.nextPc, ydl := 64 * (d.val + 1), wait := .none })
    let s := chargeStrand s s.me
    let can := areaFree s (homeDid s.me) s.me.region
    if (inRotation s || regionExhausted s (homeDid s.me) s.me.region || crowded s) && !takeReady s (homeDid s.me) s.me.did s.me.region then .wait .retry
    else .gone (
      if inRotation s && can then
        (match s.me.seat with
        | .slot n => passSlot (unseatMe s true) s.me.core n
        | _ => s)
      else if regionExhausted s (homeDid s.me) s.me.region && can then unseatMe s false
      else if crowded s && can then unseatMe s true
      else s))

/-- GSYNC: the gang barrier (R161). -/
def execGsync (g : Guard) : State → Host.Outcome State Fault Refusal :=
  issue (sysIssue g [] [] .run []) (fun s =>
    if !s.me.posted.isEmpty then .wait .retry
    else .gone (gsyncComplete (updMe s (fun t => { t with wait := .gsync, wnext := s.nextPc, arr := some (max t.tck t.h) })) s.me.gid))

/-! ### Traps and gates (R35, R36, R432, R433) -/

/-- TRAP raises BREAK (R35). -/
def execTrap (g : Guard) (imm : Int) : State → Host.Outcome State Fault Refusal :=
  issue (scalar g [] []) (fun _s => .brk (wInt imm))

/-- TRET returns from the trap handler (R36). -/
def execTret : State → Host.Outcome State Fault Refusal :=
  issue (sysIssue .always [] [] .run []) (fun s => if s.me.th then .jump (trapReturn s) s.me.tpc else .trap .illegal s.words)

/-- The gate entry lets a domain in (R431, R432). DEDUCED: log entry 48. -/
def gateOpen (s : State) (n : Nat) : Bool :=
  let g := (kget s.gates n (0, 0)).2
  wbits g 63 63 == 1 && bit (wbits g 52 32) s.me.did && decide (64 ≤ wbits g 29 16 ∧ wbits g 29 16 ≤ 8192) && decide (wbits g 4 0 ≤ 20)

/-- The strand enters a gate, its state saved in an area (R432); the registers that a work packet sets at seating (R18, R19) are 0 in the target.
DEDUCED: log entry 50. DESIGN CHOICE: log entry 98. -/
def enterGate (s : State) (n area : Nat) : State :=
  let g := kget s.gates n (0, 0)
  updMe s (fun t => { t with
    gates := t.gates ++ [(area, t.did)]
    gmon := t.gmon ++ [(t.mon, t.monN)]
    did := wbits g.2 4 0
    s := Vector.ofFn (fun i : Fin 64 => if i.val < 6 then t.s.getD i.val 0 else 0)
    tc := t.tc.filter (fun e => decide (e.1 < 6))
    v := Vector.replicate 16 0
    p := 0x80000000#32
    rnd := 0
    fmta := 0
    fmtb := 0
    fmtc := 0
    scla := 0
    sclb := 0
    vsh := 0x32
    migp := 2
    tcause := 0
    tval := 0
    tpc := 0
    ydl := wbits g.2 29 16
    wait := .none
    pc := g.1 })

/-- GATE (R432): the area is one of the region's pool, and is written under the caller's DID (R429). -/
def execGate (n : Fin 256) : State → Host.Outcome State Fault Refusal :=
  issue (sysIssue .always [] [] .ret []) (fun s =>
    if s.me.th then .trap .illegal s.words
    else if !gateOpen s n.val || 4 ≤ s.me.gates.length || s.me.z.toList.any (·.isSome) then .trap .gate (w64 n.val)
    else if !s.me.pend.isEmpty || !s.me.vpend.isEmpty || !s.me.posted.isEmpty then .wait .retry
    else
      let s := raiseClock s s.me.h
      let d := homeDid s.me
      if !takeReady s d s.me.did s.me.region then .wait .retry
      else match takeArea (markUse s d s.me.region) d s.me.region s.me.tck with
      | .error e => .gone (endFailed s d e)
      | .ok none => .fault (fun s => markUse s d s.me.region) .gate (w64 n.val)
      | .ok (some (s, area, _)) =>
        match saveTo s { s.me with pc := s.nextPc, ydl := s.me.ydl - 1 } s.me.did area with
        | .error e => .gone (endFailed s s.me.did e)
        | .ok (s, _) => .gone (enterGate s n.val area))

/-- GRET (R433): the area is read under the caller's DID (R429). The monitor that the GATE saved is the device's own, so that an area overwritten while in use cannot name
another line (R11, R429); the registers restored carry no Tc any more (R354). DEDUCED: log entry 50. DESIGN CHOICE: log entry 103. -/
def execGret : State → Host.Outcome State Fault Refusal :=
  issue (sysIssue .always [] [] .ret []) (fun s =>
    match s.me.gates.getLast? with
    | none => .trap .illegal s.words
    | some (area, caller) =>
      if s.me.th || s.me.rsv.any (fun r => decide (s.me.gates.length ≤ r.2)) then .trap .illegal s.words
      else if !s.me.pend.isEmpty || !s.me.vpend.isEmpty || !s.me.posted.isEmpty then .wait .retry
      else
        let s := raiseClock s s.me.h
        let d := homeDid s.me
        if !giveReady s d caller s.me.region area then .wait .retry
        else match restoreFrom s s.me caller area with
        | .error e => .gone (endFailed s caller e)
        | .ok (s, u) =>
          let m := s.me
          let s := freeArea s d m.region area
          .gone (updMe s (fun _ => { u with
            did := caller
            gates := m.gates.dropLast
            gmon := m.gmon.dropLast
            mon := (m.gmon.getLastD (none, 0)).1
            monN := (m.gmon.getLastD (none, 0)).2
            s := Vector.ofFn (fun i : Fin 64 => if i.val < 6 then m.s.getD i.val 0 else u.s.getD i.val 0)
            tc := m.tc.filter (fun e => decide (e.1 < 6))
            tck := max m.tck u.tck
            h := max m.h u.h
            sf := max m.sf u.sf
            wait := .none })))

/-! ### Control registers (R16 to R24, R33, R34) -/

/-- What MFC reads (R16, R33). -/
def readCr (s : State) (c : CR) : Word :=
  let m := s.me
  match c with
  | .tck => w64 (m.tck % 2 ^ 48)
  | .era => w64 (s.era % 2 ^ 16)
  | .rnd => m.rnd
  | .fmta => m.fmta
  | .fmtb => m.fmtb
  | .fmtc => m.fmtc
  | .scla => m.scla
  | .sclb => m.sclb
  | .vsh => m.vsh
  | .did => w64 m.did
  | .sid => w64 m.sid
  | .gid => w64 m.gid
  | .rank => w64 m.rank
  | .core => w64 m.core
  | .migp => m.migp
  | .stat => statOf s m
  | .tvec => (domOf s m.did).tvec
  | .tcause => m.tcause
  | .tval => m.tval
  | .tpc => m.tpc
  | .ydl => w64 m.ydl
  | .cal0 => rdcal s 0
  | .cal1 => rdcal s 1
  | .cal2 => rdcal s 2
  | .cal3 => rdcal s 3

/-- MFC (R33). -/
def execMfc (g : Guard) (a : SReg) (cr : CR) : State → Host.Outcome State Fault Refusal :=
  issue (scalar g [] [a.val]) (fun s => .done (setSreg s a.val (readCr s cr)))

/-- A field of a control register written with its reserved bits zero, or a reserved code (R17, R18, R20, R21, R34). -/
def crValue (c : CR) (x : Word) : Option Word :=
  match c with
  | .rnd => if 5 < wbits x 2 0 then none else some (w64 (wbits x 3 0))
  | .fmta => if 7 < wbits x 3 0 then none else some (w64 (wbits x 3 0))
  | .fmtb => if 7 < wbits x 3 0 then none else some (w64 (wbits x 3 0))
  | .fmtc => if 7 < wbits x 3 0 then none else some (w64 (wbits x 3 0))
  | .scla => some (w64 (wbits x 8 0))
  | .sclb => some (w64 (wbits x 8 0))
  | .vsh => if 10 < wbits x 7 4 + wbits x 1 0 then none else some (w64 (wbits x 7 4 * 16 + wbits x 1 0))
  | .migp => if wbits x 1 0 = 3 then none else some (w64 (wbits x 1 0))
  | .tcause => some (w64 (wbits x 8 0))
  | .tpc => some (w64 (x.toNat / 2 * 2))
  | .tvec => some (w64 (x.toNat / 2 * 2))
  | _ => some x

/-- The register is writable at a DID (R16). -/
def crWritable (c : CR) (d : Nat) : Bool :=
  match c with
  | .rnd | .fmta | .fmtb | .fmtc | .scla | .sclb | .vsh | .migp | .tcause | .tval | .tpc => true
  | .tvec => d == 0
  | _ => false

/-- A control register written. -/
def writeCr (s : State) (c : CR) (v : Word) : State :=
  match c with
  | .rnd => updMe s (fun t => { t with rnd := v })
  | .fmta => updMe s (fun t => { t with fmta := v })
  | .fmtb => updMe s (fun t => { t with fmtb := v })
  | .fmtc => updMe s (fun t => { t with fmtc := v })
  | .scla => updMe s (fun t => { t with scla := v })
  | .sclb => updMe s (fun t => { t with sclb := v })
  | .vsh => updMe s (fun t => { t with vsh := v })
  | .migp => updMe s (fun t => { t with migp := v })
  | .tcause => updMe s (fun t => { t with tcause := v })
  | .tval => updMe s (fun t => { t with tval := v })
  | .tpc => updMe s (fun t => { t with tpc := v })
  | .tvec => updDom s s.me.did (fun b => { b with tvec := v })
  | _ => s

/-- MTC (R34). -/
def execMtc (g : Guard) (cr : CR) (a : SReg) : State → Host.Outcome State Fault Refusal :=
  issue (scalar g [a.val] []) (fun s =>
    if !crWritable cr s.me.did then .trap .priv s.words
    else match crValue cr (sreg s a.val) with
      | none => .trap .illegal s.words
      | some v => .done (writeCr s cr v))

/-! ### Register modes and slot tables (R157 to R159) -/

/-- The number of a register mode. -/
def modeNum (m : Mode) : Nat := modeCode m

/-- The core is quiescent for a mode (R157). -/
def quiescent (s : State) (new : Nat) : Bool :=
  let c := s.me.core
  let cs := coreOf s c
  !((strands s).any (fun t => t.key != s.me.key && seated t && t.core == c && (match t.seat with
    | .bank _ _ => false
    | _ => true)))
  && cs.hq.isEmpty && cs.hwait.isEmpty
  && !(cs.runq.any (fun e => match e with
    | .saved k => (strandOf s k).any (fun t => decide (new < modeCode (savedMode s t)))
    | _ => false))

/-- Owners of slots re-expressed when groups of 2^d slots merge into one of `n` slots (R157). -/
def mergeOwners (l : List Nat) (d n : Nat) : List Nat :=
  (List.range 32).map (fun i => if i + 1 < n then l.getD (i * 2 ^ d) 0x1F else 0x1F)

/-- Owners of slots re-expressed when each of `n` slots splits into 2^d (R157). -/
def splitOwners (l : List Nat) (d n : Nat) : List Nat :=
  (List.range 32).map (fun i => if i / 2 ^ d + 1 < n then l.getD (i / 2 ^ d) 0x1F else 0x1F)

/-- The first group of 2^d slots other than the handler's whose owners differ (R157). -/
def splitGroup (l : List Nat) (d n : Nat) : Option Nat :=
  (List.range (n - 1)).find? (fun g => (upto (g * 2 ^ d) (2 ^ d)).any (fun i => l.getD i 0x1F != l.getD (g * 2 ^ d) 0x1F))

/-- REPART once its checks have passed (R157). DEDUCED: log entry 52. -/
def repartTo (s : State) (new : Mode) (slot : Nat) : State :=
  let c := s.me.core
  let cs := coreOf s c
  let old := cs.mode
  let d := if modeCode old < modeCode new then modeCode new - modeCode old else modeCode old - modeCode new
  let f (l : List Nat) : List Nat := if modeCode old < modeCode new then mergeOwners l d (modeSlots new) else splitOwners l d (modeSlots old)
  let s := setCore s c { cs with mode := new, slotown := f cs.slotown, curown := f (ownersNow s c), table := List.replicate 28 0x80 ++ cs.table.drop 28 }
  updMe s (fun t => { t with
    seat := .slot slot
    s := Vector.ofFn (fun i : Fin 64 => if i.val < min (modeS old) (modeS new) then t.s.getD i.val 0 else 0)
    tc := t.tc.filter (fun e => decide (e.1 < min (modeS old) (modeS new)))
    v := Vector.ofFn (fun i : Fin 16 => if i.val < min (modeV old) (modeV new) then t.v.getD i.val 0 else 0) })

/-- REPART changes the register mode of the core (R157): on a split the strand goes on in the first of the slots that its slot becomes. DEDUCED: log entry 52.
DESIGN CHOICE: log entry 94. -/
def execRepart (g : Guard) (m : Mode) : State → Host.Outcome State Fault Refusal :=
  issue (sysIssue g [] [] .ill []) (fun s =>
    let cs := coreOf s s.me.core
    let o := modeCode cs.mode
    let n := modeCode m
    let slot := match s.me.seat with
      | .slot i => i
      | _ => 0
    let merged := slot / 2 ^ (n - o)
    match firstTrap [chk (s.me.did != 0) .priv s.words, chk (!quiescent s n) .illegal s.words,
        chk (decide (o < n) && merged + 1 == modeSlots m) .illegal s.words,
        if o < n then (splitGroup (ownersNow s s.me.core) (n - o) (modeSlots m)).map (fun g =>
          (.domain, descriptor ((ownersNow s s.me.core).getD (g * 2 ^ (n - o)) 0x1F) s.me.core (g * 2 ^ (n - o)) 0x01)) else none] with
    | some (c, v) => .trap c v
    | none => if n = o then .done s else .done (repartTo s m (if o < n then merged else slot * 2 ^ (o - n))))

/-- SLOTSET loads the pending slot table (R158). -/
def execSlotset (g : Guard) (b : SReg) : State → Host.Outcome State Fault Refusal :=
  issue (sysIssue g [b.val] [] .ill [.core]) (fun s =>
    let a := sreg s b.val
    let put (s : State) (v : Nat) : Res := .done (updCore s s.me.core (fun cs => { cs with
      pendTab := some ((leBytes 32 v).map (fun x => x.toNat))
      pendGid := s.me.gid }))
    if stalls s a then .wait .retry
    else match firstTrap [chk (s.me.did != 0) .priv s.words, mboxTrap s a 32 .read] with
    | some (e, v) => .trap e v
    | none => match placeOf s a 32 .read false with
      | .ok (.spad o) =>
        let k := spadKey s.me.core o
        if spadBusy s s.me.core o 32 s.me.did then .wait .retry
        else if poisonedAt s k 32 then .trap .poison a
        else put s (memVal s.mem k 32)
      | .ok (.mem pa) =>
        if !coreReady s pa then .wait .retry
        else if corePoisoned s pa 32 then .trap .poison a
        else
          let (s, v) := coreRead (tlbKeep s s.me.core s.me.did a.toNat) pa 32
          put s v
      | .ok (.remote _ _) => .trap .xlate a
      | .ok .dev => .trap .xlate a
      | .error (e, v) => .trap e v)

/-! ### Time and the step counter (R240, R254, R261) -/

/-- RDGTC (R254). -/
def execRdgtc (g : Guard) (a : SReg) : State → Host.Outcome State Fault Refusal :=
  issue (sysIssue g [] [a.val] .run []) (fun s => .done (setSreg s a.val (w64 s.gtc)))

/-- RDCAL (R261). -/
def execRdcal (g : Guard) (a : SReg) (n : Fin 5) : State → Host.Outcome State Fault Refusal :=
  issue (sysIssue g [] [a.val] .run []) (fun s => .done (setSreg s a.val (rdcal s n.val)))

/-- STEP advances the step counter of the DID's eviction schedule (R240), at every slice at once. DESIGN CHOICE: log entry 95. -/
def execStep (g : Guard) (b : SReg) : State → Host.Outcome State Fault Refusal :=
  issue (sysIssue g [b.val] [] .run []) (fun s =>
    if (domOf s s.me.did).sched = 0 then .done s
    else .done (updDom s s.me.did (fun k => { k with stepc := max k.stepc (wbits (sreg s b.val) 31 0) })))

/-! ### Range maintenance (R250 to R252) -/

/-- Start addresses of the parts of a range that lie in one 4 KiB page each. -/
def rangePages (a n : Nat) : List Nat :=
  (upto (a / 4096) ((a + n - 1) / 4096 - a / 4096 + 1)).map (fun p => max a (4096 * p))

/-- The check of one page of a range (R250). -/
def pageTrap (s : State) (need : Need) (a : Nat) : Option (Cause × Word) :=
  if isTranslated (w64 a) then chkE (checkVa s (holderOf s.me) s.me.did a need false)
  else some (if isDevice (w64 a) then devOther s.me.did (w64 a) else (.xlate, w64 a))

/-- The fault of a range's pages that R29 ranks first, the lowest page within one rank (R250). -/
def rangeTrap (s : State) (need : Need) (pages : List Nat) : Option (Cause × Word) := firstTrap (pages.map (pageTrap s need))

/-- The lines of a range by physical address, once its pages translate. -/
def rangeLines (s : State) (need : Need) (a n : Nat) : List Nat :=
  (upto (a / 64) ((a + n - 1) / 64 - a / 64 + 1)).filterMap (fun l => match checkVa s (holderOf s.me) s.me.did (64 * l) need false with
    | .ok pa => some (pa / 64)
    | .error _ => none)

/-- The step of CLNR on a line (R250): the state. DEDUCED: log entry 53. DEDUCED: log entry 88. -/
def clnrLine (clock : Nat) (s : State) (ln : Nat) : State :=
  let s := flushLine s ln
  let t := timesOf s ln
  let ti := max (clock + 1) (t.rts + 1)
  setTimes (cleanL2 s ln) ln t.wts (max t.rts ti)

/-- The step of INVR or FLSR on a line (R236, R250): the state and the latest ti. A prefetch of the line that has not been performed goes with it, so that none brings the
old line back (R251). DEDUCED: log entry 88. -/
def dropLine (clock : Nat) (wb : Bool) (x : State × Nat) (ln : Nat) : State × Nat :=
  let (s, last) := x
  let s := flushLine s ln
  let t := timesOf s ln
  let ti := max (clock + 1) (t.rts + 1)
  let s := dropL2 { s with prefq := s.prefq.filter (fun q => q.1 != ln) } ln wb
  let s := if onBank s then s else l1Drop s s.me.core ln
  (setTimes s ln (ti + 1) (ti + 1), max last ti)

/-- The write-backs a step has queued become work of the strand (R280). -/
def ownWbs (s0 s : State) : State :=
  updMe s (fun t => { t with wbs := t.wbs.filter (fun i => s.wq.any (fun w => w.id == i)) ++ ((s.wq.filter (fun w => decide (s0.nextId ≤ w.id))).map (fun w => w.id)) })

/-- CLNR, INVR and FLSR (R250): `k` steps every line once the strand's stores are acknowledged. -/
def rangeOp (g : Guard) (a b : SReg) (need : Need) (k : State → List Nat → State) : State → Host.Outcome State Fault Refusal :=
  issue (sysIssue g [a.val, b.val] [] .run [.core]) (fun s =>
    let st := (sreg s a.val).toNat
    let n := (sreg s b.val).toNat
    if n = 0 then .done s
    else if onBank s && (isLocalSpad (w64 st) || (remoteOf (w64 st)).isSome) then .back
    else if 2 ^ 24 < n then .trap .illegal s.words
    else if 2 ^ 64 < st + n then .trap .xlate (w64 st)
    else if (rangePages st n).any (fun a => stalls s (w64 a)) then .wait .retry
    else match rangeTrap s need (rangePages st n) with
      | some (c, v) => .trap c v
      | none =>
        if !acked s .sys then .wait .retry
        else
          let t := raiseClock s s.me.h
          .done (ownWbs t (k t (rangeLines t need st n))))

/-- CLNR (R250). -/
def execClnr (g : Guard) (a : SReg) (b : SReg) : State → Host.Outcome State Fault Refusal :=
  rangeOp g a b .read (fun s ls => ls.foldl (clnrLine s.me.tck) s)

/-- INVR (R250). -/
def execInvr (g : Guard) (a : SReg) (b : SReg) : State → Host.Outcome State Fault Refusal :=
  rangeOp g a b .write (fun s ls => let (t, ti) := ls.foldl (dropLine s.me.tck false) (s, 0); raiseClock t ti)

/-- FLSR (R250). -/
def execFlsr (g : Guard) (a : SReg) (b : SReg) : State → Host.Outcome State Fault Refusal :=
  rangeOp g a b .write (fun s ls => let (t, ti) := ls.foldl (dropLine s.me.tck true) (s, 0); raiseClock t ti)

/-- PREF: one prefetch per line, no trap beyond the checks of the length (R250, R251); it is work of no path (R276). -/
def execPref (g : Guard) (a : SReg) (b : SReg) : State → Host.Outcome State Fault Refusal :=
  issue (sysIssue g [a.val, b.val] [] .run []) (fun s =>
    let st := (sreg s a.val).toNat
    let n := (sreg s b.val).toNat
    if n = 0 then .done s
    else if 2 ^ 24 < n then .trap .illegal s.words
    else if 2 ^ 64 < st + n then .trap .xlate (w64 st)
    else .done ((upto (st / 64) ((st + n - 1) / 64 - st / 64 + 1)).foldl (fun s l => if isTranslated (w64 (64 * l)) then postPref s s.me.did (64 * l) else s) s))

/-! ### Shootdowns (R247 to R249) -/

/-- The checks of TLBI and TLBSD (R248). -/
def tlbTrap (s : State) (base d : Word) : Option (Cause × Word) :=
  let bad := wbits d 63 17 != 0 || wbits d 15 13 != 0 || wbits d 7 6 != 0 || decide (20 < wbits d 12 8) || decide (wbits d 5 0 < 12 ∨ 56 < wbits d 5 0)
  firstTrap [chk (s.me.did != 0) .priv s.words, chk bad .illegal s.words,
    chk (wbits d 16 16 == 0 && base.toNat % 2 ^ wbits d 5 0 != 0) .misalign base]

/-- The range of a shootdown descriptor: first address and the address past its last (R247). -/
def tlbRange (base d : Word) : Nat × Nat :=
  if wbits d 16 16 = 1 then (0, 2 ^ 56) else (base.toNat, base.toNat + 2 ^ wbits d 5 0)

/-- A page of a DID overlaps a range. -/
def tlbMeets (t : Tlb) (did lo hi : Nat) : Bool := t.did == did && decide (t.va < hi ∧ lo < t.va + t.size)

/-- TLBI drops this core's translations (R248). -/
def execTlbi (g : Guard) (a : SReg) (b : SReg) : State → Host.Outcome State Fault Refusal :=
  issue (sysIssue g [a.val, b.val] [] .ret []) (fun s =>
    let base := sreg s a.val
    let d := sreg s b.val
    match tlbTrap s base d with
    | some (c, v) => .trap c v
    | none =>
      if !s.me.posted.isEmpty then .wait .retry
      else
        let s := raiseClock s s.me.h
        let (lo, hi) := tlbRange base d
        .done { s with tlb := s.tlb.filter (fun t => !(t.holder == s.me.core && tlbMeets t (wbits d 12 8) lo hi)) })

/-- A generation is older than that to which a shootdown has raised its DID (R245). -/
def genOlder (g x : Nat) : Bool := decide (1 ≤ (x + 2 ^ 32 - g) % 2 ^ 32 ∧ (x + 2 ^ 32 - g) % 2 ^ 32 < 2 ^ 31)

/-- A command's pages, as it translated them, meet the range of a shootdown that raises its DID to generation `gen` (R407). -/
def bankMeets (c : BankCmd) (did gen lo hi : Nat) : Bool :=
  c.did == did && c.chunks.any (fun k => k.pages.any (fun p => decide (p.1 < hi ∧ lo < p.1 + p.2.1) && genOlder p.2.2 gen))

/-- Channels whose bank units hold an unfinished chunk of a command that a shootdown meets (R407). -/
def bankHolders (s : State) (did gen lo hi : Nat) : List Nat :=
  (s.bank.filter (fun c => bankMeets c did gen lo hi)).flatMap (fun c =>
    (c.chunks.filter (fun k => k.state == 0)).map (fun k => 4096 + channelOf k.dst))

/-- A posted write of a translated address that has not been performed at its home, of this package or beyond it (R249). -/
def postUses (did : Nat) (p : Posted) : Bool := p.done.isNone && p.did == did && !isUnit p.key

/-- Holders at which a use of a translation of the DID is in progress (R249): an access translated and not yet performed, a prefetch among them (R251). -/
def usesOf (s : State) (did : Nat) : List Nat :=
  (s.prefq.filter (fun q => q.2.1 == did)).map (fun q => q.2.2) ++ (strands s).flatMap (fun t =>
    (if t.did == did && (t.load.any (fun l => !l.remote) || t.vload.isSome) then [holderOf t] else [])
      ++ (t.posted.filter (postUses did)).map (fun p => if p.core < 4096 then p.core else holderOf t))

/-- The holders that a shootdown reaches: those that hold an overlapping translation, bank units at work with one, and those where a use is in progress, whose
translation may have been dropped meanwhile (R246, R249). -/
def shootHolders (s : State) (did gen lo hi : Nat) : List Nat :=
  (((s.tlb.filter (fun t => tlbMeets t did lo hi)).map (fun t => t.holder)) ++ bankHolders s did gen lo hi ++ usesOf s did).foldl addNew []

/-- TLBSD: the generation is raised and every holder drops the translations before it completes (R245, R248, R249). DEDUCED: log entry 55. -/
def execTlbsd (g : Guard) (a : SReg) (b : SReg) : State → Host.Outcome State Fault Refusal :=
  issue (sysIssue g [a.val, b.val] [] .ret []) (fun s =>
    let base := sreg s a.val
    let d := sreg s b.val
    match tlbTrap s base d with
    | some (c, v) => .trap c v
    | none =>
      if !s.me.posted.isEmpty then .wait .retry
      else
        let did := wbits d 12 8
        let (lo, hi) := tlbRange base d
        match s.shoots.find? (fun x => x.key == s.me.key) with
        | some x => if x.holders.isEmpty then .done { s with shoots := s.shoots.filter (fun x => x.key != s.me.key) } else .wait .retry
        | none =>
          let s := updDom (raiseClock s s.me.h) did (fun k => { k with gen := (k.gen + 1) % 2 ^ 32 })
          let gen := (domOf s did).gen
          let hs := shootHolders s did gen lo hi
          if hs.isEmpty then .done s
          else .hold (updMe { s with shoots := s.shoots ++ [⟨s.me.key, did, gen, lo, hi, hs⟩] } (fun t => { t with wait := .retry })))

/-- A use of a translation of the DID is in progress at a holder (R249). -/
def holderUses (s : State) (h did : Nat) : Bool := (usesOf s did).contains h

/-- The strands of a DID that sit on the bank core of a channel meet STALE_XLATE at their next access in a range dropped under them (R249, R398). -/
def markStale (s : State) (ch did lo hi : Nat) : State :=
  ((strands s).filter (fun t => !t.dead && t.did == did && (match t.seat with
    | .bank c _ => c == ch
    | _ => false))).foldl (fun s t => updStrand s t.key (fun t => { t with stale := t.stale ++ [(lo, hi)] })) s

/-- The unfinished chunks at a channel of commands that a shootdown meets fail (R407). -/
def failStale (s : State) (ch did gen lo hi : Nat) : State :=
  { s with bank := mapIf (fun c => bankMeets c did gen lo hi) (fun c => { c with chunks := c.chunks.map (fun k =>
      if k.state = 0 && channelOf k.dst == ch then { k with state := 2, cause := causeCode .staleXlate, bufs := [] } else k) }) s.bank }

/-- SHOOTDOWN_HOLDER_DROP: a holder with no use in progress drops its translations and reports (R249): at a bank core strands meet STALE_XLATE once each and
unfinished chunks fail (R398, R407). Bank units to which the holder has sent parts with a translation dropped are reached too. DEDUCED: log entry 55. -/
def holderDrop (s : State) (h : Nat) : State :=
  s.shoots.foldl (fun s x =>
    if !x.holders.contains h || holderUses s h x.did then s
    else
      let bank := decide (4096 ≤ h ∧ h < 5000)
      let held := s.tlb.any (fun t => t.holder == h && tlbMeets t x.did x.base x.top)
      let s := { s with tlb := s.tlb.filter (fun t => !(t.holder == h && tlbMeets t x.did x.base x.top)) }
      let s := if bank then
          failStale (if held then markStale s (h - 4096) x.did x.base x.top else s) (h - 4096) x.did x.gen x.base x.top
        else s
      { s with shoots := mapIf (fun y => y.key == x.key) (fun y => { y with
          holders := (bankHolders s x.did x.gen x.base x.top).foldl addNew (y.holders.filter (· != h)) }) s.shoots }) s

end Sys2Proof.Machine
end

