-- ==== Sys2Proof/Machine/Boundary.lean ====
section
/-! DEFINITION. The events that meet a strand at an instruction boundary (R28, R31, R59, R61, R179, R194, R397). -/

namespace Sys2Proof.Machine

/-- The strand in turn stands at an instruction boundary: in no waiting state, or before an instruction that has not begun (R28). -/
def atBoundary (s : State) : Bool := s.live && (s.me.wait == .none || ((s.me.wait == .retry || s.me.wait == .again) && s.me.pre.isNone))

/-- The oldest held cause is delivered: not while TH is 1 (R28). -/
def deliverAsync (s : State) : State :=
  match s.me.async with
  | [] => s
  | (c, v) :: rest =>
    if !atBoundary s || s.me.th then s
    else takeTrap (updMe s (fun t => { t with async := rest })) s.me.pc c true v

/-- ASYNC_CAUSE_DELIVERY (R28): TPC holds the address of the instruction not yet executed. -/
def execAsyncCauseDelivery : State → Host.Outcome State Fault Refusal := event deliverAsync

/-- YIELD_OVERRUN (R24, R179): an instruction that starts with YDL at 0 ends the strand and fails its task; on a bank core, where the return trap comes before it (R397), the
instruction itself does so as it issues. -/
def execYieldOverrun : State → Host.Outcome State Fault Refusal :=
  event (fun s => if atBoundary s && s.me.seat != .handler && !onBank s && s.me.ydl == 0 then endMe s (some .yieldOverrun) else s)

/-- HANDLER_OVERRUN (R194): the handler ends, and its sender with it. -/
def execHandlerOverrun : State → Host.Outcome State Fault Refusal :=
  event (fun s => if atBoundary s && s.me.seat == .handler && s.me.ydl == 0 then endHandler s 0 (causeCode .handlerOverrun) 0 else s)

/-- BANK_RETURN_TRAP (R397): the strand leaves its bank core, PC at the instruction not executed. -/
def execBankReturnTrap : State → Host.Outcome State Fault Refusal :=
  event (fun s => if atBoundary s then bankReturn s s.me.pc false else s)

/-- ILLEGAL_ENCODING (R59, R60): a chain that is no instruction, its words in TVAL. -/
def execIllegalEncoding (w : Word) : State → Host.Outcome State Fault Refusal :=
  event (fun s => if atBoundary s then takeTrap s s.me.pc .illegal false w else s)

/-- INSTRUCTION_FETCH_FAULT (R61): TPC is the address of the instruction's first word. -/
def execInstructionFetchFault (cause : Cause) (tval : Word) : State → Host.Outcome State Fault Refusal :=
  event (fun s => if atBoundary s then takeTrap s s.me.pc cause false tval else s)

end Sys2Proof.Machine
end

