-- ==== Sys2Proof/Machine/Calendar.lean ====
section
/-! DEFINITION. The kiln calendar's events (R253 to R263): slots, drain deadlines, intervals, the rebase of all times (R256, R284), the
spares that take the place of cores out of service (R447). -/

namespace Sys2Proof.Machine

/-! ### Every time of the package (R284) -/

/-- The times of a message to a handler. -/
def hmsgTimes (f : Nat → Nat) (m : HMsg) : HMsg := { m with clock := f m.clock }

/-- The times of a strand. -/
def strandTimes (f : Nat → Nat) (t : Strand) : Strand :=
  { t with
    tck := f t.tck
    h := f t.h
    sf := f t.sf
    mon := t.mon.map (fun m => (m.1, f m.2))
    gmon := t.gmon.map (fun g => (g.1.map (fun m => (m.1, f m.2)), g.2))
    posted := t.posted.map (fun p => { p with clock := f p.clock, floor := f p.floor, done := p.done.map f })
    tc := t.tc.map (fun e => (e.1, f e.2))
    fencex := t.fencex.map (fun x => { x with tc := f x.tc })
    floors := t.floors.map (fun e => (e.1, f e.2))
    ends := t.ends.map (fun e => (e.1, if e.1 < 2 ^ 65 || e.1 == 2 ^ 65 + 1 then f e.2 else e.2))
    load := t.load.map (fun l => { l with clock := f l.clock })
    vload := t.vload.map (fun l => { l with clock := f l.clock })
    pre := t.pre.map (fun p => { p with tck := f p.tck, fencex := p.fencex.map (fun x => { x with tc := f x.tc }), floors := p.floors.map (fun e => (e.1, f e.2)) })
    msg := t.msg.map (hmsgTimes f)
    arr := t.arr.map f
    wtc := f t.wtc }

/-- The times of a mailbox entry. -/
def msgTimes (f : Nat → Nat) (m : MboxMsg) : MboxMsg := { m with time := f m.time }

/-- The times of a run-queue entry. -/
def entryTimes (f : Nat → Nat) : RunEntry → RunEntry
  | .gang d p ts gid task => .gang d p (f ts) gid task
  | .saved k => .saved k
  | .migrated k => .migrated k

/-- The times that a core keeps. -/
def coreTimes (f : Nat → Nat) (c : CoreSt) : CoreSt :=
  { c with
    queues := c.queues.map (fun q => q.map (fun e => (e.1, f e.2)))
    mbox := c.mbox.map (fun e => (e.1, e.2.map (msgTimes f)))
    held := c.held.map (fun e => (e.1, e.2.map (msgTimes f)))
    runq := c.runq.map (entryTimes f)
    hq := c.hq.map (hmsgTimes f)
    hwait := c.hwait.map (hmsgTimes f)
    copies := c.copies.map (fun k => { k with ts := f k.ts, clk := f k.clk, tc := f k.tc })
    ctxs := c.ctxs.map (fun e => (e.1, { e.2 with tstart := f e.2.tstart, clk := f e.2.clk, tc := f e.2.tc, window := e.2.window.map (fun w => (w.1, f w.2.1, w.2.2)) })) }

/-- `f` applied to every clock and time of the package (R284); messages between packages keep the clock and the ERA that they were sent with (R286). -/
def mapTimes (f : Nat → Nat) (s : State) : State :=
  { s with
    me := strandTimes f s.me
    others := s.others.map (strandTimes f)
    lines := s.lines.map (fun e => (e.1, ⟨f e.2.wts, f e.2.rts, e.2.n⟩))
    cores := s.cores.map (fun e => (e.1, coreTimes f e.2))
    banks := s.banks.map (fun e => (e.1, { e.2 with runq := e.2.runq.map (entryTimes f) }))
    host := { s.host with hc := s.host.hc.map (fun e => (e.1, f e.2)) }
    resv := s.resv.map (fun e => (e.1, { e.2 with waiters := e.2.waiters.map (fun w => (w.1, f w.2)), grant := e.2.grant.map (fun g => (g.1, f g.2)) }))
    records := s.records.map (fun r => { r with tl := f r.tl })
    parked := s.parked.map (fun e => (e.1, { e.2 with tl := f e.2.tl }))
    tasks := s.tasks.map (fun t => { t with tl := f t.tl, ts := f t.ts, clk := f t.clk })
    regions := s.regions.map (fun r => { r with pubs := r.pubs.map (fun p => (p.1, f p.2)), tDep := f r.tDep, tDone := f r.tDone })
    bank := s.bank.map (fun b => { b with tb := f b.tb })
    packets := s.packets.map (fun p => (strandTimes f p.1, p.2)) }

/-- Some clock or time exceeds 2^47 (R256). -/
def timesHigh (s : State) : Bool := decide (mapTimes (fun v => min v (2 ^ 47)) s ≠ s)

/-- The rebase (R284): every time reduced by 2^46, every L1 copy dropped, ERA raised, entries and contexts in the new era. -/
def rebase (s : State) : State :=
  let e := (s.era + 1) % 2 ^ 16
  let s := mapTimes (fun v => v - 2 ^ 46) s
  let msg (m : MboxMsg) : MboxMsg := { m with era := e }
  { s with
    era := e
    cores := s.cores.map (fun x => (x.1, { x.2 with
      l1 := []
      mbox := x.2.mbox.map (fun y => (y.1, y.2.map msg))
      held := x.2.held.map (fun y => (y.1, y.2.map msg))
      ctxs := x.2.ctxs.map (fun y => (y.1, { y.2 with era := e })) })) }

/-! ### The topology table (R447, R448) -/

/-- Core c of the package is in the exposed set. -/
def presentIn (s : State) (c : Nat) : Bool := (topoOf s c).present

/-- The core that takes c's place as a home core (R448): the lowest present core of its quad, which is that of its router (R16), else of the next router of the die
whose quad has one. -/
def substOf (s : State) (c : Nat) : Nat :=
  let quad (k : Nat) : List Nat := (upto 0 4).map (fun q => c / 1024 * 1024 + 256 * q + (c + k) % 256)
  (((upto 0 256).flatMap quad).find? (presentIn s)).getD c

/-- SUBST of every core of a die that is out of the exposed set, and of those back in it; an entry that changes takes the generation `g`. -/
def refreshSubst (s : State) (die g : Nat) : State :=
  (s.topo.filter (fun e => e.1 / 1024 == die)).foldl (fun s e =>
    let x := if presentIn s e.1 then e.1 else substOf s e.1
    if (topoOf s e.1).subst = x then s else { s with topo := kset s.topo e.1 { topoOf s e.1 with subst := x, tgen := g } }) s

/-- The topology generation rises (R448, R449). -/
def raiseTgen (s : State) : State := { s with health := { s.health with tgen := s.health.tgen + 1 } }

/-- A core's entry changes, and with it the topology generation. DEDUCED: log entry 61. -/
def setTopo (s : State) (c : Nat) (f : Topo → Topo) : State :=
  let s := raiseTgen s
  refreshSubst { s with topo := kset s.topo c { f (topoOf s c) with tgen := s.health.tgen } } (c / 1024) s.health.tgen

/-- A spare of its die takes the place of a core out of service, if one remains: its scratchpad and weight store start at zero (R447). DEDUCED: log entry 61. -/
def replaceCore (s : State) (c : Nat) : State :=
  let n := s.health.spares.getD (c / 1024) 0
  if n = 0 then s
  else
    let s := setTopo s c (fun t => { t with present := true, spare := true, phys := 1024 + (16 - n) })
    let a := spadKey c 0
    let b := wsKey c 0
    let inside (k : Nat) : Bool := decide (a ≤ k ∧ k < a + 2 ^ 18) || decide (b ≤ k ∧ k < b + 2 ^ 20)
    { s with
      health := { s.health with spares := s.health.spares.set (c / 1024) (n - 1), pending := s.health.pending.filter (· != c) }
      mem := memZero (memZero s.mem a (2 ^ 18)) b (2 ^ 20)
      poison := s.poison.filter (fun g => !inside (64 * g)) }

/-! ### The calendar (R255, R257) -/

/-- The events of the calendar. -/
inductive CalEvent where
  | minor | major | drain | done
  deriving DecidableEq, Repr

/-- What happens at a tick, if anything (R255, R257): a major slot's start covers that of its minor slot. DEDUCED: log entry 65. -/
def calAt (t : Nat) : Option CalEvent :=
  if t % 2 ^ 14 = 0 then some (if t % 2 ^ 22 = 0 then .major else .minor)
  else if t % 2 ^ 14 = 640 && !inInterval t then some .done
  else if t % 2 ^ 14 = 16256 && !inInterval t then some .drain
  else none

/-- The first event of the calendar after a tick. -/
def nextCal (m : Nat) : Nat × CalEvent :=
  let b := m / 2 ^ 14 * 2 ^ 14
  (([b + 640, b + 16256].filter (fun t => decide (m < t))).findSome? (fun t => (calAt t).map (fun e => (t, e)))).getD
    (b + 2 ^ 14, if (b + 2 ^ 14) % 2 ^ 22 = 0 then .major else .minor)

/-- The event of the calendar that is due, if one is. -/
def calDue (s : State) : Option CalEvent :=
  let n := nextCal s.calMark
  if n.1 ≤ s.gtc then some n.2 else none

/-- An event of the calendar performed when it is the next one due. DESIGN CHOICE: log entry 21. -/
def calDo (e : CalEvent) (f : State → State) (s : State) : State :=
  if calDue s = some e then f { s with calMark := (nextCal s.calMark).1 } else s

/-- The Maltsters read the budgets of all regions again (R172). -/
def rereadBudgets (s : State) : State :=
  s.regions.foldl (fun s r => refreshRegion (match regionInfo s r.did r.addr with
    | .ok ri => updRegion s r.pa (fun r => { r with budget := ri.budget })
    | .error _ => s) r.pa) s

/-- A housekeeping task at the end of its slot (R258, R445): entry `u` of the overruns holds twice the consecutive overruns of the task, plus 1 when it has overrun this
slot. Tasks 0 to 511 are the refreshes of the channels, 512 to 4607 those of the weight stores, from 8192 on the tasks of major slots. DEDUCED: log entry 60. -/
def housekeeping (s : State) (u n : Nat) : State :=
  if n % 2 = 0 then { s with health := { s.health with overrun := kdel s.health.overrun u } }
  else
    let s := healthTo { s with health := { s.health with hkovr := min 65535 (s.health.hkovr + 1), overrun := kset s.health.overrun u (n + 1) } } 1
    if 6 ≤ n + 1 && u < 512 && !s.health.deadCh.contains u then degrade (raiseTgen { s with health := { s.health with deadCh := s.health.deadCh ++ [u] } }) else s

/-- A slot ends: a task of the slot that has not finished is counted and goes on in the next slot of the kind (R258). A major slot covers the refresh of two minor ones. -/
def slotEnd (s : State) (major : Bool) : State :=
  (s.health.overrun.filter (fun e => major || decide (e.1 < 8192))).foldl (fun s e => housekeeping s e.1 e.2) s

/-- Idle power, and the housekeeping of a slot, are charged to DID 0 (R468). DESIGN CHOICE: log entry 7. -/
def chargeIdle (s : State) : State := chargeEnergy (chargeEnergy s 0 0) 0 1

/-- The start of a minor slot (R255): the one 32,768 ticks after the start of a major slot follows its end (R258). -/
def minorStart (s : State) : State :=
  rereadBudgets (chargeIdle (if s.calMark % 2 ^ 22 = 32768 then slotEnd s true else s))

/-- MINOR_SLOT_START (R255): refresh changes no value (R228, R440); budgets are read again (R172). -/
def execMinorSlotStart : State → Host.Outcome State Fault Refusal := event (calDo .minor minorStart)

/-- The start of a major slot: MAJN, the rebase when a time is high, ports brought up again, spares, and the budgets of its minor slot (R172, R255, R256, R447, R456). DEDUCED: log entry 62. -/
def majorStart (s : State) : State :=
  let high := timesHigh s
  let s := if high then rebase s else s
  let s : State := { s with
    rblast := high
    majn := s.majn + 1
    fresh := s.fresh + 1
    ports := s.ports.map (fun e => (e.1, if e.2.up then e.2 else
      { e.2 with up := true, lanes := 2, switch := (Config.switchId s.fresh e.1).toNat, failed := 0, replay := false })) }
  rereadBudgets (s.health.pending.foldl replaceCore (chargeIdle (rerouted s)))

/-- MAJOR_SLOT_START (R255, R256). -/
def execMajorSlotStart : State → Host.Outcome State Fault Refusal := event (calDo .major majorStart)

/-- A context floated at a channel parks after its element (R262, R336). -/
def parkCtx (s : State) (c x : Nat) : State :=
  let t := ctxOf s c x
  if t.state = 4 && t.lock = 2 then streamEvent (updCtx s c x (fun t => { t with state := 5 })) c x 5 0 else s

/-- A strand on a bank core returns to a full core, a waiting one too (R262): once every write of it has been acknowledged (R265). -/
def bankLeave (s : State) : State :=
  match s.me.seat with
  | .bank _ _ => bankReturn s s.me.pc true
  | _ => s

/-- The drain deadline (R262, R263): copies and channel streams park, running bank commands are cut off, bank cores are left. -/
def drain (s : State) : State :=
  let s : State := { s with cores := s.cores.map (fun e => (e.1, { e.2 with copies := e.2.copies.map (fun k => { k with parked := true }) })) }
  let s := s.cores.foldl (fun s e => e.2.ctxs.foldl (fun s x => parkCtx s e.1 x.1) s) s
  let s := (s.bank.filter (fun c => c.begun)).foldl (fun s c => bankCut s c.id (causeCode .slotOverrun)) s
  ((strands s).map (fun t => t.key)).foldl (fun s k => asStrand s k bankLeave) s

/-- DRAIN_DEADLINE (R257, R262). -/
def execDrainDeadline : State → Host.Outcome State Fault Refusal := event (calDo .drain drain)

/-- The end of an interval (R262), and of the minor slot that it ends with: parked copies and streams resume; unfinished housekeeping is counted (R258, R445). -/
def resume (s : State) : State :=
  let s : State := { s with cores := s.cores.map (fun e => (e.1, { e.2 with
    copies := e.2.copies.map (fun k => { k with parked := false })
    ctxs := e.2.ctxs.map (fun x => (x.1, if x.2.state = 5 then { x.2 with state := 4 } else x.2)) })) }
  slotEnd s false

/-- INTERVAL_END (R255, R262). -/
def execIntervalEnd : State → Host.Outcome State Fault Refusal := event (calDo .done resume)

end Sys2Proof.Machine
end

