-- ==== Sys2Proof/Machine/Control.lean ====
section
/-! DEFINITION. Page 0: branches, calls and returns. -/

namespace Sys2Proof.Machine

/-- J: the target is PC + 2 × imm (R99). -/
def execJ (g : Guard) (imm : Int) : State → Host.Outcome State Fault Refusal :=
  issue (scalar g [] []) (fun s => .jump s (s.me.pc + wInt (2 * imm)))

/-- JR: an odd target raises MISALIGN and pops nothing (R62, R101). -/
def execJr (g : Guard) (a : SOp) : State → Host.Outcome State Fault Refusal :=
  issue (opIssue g [a] [] [] []) (fun s => withRead s a (fun s x => if x.toNat % 2 = 1 then .trap .misalign x else .jump s x))

/-- B p.n (R98). -/
def execBTrue (g : Guard) (a : PBit) (imm : Int) : State → Host.Outcome State Fault Refusal :=
  issue (scalar g [] []) (fun s => if pbit s a.val then .jump s (s.me.pc + wInt (2 * imm)) else .done s)

/-- B !p.n (R98). -/
def execBFalse (g : Guard) (a : PBit) (imm : Int) : State → Host.Outcome State Fault Refusal :=
  issue (scalar g [] []) (fun s => if pbit s a.val then .done s else .jump s (s.me.pc + wInt (2 * imm)))

/-- JAL writes, or pushes, the link and jumps (R100). -/
def execJal (g : Guard) (a : SOp) (imm : Int) : State → Host.Outcome State Fault Refusal :=
  issue (opIssue g [] [a] [] []) (fun s => match withWrite s a s.nextPc with
    | .done t => .jump t (s.me.pc + wInt (2 * imm))
    | r => r)

end Sys2Proof.Machine
end

