-- ==== Sys2Proof/Machine/Engines.lean ====
section
/-! DEFINITION. The events of the engines: streams, copies, the matrix engine, the bank units, and a scratchpad bank's new holder. -/

namespace Sys2Proof.Machine

/-- STREAM_ELEMENT (R318): `float` is the device's choice to float or to hop where the policy leaves it one. DEDUCED: log entry 77. -/
def execStreamElement (c : Nat) (x : Nat) (float : Bool) : State → Host.Outcome State Fault Refusal := event (fun s => streamStep s c x float)

/-- A store that a stream holds has not been performed at its home (R317, R320). -/
def holding (s : State) (c x : Nat) : Bool :=
  (strandOf s (ctxOf s c x).okey).any (fun o => o.posted.any (fun p => p.done.isNone && p.held.contains (c, x)))

/-- A recalled context reaches its core once the stores that it held have been released and performed (R320): recalled, or failed (R321) once its CWORD can be written
(R262), one that was home already among them. DEDUCED: log entry 91. -/
def recallArrive (s : State) (c x : Nat) : State :=
  let t := ctxOf s c x
  if !t.recalled || !(t.state == 3 || t.state == 4 || t.state == 5 || (t.state == 6 && t.fcode != 0)) || holding s c x then s
  else if t.fcode = 0 then recallCtx s c x
  else if t.srec.cword != 0 && !devReady s t.did t.srec.cword then s
  else failCtx s c x t.fcode t.fcause true

/-- STREAM_RECALL_ARRIVE (R320). -/
def execStreamRecallArrive (c : Nat) (x : Nat) : State → Host.Outcome State Fault Refusal := event (fun s => recallArrive s c x)

/-- STREAM_WINDOW_FILL (R314). -/
def execStreamWindowFill (c : Nat) (x : Nat) : State → Host.Outcome State Fault Refusal := event (fun s => windowFill s c x)

/-- STREAM_PUSH_WRITE (R315). -/
def execStreamPushWrite (c : Nat) (x : Nat) : State → Host.Outcome State Fault Refusal := event (fun s => pushWrite s c x)

/-- COPY_BURST (R352). -/
def execCopyBurst (c : Nat) (id : Nat) : State → Host.Outcome State Fault Refusal := event (fun s => copyBurst s c id)

/-- COPY_COMPLETION (R354, R357, R358): a receiver's receipt, or the command's end. -/
def execCopyCompletion (c : Nat) (id : Nat) : State → Host.Outcome State Fault Refusal := event (fun s => copyComplete s c id)

/-- MMA_COMPLETION (R373, R382). -/
def execMmaCompletion (c : Nat) : State → Host.Outcome State Fault Refusal := event (fun s => matStep s c true)

/-- MATRIX_COMMAND_COMPLETION (R371). -/
def execMatrixCommandCompletion (c : Nat) : State → Host.Outcome State Fault Refusal := event (fun s => matStep s c false)

/-- BANK_ROW_OPERATION (R406). -/
def execBankRowOperation (ch : Nat) : State → Host.Outcome State Fault Refusal := event (fun s => bankRow s ch)

/-- BANK_COMMAND_END (R408 to R410). -/
def execBankCommandEnd (id : Nat) : State → Host.Outcome State Fault Refusal := event (fun s => bankEnd s id)

/-- The scratchpad bytes that a matrix command reads or writes, as offset and length, none for one that touches no scratchpad (R375, R377, R384). -/
def matSpad (op : MatOp) : Nat × Nat :=
  match op with
  | .mfill _ src _ len => (src, len)
  | .msclSp _ src => (src, 512)
  | .mstc _ dst st => (dst, 32 * st + 32)
  | .mma _ _ _ => (0, 0)
  | .mfillV _ _ _ => (0, 0)
  | .mldw _ _ => (0, 0)
  | .mscl _ _ => (0, 0)
  | .mstcV _ _ => (0, 0)
  | .mzero _ => (0, 0)
  | .zeroSlot _ => (0, 0)
  | .zeroAcc _ => (0, 0)

/-- A range of scratchpad offsets, as offset and length, meets a bank. -/
def meetsBank (b : Nat) (r : Nat × Nat) : Bool := r.2 != 0 && decide (r.1 / 2 ^ 14 ≤ b ∧ b ≤ (r.1 + r.2 - 1) / 2 ^ 14)

/-- A copy command that has elements still to move reads or writes a scratchpad bank of a core: its own, or that of a receiver (R349, R350, R357). -/
def copyUses (own : Nat) (k : CopyCmd) (c b : Nat) : Bool :=
  localSpad k.kind && (if k.kind = .multi then k.recv.contains c else own == c) && k.fail.isNone && decide (k.next < boxLen k.box) && (boxBanks k.shape k.box).contains b

/-- Nothing issued before number `n` still uses a scratchpad bank of a core (R421): writes from other cores, loads and vector loads, matrix commands and copies. -/
def bankQuiet (s : State) (c b n : Nat) : Bool :=
  let inside (k : Nat) : Bool := decide (spadKey c (b * 2 ^ 14) ≤ k ∧ k < spadKey c ((b + 1) * 2 ^ 14))
  !((strands s).any (fun t => t.posted.any (fun p => p.done.isNone && decide (p.id < n) && inside p.key)
      || t.load.any (fun l => l.remote && decide (l.id < n) && inside l.key) || t.vload.any (fun v => decide (v.id < n) && v.todo.any (fun e => inside e.2))))
  && !((coreOf s c).matq.any (fun k => decide (k.id < n) && meetsBank b (matSpad k.op)))
  && !(s.cores.any (fun e => e.2.copies.any (fun k => decide (k.id < n) && copyUses e.1 k c b)))

/-- A handed-over bank is zeroed and then served to its holder (R421), the earliest of its hand-overs first. -/
def bankHandover (s : State) (c b : Nat) : State :=
  match (coreOf s c).handover.find? (fun h => h.1 == b) with
  | none => s
  | some h =>
    if !bankQuiet s c b h.2.2 then s
    else
      let k := spadKey c (b * 2 ^ 14)
      let s := { s with mem := memZero s.mem k (2 ^ 14), poison := s.poison.filter (fun g => !decide (k ≤ 64 * g ∧ 64 * g < k + 2 ^ 14)) }
      updCore s c (fun cs => { cs with handover := cs.handover.erase h })

/-- SCRATCHPAD_BANK_HANDOVER (R421). -/
def execScratchpadBankHandover (c : Nat) (bank : Nat) : State → Host.Outcome State Fault Refusal := event (fun s => bankHandover s c bank)

end Sys2Proof.Machine
end

