-- ==== Sys2Proof/Machine/Float.lean ====
section
/-! DEFINITION. Page 1: scalar FP32. -/

namespace Sys2Proof.Machine

/-- FADD with one rounding under RND (R103 to R105). -/
def execFadd (g : Guard) (a : SOp) (b : SOp) (c : SOp) : State → Host.Outcome State Fault Refusal :=
  op3 g a b c (fun s x y => w64 (addCode .f32 (rndMode s.me.rnd) (rndSat s.me.rnd) (x.toNat % 2 ^ 32) (y.toNat % 2 ^ 32)))

/-- FSUB with one rounding under RND (R103 to R105). -/
def execFsub (g : Guard) (a : SOp) (b : SOp) (c : SOp) : State → Host.Outcome State Fault Refusal :=
  op3 g a b c (fun s x y => w64 (subCode .f32 (rndMode s.me.rnd) (rndSat s.me.rnd) (x.toNat % 2 ^ 32) (y.toNat % 2 ^ 32)))

/-- FMUL with one rounding under RND (R103 to R105). -/
def execFmul (g : Guard) (a : SOp) (b : SOp) (c : SOp) : State → Host.Outcome State Fault Refusal :=
  op3 g a b c (fun s x y => w64 (mulCode .f32 (rndMode s.me.rnd) (rndSat s.me.rnd) (x.toNat % 2 ^ 32) (y.toNat % 2 ^ 32)))

/-- FDIV with one rounding under RND (R103 to R105). -/
def execFdiv (g : Guard) (a : SOp) (b : SOp) (c : SOp) : State → Host.Outcome State Fault Refusal :=
  op3 g a b c (fun s x y => w64 (divCode .f32 (rndMode s.me.rnd) (rndSat s.me.rnd) (x.toNat % 2 ^ 32) (y.toNat % 2 ^ 32)))

/-- FMIN (R106). -/
def execFmin (g : Guard) (a : SOp) (b : SOp) (c : SOp) : State → Host.Outcome State Fault Refusal :=
  op3 g a b c (fun _ x y => w64 (minMaxCode .f32 false (x.toNat % 2 ^ 32) (y.toNat % 2 ^ 32)))

/-- FMAX (R106). -/
def execFmax (g : Guard) (a : SOp) (b : SOp) (c : SOp) : State → Host.Outcome State Fault Refusal :=
  op3 g a b c (fun _ x y => w64 (minMaxCode .f32 true (x.toNat % 2 ^ 32) (y.toNat % 2 ^ 32)))

/-- FFMA with one rounding (R104, R105). -/
def execFfma (g : Guard) (a : SReg) (b : SOp) (c : SOp) : State → Host.Outcome State Fault Refusal :=
  opRmw3 g a b c (fun s z x y => w64 (fmaCode .f32 (rndMode s.me.rnd) (rndSat s.me.rnd) (x.toNat % 2 ^ 32) (y.toNat % 2 ^ 32) (z.toNat % 2 ^ 32)))

/-- FCMP (R107). -/
def execFcmp (g : Guard) (a : PBit) (b : SOp) (c : SOp) (k : FCond) : State → Host.Outcome State Fault Refusal :=
  opPred g a b c (fun x y => fcondHolds k (decodeNum .f32 (x.toNat % 2 ^ 32)) (decodeNum .f32 (y.toNat % 2 ^ 32)))

/-- FCVT.F32.S64 (R108). -/
def execFcvtF32S64 (g : Guard) (a : SOp) (b : SOp) : State → Host.Outcome State Fault Refusal :=
  op2 g a b (fun s x => w64 (roundRnd .f32 s.me.rnd (ofInt x.toInt)))

/-- FCVT.F32.U64 (R108). -/
def execFcvtF32U64 (g : Guard) (a : SOp) (b : SOp) : State → Host.Outcome State Fault Refusal :=
  op2 g a b (fun s x => w64 (roundRnd .f32 s.me.rnd (ofInt x.toNat)))

/-- FCVT.S64.F32: clamped, NaN gives 0 (R108). -/
def execFcvtS64F32 (g : Guard) (a : SOp) (b : SOp) : State → Host.Outcome State Fault Refusal :=
  op2 g a b (fun s x => wInt (toInt (rndMode s.me.rnd) (-(2 ^ 63)) (2 ^ 63 - 1) (decodeNum .f32 (x.toNat % 2 ^ 32))))

/-- FCVT.U64.F32: clamped, NaN gives 0 (R108). -/
def execFcvtU64F32 (g : Guard) (a : SOp) (b : SOp) : State → Host.Outcome State Fault Refusal :=
  op2 g a b (fun s x => wInt (toInt (rndMode s.me.rnd) 0 (2 ^ 64 - 1) (decodeNum .f32 (x.toNat % 2 ^ 32))))

/-- FCVT.F32.BF16 widens exactly (R108). -/
def execFcvtF32Bf16 (g : Guard) (a : SOp) (b : SOp) : State → Host.Outcome State Fault Refusal :=
  op2 g a b (fun _ x => w64 (roundTo .f32 0 false (decodeNum .bf16 (x.toNat % 2 ^ 16))))

/-- FCVT.BF16.F32 (R108). -/
def execFcvtBf16F32 (g : Guard) (a : SOp) (b : SOp) : State → Host.Outcome State Fault Refusal :=
  op2 g a b (fun s x => w64 (roundRnd .bf16 s.me.rnd (decodeNum .f32 (x.toNat % 2 ^ 32))))

end Sys2Proof.Machine
end

