-- ==== Sys2Proof/Machine/Integer.lean ====
section
/-! DEFINITION. Page 1: multiplication, division, minimum and maximum, bit manipulation. -/

namespace Sys2Proof.Machine

/-- The signed quotient (R87). -/
def divS (x y : Word) : Word :=
  if y = 0 then BitVec.allOnes 64 else wInt (x.toInt.tdiv y.toInt)

/-- The signed remainder (R87). -/
def remS (x y : Word) : Word :=
  if y = 0 then x else wInt (x.toInt.tmod y.toInt)

/-- The unsigned quotient (R87). -/
def divU (x y : Word) : Word := if y = 0 then BitVec.allOnes 64 else w64 (x.toNat / y.toNat)

/-- The unsigned remainder (R87). -/
def remU (x y : Word) : Word := if y = 0 then x else w64 (x.toNat % y.toNat)

/-- The carry-less product of two numbers, over the low bits of the second (R92). -/
def clmulBits (x : Nat) (y : Nat) : Nat → Nat
  | 0 => 0
  | i + 1 => clmulBits x y i ^^^ (if bit y i then x * 2 ^ i else 0)

/-- The 128-bit carry-less product (R92). -/
def clmul128 (x y : Nat) : Nat := clmulBits x y 64

/-- Ones among the low n bits (R90). -/
def popcount : Nat → Nat → Nat
  | 0, _ => 0
  | n + 1, x => x % 2 + popcount n (x / 2)

/-- The low n bits in reverse order (R90). -/
def brevN : Nat → Nat → Nat
  | 0, _ => 0
  | n + 1, x => x % 2 * 2 ^ n + brevN n (x / 2)

/-- Leading zero bits of 64 (R90). -/
def clz64 (x : Nat) : Nat := if x = 0 then 64 else 63 - Nat.log2 x

/-- Trailing zero bits of 64 (R90). -/
def ctz64 (x : Nat) : Nat := if x = 0 then 64 else 63 - Nat.log2 (brevN 64 x)

/-- The position and width of a bit field (R91). -/
def fieldOf (y : Word) : Nat × Nat :=
  let pos := wbits y 5 0
  (pos, min (min (wbits y 14 8) 64) (64 - pos))

/-- A bit field extracted (R91). -/
def bext (x y : Word) : Word := w64 (x.toNat / 2 ^ (fieldOf y).1 % 2 ^ (fieldOf y).2)

/-- A bit field inserted (R91). -/
def bins (z x y : Word) : Word :=
  let (pos, w) := fieldOf y
  let m := w64 ((2 ^ w - 1) * 2 ^ pos)
  (z &&& ~~~m) ||| ((x <<< pos) &&& m)

/-- MUL (R86). -/
def execMul (g : Guard) (a : SOp) (b : SOp) (c : SOp) : State → Host.Outcome State Fault Refusal :=
  op3 g a b c (fun _ x y => x * y)

/-- MULH (R86). -/
def execMulh (g : Guard) (a : SOp) (b : SOp) (c : SOp) : State → Host.Outcome State Fault Refusal :=
  op3 g a b c (fun _ x y => wInt (x.toInt * y.toInt / 2 ^ 64))

/-- MULHU (R86). -/
def execMulhu (g : Guard) (a : SOp) (b : SOp) (c : SOp) : State → Host.Outcome State Fault Refusal :=
  op3 g a b c (fun _ x y => w64 (x.toNat * y.toNat / 2 ^ 64))

/-- DIV (R87). -/
def execDiv (g : Guard) (a : SOp) (b : SOp) (c : SOp) : State → Host.Outcome State Fault Refusal :=
  op3 g a b c (fun _ x y => divS x y)

/-- DIVU (R87). -/
def execDivu (g : Guard) (a : SOp) (b : SOp) (c : SOp) : State → Host.Outcome State Fault Refusal :=
  op3 g a b c (fun _ x y => divU x y)

/-- REM (R87). -/
def execRem (g : Guard) (a : SOp) (b : SOp) (c : SOp) : State → Host.Outcome State Fault Refusal :=
  op3 g a b c (fun _ x y => remS x y)

/-- REMU (R87). -/
def execRemu (g : Guard) (a : SOp) (b : SOp) (c : SOp) : State → Host.Outcome State Fault Refusal :=
  op3 g a b c (fun _ x y => remU x y)

/-- MIN (R88). -/
def execMin (g : Guard) (a : SOp) (b : SOp) (c : SOp) : State → Host.Outcome State Fault Refusal :=
  op3 g a b c (fun _ x y => if x.slt y then x else y)

/-- MAX (R88). -/
def execMax (g : Guard) (a : SOp) (b : SOp) (c : SOp) : State → Host.Outcome State Fault Refusal :=
  op3 g a b c (fun _ x y => if x.slt y then y else x)

/-- MINU (R88). -/
def execMinu (g : Guard) (a : SOp) (b : SOp) (c : SOp) : State → Host.Outcome State Fault Refusal :=
  op3 g a b c (fun _ x y => if x.ult y then x else y)

/-- MAXU (R88). -/
def execMaxu (g : Guard) (a : SOp) (b : SOp) (c : SOp) : State → Host.Outcome State Fault Refusal :=
  op3 g a b c (fun _ x y => if x.ult y then y else x)

/-- ROL (R89). -/
def execRol (g : Guard) (a : SOp) (b : SOp) (c : SOp) : State → Host.Outcome State Fault Refusal :=
  op3 g a b c (fun _ x y => x.rotateLeft (wbits y 5 0))

/-- ROR (R89). -/
def execRor (g : Guard) (a : SOp) (b : SOp) (c : SOp) : State → Host.Outcome State Fault Refusal :=
  op3 g a b c (fun _ x y => x.rotateRight (wbits y 5 0))

/-- CLMUL (R92). -/
def execClmul (g : Guard) (a : SOp) (b : SOp) (c : SOp) : State → Host.Outcome State Fault Refusal :=
  op3 g a b c (fun _ x y => w64 (clmul128 x.toNat y.toNat))

/-- CLMULH (R92). -/
def execClmulh (g : Guard) (a : SOp) (b : SOp) (c : SOp) : State → Host.Outcome State Fault Refusal :=
  op3 g a b c (fun _ x y => w64 (clmul128 x.toNat y.toNat / 2 ^ 64))

/-- BEXT (R91). -/
def execBext (g : Guard) (a : SOp) (b : SOp) (c : SOp) : State → Host.Outcome State Fault Refusal :=
  op3 g a b c (fun _ x y => bext x y)

/-- BINS (R91). -/
def execBins (g : Guard) (a : SReg) (b : SOp) (c : SOp) : State → Host.Outcome State Fault Refusal :=
  opRmw3 g a b c (fun _ z x y => bins z x y)

/-- CLZ (R90). -/
def execClz (g : Guard) (a : SOp) (b : SOp) : State → Host.Outcome State Fault Refusal :=
  op2 g a b (fun _ x => w64 (clz64 x.toNat))

/-- CTZ (R90). -/
def execCtz (g : Guard) (a : SOp) (b : SOp) : State → Host.Outcome State Fault Refusal :=
  op2 g a b (fun _ x => w64 (ctz64 x.toNat))

/-- POPC (R90). -/
def execPopc (g : Guard) (a : SOp) (b : SOp) : State → Host.Outcome State Fault Refusal :=
  op2 g a b (fun _ x => w64 (popcount 64 x.toNat))

/-- BREV (R90). -/
def execBrev (g : Guard) (a : SOp) (b : SOp) : State → Host.Outcome State Fault Refusal :=
  op2 g a b (fun _ x => w64 (brevN 64 x.toNat))

/-- BSWAP (R90). -/
def execBswap (g : Guard) (a : SOp) (b : SOp) : State → Host.Outcome State Fault Refusal :=
  op2 g a b (fun _ x => w64 (leVal (leBytes 8 x.toNat).reverse))

/-- SEXT.B (R90). -/
def execSextB (g : Guard) (a : SOp) (b : SOp) : State → Host.Outcome State Fault Refusal :=
  op2 g a b (fun _ x => sext 8 x.toNat)

/-- SEXT.H (R90). -/
def execSextH (g : Guard) (a : SOp) (b : SOp) : State → Host.Outcome State Fault Refusal :=
  op2 g a b (fun _ x => sext 16 x.toNat)

/-- SEXT.W (R90). -/
def execSextW (g : Guard) (a : SOp) (b : SOp) : State → Host.Outcome State Fault Refusal :=
  op2 g a b (fun _ x => sext 32 x.toNat)

/-- ZEXT.B (R90). -/
def execZextB (g : Guard) (a : SOp) (b : SOp) : State → Host.Outcome State Fault Refusal :=
  op2 g a b (fun _ x => w64 (x.toNat % 2 ^ 8))

/-- ZEXT.H (R90). -/
def execZextH (g : Guard) (a : SOp) (b : SOp) : State → Host.Outcome State Fault Refusal :=
  op2 g a b (fun _ x => w64 (x.toNat % 2 ^ 16))

/-- ZEXT.W (R90). -/
def execZextW (g : Guard) (a : SOp) (b : SOp) : State → Host.Outcome State Fault Refusal :=
  op2 g a b (fun _ x => w64 (x.toNat % 2 ^ 32))

/-- MFP: bit 31 of the result is 1 (R85). -/
def execMfp (g : Guard) (a : SOp) : State → Host.Outcome State Fault Refusal :=
  issue (opIssue g [] [a] [] []) (fun s => withWrite s a (w64 (s.me.p.toNat % 2 ^ 31 + 2 ^ 31)))

/-- MTP writes P[30:0] (R85). -/
def execMtp (g : Guard) (a : SOp) : State → Host.Outcome State Fault Refusal :=
  issue (opIssue g [a] [] [] []) (fun s => withRead s a (fun s x => .done (updMe s (fun t => { t with p := BitVec.ofNat 32 (x.toNat % 2 ^ 31 + 2 ^ 31) }))))

end Sys2Proof.Machine
end

