-- ==== Sys2Proof/Machine/Memory.lean ====
section
/-! DEFINITION. Page 0: scalar loads and stores. -/

namespace Sys2Proof.Machine

/-- The issue of a load or store: it begins CORE-path work (R276); on a bank core its address says which path it belongs to (R398). -/
def memIssue (bank : Bool) (g : Guard) (rd wr : List SOp) (rdR wrR : List Nat) : Issue :=
  let x := opIssue g rd wr rdR wrR
  { x with begins := if bank then x.begins else .core :: x.begins }

/-- Where a load's operand puts its data. -/
def loadDest : SOp → LoadDest
  | .s r => .reg r.val
  | .q i => .queue i.val
  | .z i => .stream i.val

/-- What a queue or stream destination does to a load at an address before anything of the access happens (R29, R78, R155): a full queue makes it wait, whatever its address;
a trap of the destination is ranked with those of the access. -/
def destStop (s : State) (o : SOp) (a : Word) (n : Nat) : Option Res :=
  match writeStop s o with
  | some (.trap c v) =>
    if accessStalls s a n then some (.wait .retry)
    else match accessTrap s a n .read true with
      | some (c', v') => some (.trap c' v')
      | none => some (.trap c v)
  | r => r

/-- A load of `n` bytes at s[b] + offset (R93, R94), which does not issue until its destination can be served (R78). -/
def loadForm (g : Guard) (a b : SOp) (off : Int) (n : Nat) (signed ldD : Bool) (s0 : State) : Host.Outcome State Fault Refusal :=
  issue (memIssue (onBank s0) g [b] [a] [] []) (fun s => ranked s [b] [a] [] (withRead s b (fun t x =>
    match destStop t a (x + wInt off) n with
    | some r => r
    | none => loadOp s t (x + wInt off) n signed (loadDest a) ldD (popOf b)))) s0

/-- A store of the low `n` bytes of an operand at s[b] + offset (R93, R94). Where the data operand traps, the traps of the address count with it (R29), once the walk that
they need can be made (R262). -/
def storeForm (g : Guard) (a b : SOp) (off : Int) (n : Nat) (stD : Bool) (s0 : State) : Host.Outcome State Fault Refusal :=
  issue (memIssue (onBank s0) g [a, b] [] [] []) (fun s =>
    let at' := if (opTrap s false a).isSome then (peekOp s b).map (fun x => x + wInt off) else none
    if at'.any (fun x => accessStalls s x n) then .wait .retry else
    ranked s [a, b] [] [at'.bind (fun x => accessTrap s x n .write true)]
    (withRead s a (fun t y => withRead t b (fun t x => storeOp s t (x + wInt off) n y.toNat stD)))) s0

/-- LD of 1 byte, sign-extended (R93, R94, R97). -/
def execLdB (g : Guard) (a : SOp) (b : SOp) (off : Int) : State → Host.Outcome State Fault Refusal :=
  loadForm g a b off 1 true false

/-- LD of 1 byte, zero-extended (R93, R94, R97). -/
def execLdBu (g : Guard) (a : SOp) (b : SOp) (off : Int) : State → Host.Outcome State Fault Refusal :=
  loadForm g a b off 1 false false

/-- LD of 2 bytes, sign-extended (R93, R94, R97). -/
def execLdH (g : Guard) (a : SOp) (b : SOp) (off : Int) : State → Host.Outcome State Fault Refusal :=
  loadForm g a b off 2 true false

/-- LD of 2 bytes, zero-extended (R93, R94, R97). -/
def execLdHu (g : Guard) (a : SOp) (b : SOp) (off : Int) : State → Host.Outcome State Fault Refusal :=
  loadForm g a b off 2 false false

/-- LD of 4 bytes, sign-extended (R93, R94, R97). -/
def execLdW (g : Guard) (a : SOp) (b : SOp) (off : Int) : State → Host.Outcome State Fault Refusal :=
  loadForm g a b off 4 true false

/-- LD of 4 bytes, zero-extended (R93, R94, R97). -/
def execLdWu (g : Guard) (a : SOp) (b : SOp) (off : Int) : State → Host.Outcome State Fault Refusal :=
  loadForm g a b off 4 false false

/-- LD of 8 bytes, zero-extended (R93, R94, R97). -/
def execLdD (g : Guard) (a : SOp) (b : SOp) (off : Int) : State → Host.Outcome State Fault Refusal :=
  loadForm g a b off 8 false true

/-- ST of 1 byte (R93, R94, R97). -/
def execStB (g : Guard) (a : SOp) (b : SOp) (off : Int) : State → Host.Outcome State Fault Refusal :=
  storeForm g a b off 1 false

/-- ST of 2 bytes (R93, R94, R97). -/
def execStH (g : Guard) (a : SOp) (b : SOp) (off : Int) : State → Host.Outcome State Fault Refusal :=
  storeForm g a b off 2 false

/-- ST of 4 bytes (R93, R94, R97). -/
def execStW (g : Guard) (a : SOp) (b : SOp) (off : Int) : State → Host.Outcome State Fault Refusal :=
  storeForm g a b off 4 false

/-- ST of 8 bytes (R93, R94, R97). -/
def execStD (g : Guard) (a : SOp) (b : SOp) (off : Int) : State → Host.Outcome State Fault Refusal :=
  storeForm g a b off 8 true

/-- LDQ: 16 bytes into an even pair (R95). -/
def execLdq (g : Guard) (a : SReg) (b : SOp) (off : Int) (s0 : State) : Host.Outcome State Fault Refusal :=
  issue (memIssue (onBank s0) g [b] [] [] [a.val, a.val + 1]) (fun s => withRead s b (fun t x =>
    loadOp s t (x + wInt off) 16 false (.pair a.val) false (popOf b))) s0

/-- STQ: an even pair as 16 bytes (R95). -/
def execStq (g : Guard) (a : SReg) (b : SOp) (off : Int) (s0 : State) : Host.Outcome State Fault Refusal :=
  issue (memIssue (onBank s0) g [b] [] [a.val, a.val + 1] []) (fun s => withRead s b (fun t x =>
    storeOp s t (x + wInt off) 16 ((sreg t a.val).toNat + (sreg t (a.val + 1)).toNat * 2 ^ 64) false)) s0

end Sys2Proof.Machine
end

