-- ==== Sys2Proof/Machine/Vector.lean ====
section
/-! DEFINITION. Page 2: two-dimensional vector instructions. -/

namespace Sys2Proof.Machine

/-! ### Shapes and elements (R130 to R133) -/

/-- VSH.ESZ (R20). -/
def eszOf (s : State) : Nat := wbits s.me.vsh 1 0

/-- Element size in bytes (R130). -/
def esOf (s : State) : Nat := 2 ^ eszOf s

/-- Rows (R130). -/
def rowsOf (s : State) : Nat := 2 ^ wbits s.me.vsh 7 4

/-- Columns (R130). -/
def colsOf (s : State) : Nat := 1024 / (rowsOf s * esOf s)

/-- The elements of a register, by linear index (R130). -/
def elems (es : Nat) (v : VWord) : List Nat :=
  (upto 0 (1024 / es)).map (fun k => v.toNat / 2 ^ (8 * es * k) % 2 ^ (8 * es))

/-- A register of elements; bytes beyond the list are zero. -/
def ofElems (es : Nat) (l : List Nat) : VWord :=
  BitVec.ofNat 8192 (l.foldr (fun x acc => x % 2 ^ (8 * es) + 2 ^ (8 * es) * acc) 0)

/-- A list cut into pieces of `n`. -/
def chunksOf (n : Nat) : Nat → List Nat → List (List Nat)
  | 0, _ => []
  | k + 1, l => l.take n :: chunksOf n k (l.drop n)

/-- The elements of each row. -/
def rowLists (s : State) (v : VWord) : List (List Nat) := chunksOf (colsOf s) (rowsOf s) (elems (esOf s) v)

/-- The elements of each column, in row order. -/
def colLists (s : State) (v : VWord) : List (List Nat) :=
  (upto 0 (colsOf s)).map (fun j => (rowLists s v).map (fun r => r.getD j 0))

/-- The float format of the elements (R132), or none for a shape mismatch. -/
def floatFmt (s : State) : Option Fmt :=
  match eszOf s with
  | 1 => some .bf16
  | 2 => some .f32
  | _ => none

/-- The issue of a page-2 instruction (R14, R133, R397). -/
def vecIssue (g : Guard) (rd wr vregs : List Nat) : Issue :=
  { g, rd, wr, vregs, noTok := [], handler := true, bank := .ret, begins := [] }

/-- `v[a] element k := f v[b]k v[c]k v[a]k` over integers (R138): `f` takes the width in bits. -/
def vecInt (g : Guard) (a b c : VReg) (f : Nat → Nat → Nat → Nat → Nat) : State → Host.Outcome State Fault Refusal :=
  issue (vecIssue g [] [] [a.val, b.val, c.val]) (fun s =>
    let es := esOf s
    .done (setVreg s a.val (ofElems es (((elems es (vreg s b.val)).zip ((elems es (vreg s c.val)).zip (elems es (vreg s a.val)))).map
      (fun (x : Nat × Nat × Nat) => f (8 * es) x.1 x.2.1 x.2.2)))))

/-- `v[a] element k := f v[b]k` over integers (R140). -/
def vecInt1 (g : Guard) (a b : VReg) (f : Nat → Nat → Nat) : State → Host.Outcome State Fault Refusal :=
  issue (vecIssue g [] [] [a.val, b.val]) (fun s =>
    let es := esOf s
    .done (setVreg s a.val (ofElems es ((elems es (vreg s b.val)).map (f (8 * es))))))

/-- `v[a] element k := f v[b]k v[c]k v[a]k` over floats (R141, R142). -/
def vecFloat (g : Guard) (a b c : VReg) (f : State → Fmt → Nat → Nat → Nat → Nat) : State → Host.Outcome State Fault Refusal :=
  issue (vecIssue g [] [] [a.val, b.val, c.val]) (fun s =>
    match floatFmt s with
    | none => .trap .illegal s.words
    | some fm =>
      let es := esOf s
      .done (setVreg s a.val (ofElems es (((elems es (vreg s b.val)).zip ((elems es (vreg s c.val)).zip (elems es (vreg s a.val)))).map
        (fun (x : Nat × Nat × Nat) => f s fm x.1 x.2.1 x.2.2)))))

/-- `v[a] element k := f v[b]k` over floats (R142, R151). -/
def vecFloat1 (g : Guard) (a b : VReg) (f : State → Fmt → Nat → Nat) : State → Host.Outcome State Fault Refusal :=
  issue (vecIssue g [] [] [a.val, b.val]) (fun s =>
    match floatFmt s with
    | none => .trap .illegal s.words
    | some fm =>
      let es := esOf s
      .done (setVreg s a.val (ofElems es ((elems es (vreg s b.val)).map (f s fm)))))

/-- An integer condition on elements of `n` bits (R139). -/
def condN (k : Cond) (n x y : Nat) : Bool := condHolds k (BitVec.ofNat n x) (BitVec.ofNat n y)

/-- The carry-less product of elements (R138). -/
def clmulN (n x y : Nat) : Nat := clmulBits x y n % 2 ^ n

/-! ### Integer class -/

/-- VADD (R138). -/
def execVAdd (g : Guard) (a : VReg) (b : VReg) (c : VReg) : State → Host.Outcome State Fault Refusal :=
  vecInt g a b c (fun _ x y _ => x + y)

/-- VSUB (R138). -/
def execVSub (g : Guard) (a : VReg) (b : VReg) (c : VReg) : State → Host.Outcome State Fault Refusal :=
  vecInt g a b c (fun n x y _ => x + 2 ^ n - y)

/-- VMUL (R138). -/
def execVMul (g : Guard) (a : VReg) (b : VReg) (c : VReg) : State → Host.Outcome State Fault Refusal :=
  vecInt g a b c (fun _ x y _ => x * y)

/-- VMIN, signed (R138). -/
def execVMin (g : Guard) (a : VReg) (b : VReg) (c : VReg) : State → Host.Outcome State Fault Refusal :=
  vecInt g a b c (fun n x y _ => if sextN n x < sextN n y then x else y)

/-- VMAX, signed (R138). -/
def execVMax (g : Guard) (a : VReg) (b : VReg) (c : VReg) : State → Host.Outcome State Fault Refusal :=
  vecInt g a b c (fun n x y _ => if sextN n x < sextN n y then y else x)

/-- VAND (R138). -/
def execVAnd (g : Guard) (a : VReg) (b : VReg) (c : VReg) : State → Host.Outcome State Fault Refusal :=
  vecInt g a b c (fun _ x y _ => x &&& y)

/-- VOR (R138). -/
def execVOr (g : Guard) (a : VReg) (b : VReg) (c : VReg) : State → Host.Outcome State Fault Refusal :=
  vecInt g a b c (fun _ x y _ => x ||| y)

/-- VXOR (R138). -/
def execVXor (g : Guard) (a : VReg) (b : VReg) (c : VReg) : State → Host.Outcome State Fault Refusal :=
  vecInt g a b c (fun _ x y _ => x ^^^ y)

/-- VSHL by the low log2 n bits (R138). -/
def execVShl (g : Guard) (a : VReg) (b : VReg) (c : VReg) : State → Host.Outcome State Fault Refusal :=
  vecInt g a b c (fun n x y _ => x * 2 ^ (y % n))

/-- VSHR by the low log2 n bits (R138). -/
def execVShr (g : Guard) (a : VReg) (b : VReg) (c : VReg) : State → Host.Outcome State Fault Refusal :=
  vecInt g a b c (fun n x y _ => x / 2 ^ (y % n))

/-- VCLMUL (R138). -/
def execVClmul (g : Guard) (a : VReg) (b : VReg) (c : VReg) : State → Host.Outcome State Fault Refusal :=
  vecInt g a b c (fun n x y _ => clmulN n x y)

/-- VFMA (R138). -/
def execVFma (g : Guard) (a : VReg) (b : VReg) (c : VReg) : State → Host.Outcome State Fault Refusal :=
  vecInt g a b c (fun _ x y z => x * y + z)

/-- VCMP: all ones or zero (R139). -/
def execVCmp (g : Guard) (a : VReg) (b : VReg) (c : VReg) (k : Cond) : State → Host.Outcome State Fault Refusal :=
  vecInt g a b c (fun n x y _ => if condN k n x y then 2 ^ n - 1 else 0)

/-- VSEL: the mask is the destination (R139). -/
def execVSel (g : Guard) (a : VReg) (b : VReg) (c : VReg) : State → Host.Outcome State Fault Refusal :=
  vecInt g a b c (fun _ x y z => if z = 0 then y else x)

/-- VABS (R140). -/
def execVAbs (g : Guard) (a : VReg) (b : VReg) : State → Host.Outcome State Fault Refusal :=
  vecInt1 g a b (fun n x => (sextN n x).natAbs)

/-- VNEG (R140). -/
def execVNeg (g : Guard) (a : VReg) (b : VReg) : State → Host.Outcome State Fault Refusal :=
  vecInt1 g a b (fun n x => 2 ^ n - x)

/-- VPOPC (R140). -/
def execVPopc (g : Guard) (a : VReg) (b : VReg) : State → Host.Outcome State Fault Refusal :=
  vecInt1 g a b (fun n x => popcount n x)

/-! ### Floating class -/

/-- VADD.f (R142). -/
def execVAddF (g : Guard) (a : VReg) (b : VReg) (c : VReg) : State → Host.Outcome State Fault Refusal :=
  vecFloat g a b c (fun s m x y _ => addCode m (rndMode s.me.rnd) (rndSat s.me.rnd) x y)

/-- VSUB.f (R142). -/
def execVSubF (g : Guard) (a : VReg) (b : VReg) (c : VReg) : State → Host.Outcome State Fault Refusal :=
  vecFloat g a b c (fun s m x y _ => subCode m (rndMode s.me.rnd) (rndSat s.me.rnd) x y)

/-- VMUL.f (R142). -/
def execVMulF (g : Guard) (a : VReg) (b : VReg) (c : VReg) : State → Host.Outcome State Fault Refusal :=
  vecFloat g a b c (fun s m x y _ => mulCode m (rndMode s.me.rnd) (rndSat s.me.rnd) x y)

/-- VFMA.f (R142). -/
def execVFmaF (g : Guard) (a : VReg) (b : VReg) (c : VReg) : State → Host.Outcome State Fault Refusal :=
  vecFloat g a b c (fun s m x y z => fmaCode m (rndMode s.me.rnd) (rndSat s.me.rnd) x y z)

/-- VMIN.f (R106, R142). -/
def execVMinF (g : Guard) (a : VReg) (b : VReg) (c : VReg) : State → Host.Outcome State Fault Refusal :=
  vecFloat g a b c (fun _ m x y _ => minMaxCode m false x y)

/-- VMAX.f (R106, R142). -/
def execVMaxF (g : Guard) (a : VReg) (b : VReg) (c : VReg) : State → Host.Outcome State Fault Refusal :=
  vecFloat g a b c (fun _ m x y _ => minMaxCode m true x y)

/-- VCMP.f (R143). -/
def execVCmpF (g : Guard) (a : VReg) (b : VReg) (c : VReg) (k : FCond) : State → Host.Outcome State Fault Refusal :=
  vecFloat g a b c (fun _ m x y _ => if fcondHolds k (decodeNum m x) (decodeNum m y) then 2 ^ (magW m + 1) - 1 else 0)

/-- VABS.f (R142). -/
def execVAbsF (g : Guard) (a : VReg) (b : VReg) : State → Host.Outcome State Fault Refusal :=
  vecFloat1 g a b (fun _ m x => if isNan (decodeNum m x) then nanCode m else x % 2 ^ magW m)

/-- VNEG.f (R142). -/
def execVNegF (g : Guard) (a : VReg) (b : VReg) : State → Host.Outcome State Fault Refusal :=
  vecFloat1 g a b (fun _ m x => if isNan (decodeNum m x) then nanCode m else x ^^^ 2 ^ magW m)

/-! ### Special functions (R151, R152): values to more than 120 bits, then one rounding -/

/-- ln 2 in units of 2^-256. -/
def ln2Fix : Nat := 80260960185991308862233904206310070533990667611589946606122867505419956976171

/-- log2 e in units of 2^-256. -/
def log2eFix : Nat := 167052672916848388242985626561247531987276682633131050150846402744536260568207

/-- The series of e^t after its first term, in units of 2^-256: `t` below 1, term number `k`. -/
def expTail (t : Nat) : Nat → Nat → Nat → Nat
  | 0, _, _ => 0
  | n + 1, k, term => let u := term * t / 2 ^ 256 / k; u + expTail t n (k + 1) u

/-- 2^f of a fraction f in units of 2^-256, in the same units. -/
def exp2Frac (f : Nat) : Nat := 2 ^ 256 + expTail (f * ln2Fix / 2 ^ 256) 60 1 (2 ^ 256)

/-- 2^y of y in units of 2^-256, as an exact value near it: the integer part is kept within what any format rounds alike. -/
def exp2Fix (y : Int) : Num :=
  let n := clampInt (-600) 600 (y / 2 ^ 256)
  let e := exp2Frac (y % 2 ^ 256).toNat
  if n < 256 then .fin false e (2 ^ (256 - n).toNat) else .fin false (e * 2 ^ (n - 256).toNat) 1

/-- Binary digits of log2 of m, in [1, 2) in units of 2^-300: `k` digits. -/
def logDigits : Nat → Nat → Nat
  | 0, _ => 0
  | k + 1, m =>
    let q := m * m / 2 ^ 300
    if 2 ^ 301 ≤ q then 2 ^ k + logDigits k (q / 2) else logDigits k q

/-- log2 of a positive magnitude, to 190 binary places. -/
def log2Num (n d : Nat) : Num :=
  let e := log2Q n d
  let m := if e < 0 then n * 2 ^ (300 + e.natAbs) / d else n * 2 ^ 300 / (d * 2 ^ e.toNat)
  let v : Int := e * 2 ^ 190 + (logDigits 190 m : Nat)
  .fin (decide (v < 0)) v.natAbs (2 ^ 190)

/-- The integer square root, from the top bit down. -/
def isqrt (x : Nat) : Nat := searchBits (fun r => decide (r * r ≤ x)) (Nat.log2 x / 2 + 1) 0

/-- 1 / √x of a positive magnitude, with a sticky bit below its digits. -/
def rsqNum (n d : Nat) : Num :=
  let y := d * 2 ^ 400 / n
  let r := isqrt y
  .fin false (2 * r + b2n (r * r * n != d * 2 ^ 400)) (2 ^ 201)

/-- tanh of a finite value: itself where it is below 2^-12, one where it is 16 or more, else from e^(2x). -/
def tanhNum (neg : Bool) (n d : Nat) : Num :=
  if n * 2 ^ 12 < d then .fin neg n d
  else if 16 * d ≤ n then .fin neg (2 ^ 60 - 1) (2 ^ 60)
  else match exp2Fix ((2 * n * log2eFix / d : Nat) : Int) with
    | .fin _ a b => .fin neg (a - b) (a + b)
    | x => x

/-- A special function on an FP32 code, rounded to nearest even with RND.SAT (R151, R152). -/
def special (f : Num → Num) (sat : Bool) (x : Nat) : Nat :=
  roundTo .f32 0 sat (f (decodeNum .f32 x))

/-- 2^x (R151, R152). DEDUCED: log entry 29. -/
def exp2Of : Num → Num
  | .nan => .nan
  | .inf true => .fin false 0 1
  | .inf false => .inf false
  | .fin neg n d =>
    if 2 ^ 12 * d ≤ n then exp2Fix (if neg then -(600 * 2 ^ 256) else 600 * 2 ^ 256)
    else if n % d = 0 then
      let k := n / d
      if neg then .fin false 1 (2 ^ k) else .fin false (2 ^ k) 1
    else exp2Fix (signed neg (n * 2 ^ 256 / d))

/-- log2 x (R151, R152). DEDUCED: log entry 29. -/
def log2Of : Num → Num
  | .nan => .nan
  | .inf neg => if neg then .nan else .inf false
  | .fin neg n d => if n = 0 then .inf true else if neg then .nan else log2Num n d

/-- 1 / x (R151, R152). -/
def rcpOf : Num → Num
  | .nan => .nan
  | .inf neg => .fin neg 0 1
  | .fin neg n d => if n = 0 then .inf neg else .fin neg d n

/-- 1 / √x (R151, R152). -/
def rsqOf : Num → Num
  | .nan => .nan
  | .inf neg => if neg then .nan else .fin false 0 1
  | .fin neg n d => if n = 0 then .inf neg else if neg then .nan else rsqNum n d

/-- tanh x (R151, R152). -/
def tanhOf : Num → Num
  | .nan => .nan
  | .inf neg => .fin neg 1 1
  | .fin neg n d => tanhNum neg n d

/-- A special function on elements (R151): BF16 goes through the FP32 result. -/
def vecSpecial (g : Guard) (a b : VReg) (f : Num → Num) : State → Host.Outcome State Fault Refusal :=
  vecFloat1 g a b (fun s m x =>
    match m with
    | .bf16 => convCode .f32 .bf16 (rndMode s.me.rnd) (rndSat s.me.rnd) (special f (rndSat s.me.rnd) (x * 2 ^ 16))
    | _ => special f (rndSat s.me.rnd) x)

/-- VEXP2 (R151, R152). -/
def execVExp2 (g : Guard) (a : VReg) (b : VReg) : State → Host.Outcome State Fault Refusal :=
  vecSpecial g a b exp2Of

/-- VLOG2 (R151, R152). -/
def execVLog2 (g : Guard) (a : VReg) (b : VReg) : State → Host.Outcome State Fault Refusal :=
  vecSpecial g a b log2Of

/-- VRCP (R151, R152). -/
def execVRcp (g : Guard) (a : VReg) (b : VReg) : State → Host.Outcome State Fault Refusal :=
  vecSpecial g a b rcpOf

/-- VRSQ (R151, R152). -/
def execVRsq (g : Guard) (a : VReg) (b : VReg) : State → Host.Outcome State Fault Refusal :=
  vecSpecial g a b rsqOf

/-- VTANH (R151, R152). -/
def execVTanh (g : Guard) (a : VReg) (b : VReg) : State → Host.Outcome State Fault Refusal :=
  vecSpecial g a b tanhOf

/-! ### Structure class -/

/-- VSHAPE (R134): a shape R131 forbids raises ILLEGAL. -/
def execVShape (g : Guard) (lrows : Fin 16) (esz : Fin 4) : State → Host.Outcome State Fault Refusal :=
  issue (vecIssue g [] [] []) (fun s => if 10 < lrows.val + esz.val then .trap .illegal s.words else .done (updMe s (fun t => { t with vsh := w64 (lrows.val * 16 + esz.val) })))

/-- The addresses of the elements, by linear index (R135). -/
def vecAddrs (s : State) (base stride : Word) : List Word :=
  (upto 0 (rowsOf s * colsOf s)).map (fun k => base + w64 (k / colsOf s) * stride + w64 (k % colsOf s * esOf s))

/-- The key an element's access reaches, once checked (R25, R26, R93, R183): no device window is open to a vector access. -/
def vecKey (s : State) (a : Word) (n : Nat) (need : Need) : Except (Cause × Word) Nat :=
  match placeOf s a n need false with
  | .error e => .error e
  | .ok (.spad o) => .ok (spadKey s.me.core o)
  | .ok (.mem pa) => .ok pa
  | .ok (.remote _ _) => .error (.xlate, a)
  | .ok .dev => .error (if need == .write then storeOther s.me.did a else devOther s.me.did a)

/-- The keys of all elements, or their trap (R135): of all causes the first of R29, of the first element that fails with it. -/
def vecKeys (s : State) (n : Nat) (need : Need) (l : List Word) : Except (Cause × Word) (List (Word × Nat)) :=
  match firstTrap (l.map (fun a => chkE (vecKey s a n need))) with
  | some e => .error e
  | none => .ok (l.filterMap (fun a => match vecKey s a n need with
    | .ok k => some (a, k)
    | .error _ => none))

/-- The checks of VLD and VST in order (R29, R135, R420): a window of DID 0, the alignment of every row, then every element. -/
def vecCheck (s : State) (base stride : Word) (need : Need) : Except (Cause × Word) (List (Word × Nat)) :=
  let l := vecAddrs s base stride
  match l.find? (privAccess s), l.find? (fun a => a.toNat % esOf s != 0) with
  | some a, _ => .error (.priv, a)
  | none, some a => .error (.misalign, a)
  | none, none => vecKeys s (esOf s) need l

/-- A walk that an element needs stalls in a maintenance interval (R262). -/
def vecStalls (s : State) (base stride : Word) : Bool := inInterval s.gtc && (vecAddrs s base stride).any (stalls s)

/-- The next element of the strand's VLD is read (R136, R266, R267): none while it must wait; `hit` serves scratchpad and leased copies only. DEDUCED: log entry 25. -/
def vloadElem (s : State) (l : VLoad) (hit : Bool) : Except (Cause × Word) (Option (State × VLoad)) :=
  match l.todo with
  | [] => .ok none
  | (va, k) :: rest =>
    let take (s : State) (v tl : Nat) (crept : Bool) : Except (Cause × Word) (Option (State × VLoad)) :=
      .ok (some (updMe s (fun t => { t with tck := tl }), { l with todo := rest, got := v :: l.got, crept := l.crept || crept }))
    if isUnit k then
      if spadWaits s s.me.core (k % 2 ^ 18) l.n s.me.did l.id then .ok none
      else if poisonedAt s k l.n then .error (.poison, va)
      else take s (memVal s.mem k l.n) s.me.tck false
    else if isFar k then
      if hit || !lineClear s (k / 64) || (isPeer k && inMajor s.gtc) then .ok none
      else if poisonedAt s k l.n then .error (.poison, va)
      else
        let v := overlayOwn s.me k l.n (memVal s.mem k l.n)
        let s := sendMsg s va k (.load l.n)
        if isHost k then take s v s.me.tck false
        else match peerFault s with
          | (_, some c) => .error (c, va)
          | (s, none) =>
            let (s, w, _) := lease s (k / 64) (s.me.tck + 1) s.me.did
            take s v (max (s.me.tck + 1) w) false
    else
      let s := tlbKeep s (holderOf s.me) s.me.did va.toNat
      match (l1Find s s.me.core s.me.did (k / 64)).filter (fun cp => decide (s.me.tck ≤ cp.rts)) with
      | some cp => take s (overlayOwn s.me k l.n (leVal ((cp.data.drop (k % 64)).take l.n))) (max s.me.tck cp.wts) true
      | none =>
        if hit || !homeReady s (k / 64) then .ok none
        else if poisonedAt s k l.n then .error (.poison, va)
        else
          let (s, data, w) := fetchCopy s k
          take s (overlayOwn s.me k l.n (leVal ((data.drop (k % 64)).take l.n))) (max s.me.tck w) true

/-- Elements are read for as long as they hit (R266). DEDUCED: log entry 25. -/
def vloadRun : Nat → State → VLoad → Except (Cause × Word) (State × VLoad)
  | 0, s, l => .ok (s, l)
  | n + 1, s, l => match vloadElem s l true with
    | .error e => .error e
    | .ok none => .ok (s, l)
    | .ok (some (s, l)) => vloadRun n s l

/-- The register written and the clock crept once every element is read (R136, R266). -/
def vloadWrite (s : State) (l : VLoad) : State :=
  setVreg (updMe s (fun t => { t with tck := t.tck + b2n l.crept, vload := none })) l.reg (ofElems l.n l.got.reverse)

/-- An outstanding VLD of the strand in turn goes on by one element at its home, and by those that hit (R136). -/
def vloadArrive (s : State) : State :=
  match s.me.vload with
  | none => s
  | some l =>
    let fail (e : Cause × Word) : State := takeTrap (updMe { s with fresh := s.fresh + 1 } (fun t => { t with vload := none, tck := l.clock })) s.me.pc e.1 false e.2
    match vloadElem s l false with
    | .error e => fail e
    | .ok none => s
    | .ok (some (s1, l1)) => match vloadRun l1.todo.length s1 l1 with
      | .error e => fail e
      | .ok (s2, l2) => if l2.todo.isEmpty then retireTo (vloadWrite s2 l2) l2.next else updMe s2 (fun t => { t with vload := some l2 })

/-- VLD (R135, R136): every check before any element; elements in ascending linear index. -/
def execVLd (g : Guard) (a : VReg) (b : SReg) (c : SReg) : State → Host.Outcome State Fault Refusal :=
  issue { vecIssue g [b.val, c.val] [] [a.val] with begins := [.core] } (fun s =>
    if vecStalls s (sreg s b.val) (sreg s c.val) then .wait .retry else
    match vecCheck s (sreg s b.val) (sreg s c.val) .read with
    | .error (e, v) => .trap e v
    | .ok l =>
      match vloadRun l.length s ⟨a.val, esOf s, s.nextPc, l, [], false, s.me.tck, s.nextId⟩ with
      | .error (e, v) => .trap e v
      | .ok (s, l) => if l.todo.isEmpty then .done (vloadWrite s l) else .hold (updMe s (fun t => { t with wait := .load, vload := some l })))

/-- The elements of a VST go on their way in ascending linear index (R135, R136, R268, R317). -/
def vstoreAll (n : Nat) : State → List (Word × Nat) → List Nat → State
  | s, (va, k) :: l, x :: xs =>
    let s := if isUnit k then { s with mem := memPut s.mem k (leBytes n x) }
      else sendMsgAt (patchWindows (post (tlbKeep s (holderOf s.me) s.me.did va.toNat) .store k n x (heldBy s va.toNat n) false) k n x) (max s.me.tck s.me.sf) va k
        (postAsk .store n x)
    vstoreAll n s l xs
  | s, _, _ => s

/-- VST (R135, R136): every check before any byte is written. -/
def execVSt (g : Guard) (a : VReg) (b : SReg) (c : SReg) : State → Host.Outcome State Fault Refusal :=
  issue { vecIssue g [b.val, c.val] [] [a.val] with begins := [.core] } (fun s =>
    if vecStalls s (sreg s b.val) (sreg s c.val) then .wait .retry else
    match vecCheck s (sreg s b.val) (sreg s c.val) .write with
    | .error (e, v) => .trap e v
    | .ok l =>
      if l.any (fun x => isUnit x.2 && spadBusy s s.me.core (x.2 % 2 ^ 18) (esOf s) s.me.did)
          || heldOver s ((l.filter (fun x => !isUnit x.2)).map (fun x => heldBy s x.1.toNat (esOf s))) then .wait .retry
      else .done (vstoreAll (esOf s) s l (elems (esOf s) (vreg s a.val))))

/-- VBCAST (R137). -/
def execVBcast (g : Guard) (a : VReg) (b : SReg) : State → Host.Outcome State Fault Refusal :=
  issue (vecIssue g [b.val] [] [a.val]) (fun s => .done (setVreg s a.val (ofElems (esOf s) (List.replicate (1024 / esOf s) (sreg s b.val).toNat))))

/-- VMOVX to a scalar register, zero-extended (R137). -/
def execVMovxToScalar (g : Guard) (a : SReg) (b : VReg) (c : SReg) : State → Host.Outcome State Fault Refusal :=
  issue (vecIssue g [c.val] [a.val] [b.val]) (fun s => .done (setSreg s a.val (w64 ((elems (esOf s) (vreg s b.val)).getD ((sreg s c.val).toNat % (rowsOf s * colsOf s)) 0))))

/-- VMOVX to an element (R137). -/
def execVMovxToElement (g : Guard) (a : VReg) (b : SReg) (c : SReg) : State → Host.Outcome State Fault Refusal :=
  issue (vecIssue g [b.val, c.val] [] [a.val]) (fun s => .done (setVreg s a.val (ofElems (esOf s) ((elems (esOf s) (vreg s a.val)).set ((sreg s c.val).toNat % (rowsOf s * colsOf s)) (sreg s b.val).toNat))))

/-- VTRN (R148). -/
def execVTrn (g : Guard) (a : VReg) (b : VReg) : State → Host.Outcome State Fault Refusal :=
  issue (vecIssue g [] [] [a.val, b.val]) (fun s => .done (setVreg s a.val (ofElems (esOf s) (colLists s (vreg s b.val)).flatten)))

/-- Bytes of an unpacked element of a VCVT format (R144); T6 is one byte (R110). -/
def vfmtSize : VFmt → Nat
  | .bf16 => 2 | .e4m3 => 1 | .t8 => 1 | .i8 => 1 | .t6 => 1 | .f32 => 4 | .i32 => 4

/-- An element decoded exactly (R123). -/
def vfmtIn (f : VFmt) (x : Nat) : Num :=
  match f with
  | .bf16 => decodeNum .bf16 x | .e4m3 => decodeNum .e4m3 x | .t8 => decodeNum .t8 x | .t6 => decodeNum .t6 (x % 64) | .f32 => decodeNum .f32 x
  | .i8 => ofInt (sextN 8 x) | .i32 => ofInt (sextN 32 x)

/-- A value rounded into a VCVT format (R121 to R123). -/
def vfmtOut (f : VFmt) (rnd : Word) (x : Num) : Nat :=
  match f with
  | .bf16 => roundRnd .bf16 rnd x | .e4m3 => roundRnd .e4m3 rnd x | .t8 => roundRnd .t8 rnd x | .t6 => roundRnd .t6 rnd x | .f32 => roundRnd .f32 rnd x
  | .i8 => (toInt (rndMode rnd) (-128) 127 x % 256).toNat
  | .i32 => (toInt (rndMode rnd) (-(2 ^ 31)) (2 ^ 31 - 1) x % 2 ^ 32).toNat

/-- VCVT (R144). -/
def execVCvt (g : Guard) (dst : VFmt) (src : VFmt) (a : VReg) (b : VReg) : State → Host.Outcome State Fault Refusal :=
  issue (vecIssue g [] [] [a.val, b.val]) (fun s =>
    let n := 1024 / max (vfmtSize src) (vfmtSize dst)
    .done (setVreg s a.val (ofElems (vfmtSize dst) (((elems (vfmtSize src) (vreg s b.val)).take n).map (fun x => vfmtOut dst s.me.rnd (vfmtIn src x))))))

/-- The operation of a reduction or scan (R145): none for a shape mismatch (R133). -/
def redOpOf (s : State) (op : RedOp) : Option (Nat → Nat → Nat) :=
  let n := 8 * esOf s
  match op with
  | .add => some (fun x y => (x + y) % 2 ^ n)
  | .fadd => (floatFmt s).map (fun f => addCode f (rndMode s.me.rnd) (rndSat s.me.rnd))
  | .min => some (fun x y => if sextN n y < sextN n x then y else x)
  | .max => some (fun x y => if sextN n x < sextN n y then y else x)
  | .minu => some min
  | .maxu => some max
  | .fmin => (floatFmt s).map (fun f => minMaxCode f false)
  | .fmax => (floatFmt s).map (fun f => minMaxCode f true)
  | .xor => some (fun x y => x ^^^ y)

/-- Neighbours combined in pairs. -/
def pairUp (f : Nat → Nat → Nat) : List Nat → List Nat
  | x :: y :: l => f x y :: pairUp f l
  | l => l

/-- The fixed tree of R146, at most 10 levels deep. -/
def treeRed (f : Nat → Nat → Nat) : Nat → List Nat → Nat
  | 0, l => l.headD 0
  | n + 1, l => match l with
    | [] => 0
    | [x] => x
    | l => treeRed f n (pairUp f l)

/-- The inclusive scan of a row (R147). -/
def scanRow (f : Nat → Nat → Nat) : Nat → List Nat → List Nat
  | _, [] => []
  | acc, x :: l => let y := f acc x; y :: scanRow f y l

/-- A reduction or scan: `k` gives the elements of the result. -/
def vecRed (g : Guard) (op : RedOp) (a b : VReg) (k : State → (Nat → Nat → Nat) → VWord → List Nat) : State → Host.Outcome State Fault Refusal :=
  issue (vecIssue g [] [] [a.val, b.val]) (fun s => match redOpOf s op with
    | none => .trap .illegal s.words
    | some f => .done (setVreg s a.val (ofElems (esOf s) (k s f (vreg s b.val)))))

/-- VREDR: row i to element (i, 0), zero elsewhere (R145, R146). -/
def execVRedr (g : Guard) (op : RedOp) (a : VReg) (b : VReg) : State → Host.Outcome State Fault Refusal :=
  vecRed g op a b (fun s f v => (rowLists s v).flatMap (fun r => treeRed f 10 r :: List.replicate (colsOf s - 1) 0))

/-- VREDC: column j to element (0, j), zero elsewhere (R145, R146). -/
def execVRedc (g : Guard) (op : RedOp) (a : VReg) (b : VReg) : State → Host.Outcome State Fault Refusal :=
  vecRed g op a b (fun s f v => (colLists s v).map (treeRed f 10))

/-- VSCAN along each row (R147). -/
def execVScan (g : Guard) (op : RedOp) (a : VReg) (b : VReg) : State → Host.Outcome State Fault Refusal :=
  vecRed g op a b (fun s f v => (rowLists s v).flatMap (fun r => match r with
    | [] => []
    | x :: l => x :: scanRow f x l))

/-- VPERM (R149). -/
def execVPerm (g : Guard) (a : VReg) (b : VReg) (c : VReg) : State → Host.Outcome State Fault Refusal :=
  issue (vecIssue g [] [] [a.val, b.val, c.val]) (fun s =>
    let es := esOf s
    let v := (vreg s b.val).toNat
    .done (setVreg s a.val (ofElems es ((elems es (vreg s c.val)).map (fun i => v / 2 ^ (8 * es * (i % (1024 / es))) % 2 ^ (8 * es))))))

/-- VMASKB (R150): VSH plays no part. -/
def execVMaskb (g : Guard) (a : SReg) (b : VReg) (c : SReg) (row : Fin 16) : State → Host.Outcome State Fault Refusal :=
  issue (vecIssue g [c.val] [a.val] [b.val]) (fun s =>
    let t := (sreg s c.val).toNat % 256
    let v := (vreg s b.val).toNat / 2 ^ (512 * row.val)
    .done (setSreg s a.val (w64 ((upto 0 64).foldr (fun j acc => b2n (v / 2 ^ (8 * j) % 256 == t) * 2 ^ j + acc) 0))))

end Sys2Proof.Machine
end

