-- ==== Sys2Proof/Machine/Transit.lean ====
section
/-! DEFINITION. The events that complete what strands have sent and wait for: loads, posted writes, prefetches, shootdowns, active
messages, migration packets, seating, dispatch, barriers, reservations and waits. -/

namespace Sys2Proof.Machine

/-! ### Loads, posted writes, prefetches, shootdowns (R97, R184, R205, R249, R251, R268, R269) -/

/-- LOAD_COMPLETION: the outstanding load of a strand, or the next elements of its VLD (R97, R136, R266). -/
def execLoadCompletion (k : Nat) : State → Host.Outcome State Fault Refusal :=
  event (fun s => asStrand s k (fun s => if s.me.load.isSome then loadArrive s else vloadArrive s))

/-- A posted write of a strand. -/
def postedOf (s : State) (k id : Nat) : Option Posted := (strandOf s k).bind (fun t => t.posted.find? (fun p => p.id == id))

/-- The write is a reduction. -/
def isRed : PostOp → Bool
  | .red _ => true
  | .store => false
  | .bari => false
  | .barx => false

/-- The write is for the scratchpad of another core: no memory of this package, and none beyond it (R454). -/
def isRemote (p : Posted) : Bool := isSpadKey p.key

/-- STORE_HOME_PERFORM: a posted store, or a posted step of BARI or BARX, is performed at its home (R213, R268). DEDUCED: log entry 66. -/
def execStoreHomePerform (k : Nat) (id : Nat) : State → Host.Outcome State Fault Refusal :=
  event (fun s => if (postedOf s k id).any (fun p => !isRed p.op && !isRemote p) then performPosted s k id else s)

/-- STORE_ACKNOWLEDGEMENT (R269). -/
def execStoreAcknowledgement (k : Nat) (id : Nat) : State → Host.Outcome State Fault Refusal :=
  event (fun s => ackPosted s k id)

/-- RED_HOME_STEP (R205). DEDUCED: log entry 66. -/
def execRedHomeStep (k : Nat) (id : Nat) : State → Host.Outcome State Fault Refusal :=
  event (fun s => if (postedOf s k id).any (fun p => isRed p.op && !isRemote p) then performPosted s k id else s)

/-- The oldest posted prefetch is performed (R242, R251): a line that is in its slice by then is skipped. -/
def prefetchFill (s : State) : State :=
  match s.prefq with
  | [] => s
  | (ln, d, _) :: rest =>
    if inL2 s ln then { s with prefq := rest }
    else if !homeReady s ln then s
    else chargeEnergy (fillL2 { s with prefq := rest } ln (some d) d) d 1

/-- PREFETCH_FILL (R251). -/
def execPrefetchFill : State → Host.Outcome State Fault Refusal := event prefetchFill

/-- SHOOTDOWN_HOLDER_DROP (R249). -/
def execShootdownHolderDrop (h : Nat) : State → Host.Outcome State Fault Refusal := event (fun s => holderDrop s h)

/-- The core whose scratchpad a key names, and the offset within it. -/
def spadPlace (key : Nat) : Nat × Nat := ((key - 2 ^ 48) / 2 ^ 18, key % 2 ^ 18)

/-- A posted write of a strand, or with `id` 0 its outstanding load, takes one turn of the handler slot of the target core (R184, R192). -/
def remoteAccess (s : State) (k id : Nat) : State :=
  if id = 0 then asStrand s k remoteArrive
  else match postedOf s k id with
    | none => s
    | some p =>
      let (c, o) := spadPlace p.key
      if isRemote p && handlerFree s c && !spadWaits s c o p.n p.did p.id then performPosted s k id else s

/-- REMOTE_SCRATCHPAD_ACCESS (R184). -/
def execRemoteScratchpadAccess (k : Nat) (id : Nat) : State → Host.Outcome State Fault Refusal := event (fun s => remoteAccess s k id)

/-! ### Active messages (R190 to R194) -/

/-- HANDLER_START (R191, R192). -/
def execHandlerStart (c : Nat) : State → Host.Outcome State Fault Refusal := event (fun s => handlerStart s c)

/-- The reply that has come back to the strand in turn (R190): its AMSG completes, or traps with the reply's cause; HANDLER_OVERRUN ends the strand (R194). -/
def takeReply (s : State) : State :=
  if !seated s.me || s.me.wait != .reply then s
  else match kget? s.me.ends (2 ^ 65) with
    | none => s
    | some v =>
      let get (i : Nat) : Nat := kget s.me.ends (2 ^ 65 + i) 0
      let s' := updMe s (fun t => { t with ends := kdel (kdel (kdel (kdel t.ends (2 ^ 65)) (2 ^ 65 + 1)) (2 ^ 65 + 2)) (2 ^ 65 + 3) })
      if get 2 = causeCode .handlerOverrun then endMe s' (some .handlerOverrun)
      else match causeOf (get 2) with
        | some c => takeTrap s' s.me.pc c false (w64 (get 3))
        | none => retireTo (raiseClock (setSreg s' s.me.wreg (w64 v)) (get 1)) s.me.wnext

/-- AMSG_REPLY (R190). -/
def execAmsgReply (k : Nat) : State → Host.Outcome State Fault Refusal := event (fun s => asStrand s k takeReply)

/-! ### Migration packets, seating and dispatch (R165 to R178, R189) -/

/-- MIGRATION_RUNQ_GRANT (R189): at a core, or at 4096 + the channel of a bank core. -/
def execMigrationRunqGrant (c : Nat) : State → Host.Outcome State Fault Refusal := event (fun s => grantEntry s c)

/-- MIGRATION_PACKET_ARRIVAL (R189). -/
def execMigrationPacketArrival (k : Nat) : State → Host.Outcome State Fault Refusal := event (fun s => packetArrive s k)

/-- SEAT_ENTRY (R178): on a core, or at 4096 + the channel of a bank core, where no strand sits in a drain window or an interval (R262). -/
def execSeatEntry (c : Nat) (d : Nat) : State → Host.Outcome State Fault Refusal := event (fun s => if 4096 ≤ c && calState s.gtc != 0 then s else seatEntry s c d)

/-- MALTSTER_DISPATCH (R170). -/
def execMaltsterDispatch (die : Nat) : State → Host.Outcome State Fault Refusal := event (fun s => dispatch s die)

/-- LAUNCH_WORD_WATCH (R165): `r` is the address of the RCB × 32 + the DID that it is read under. DESIGN CHOICE: log entry 24. -/
def execLaunchWordWatch (r : Nat) : State → Host.Outcome State Fault Refusal := event (fun s => watchLaunch s (r % 32) (w64 (r / 32)))

/-- What is done for region number `r` of those the Maltsters know. -/
def withRegion (f : State → Nat → State) (r : Nat) (s : State) : State :=
  match s.regions[r]? with
  | some x => f s x.pa
  | none => s

/-- REGION_DEPENDENCE_REREAD (R166): region number `r` of those the Maltsters know. -/
def execRegionDependenceReread (r : Nat) : State → Host.Outcome State Fault Refusal := event (withRegion rereadDeps r)

/-- PRIORITY_AGING (R171). -/
def execPriorityAging (r : Nat) : State → Host.Outcome State Fault Refusal := event (withRegion ageRegion r)

/-- LAUNCHI_COUNT_READ (R175). -/
def execLaunchiCountRead (r : Nat) : State → Host.Outcome State Fault Refusal := event (withRegion countRead r)

/-- LAUNCH_PARK_RELEASE (R173). -/
def execLaunchParkRelease (k : Nat) : State → Host.Outcome State Fault Refusal := event (fun s => parkRelease s k)

/-- GSYNC_COMPLETE (R161). -/
def execGsyncComplete (gid : Nat) : State → Host.Outcome State Fault Refusal := event (fun s => gsyncComplete s gid)

/-! ### Slots in rotation (R180, R430) -/

/-- A waiting state in which a slot in rotation gives its strand up (R180). -/
def givesSlot : Wait → Bool
  | .none => false
  | .retry => false
  | .again => false
  | .load => false
  | .reply => false
  | .grant => false
  | .mma => false
  | .gsync => true
  | .lrw => true
  | .barw => true
  | .mwait => true
  | .mbwait => true
  | .launch => true
  | .swait => true

/-- A slot in rotation changes owner: at once when it is empty, else once its waiting strand is unseated into a free save area (R430). -/
def handSlot (s : State) (c n : Nat) : State :=
  let cs := coreOf s c
  if cs.slotown.getD n 0x1F == cs.curown.getD n 0x1F then s
  else
    let pass (s : State) : State := if slotEmpty s c n then passSlot s c n else s
    match (strands s).find? (fun t => seated t && t.core == c && t.seat == .slot n) with
    | none => pass s
    | some t =>
      if givesSlot t.wait && areaFree s (homeDid t) t.region && takeReady s (homeDid t) t.did t.region then pass (asStrand s t.key (fun s => unseatMe s (t.wait != .gsync)))
      else s

/-- SLOT_ROTATION_HANDOVER (R430). -/
def execSlotRotationHandover (c : Nat) (slot : Nat) : State → Host.Outcome State Fault Refusal := event (fun s => handSlot s c slot)

/-! ### Mailboxes and waits (R198, R199, R207, R214, R217, R331) -/

/-- The oldest message held for a share takes an entry that is free (R198). -/
def deliverHeld (s : State) (c d : Nat) : State :=
  updCore s c (fun cs =>
    let q := kget cs.mbox d []
    match kget cs.held d [] with
    | [] => cs
    | m :: rest =>
      if q.length < (kget cs.doms d .reset).mbox then
        { cs with
          mbox := kset cs.mbox d (q ++ [m])
          held := if rest.isEmpty then kdel cs.held d else kset cs.held d rest }
      else cs)

/-- HELD_MESSAGE_DELIVERY (R198). -/
def execHeldMessageDelivery (c : Nat) (d : Nat) : State → Host.Outcome State Fault Refusal :=
  event (fun s => if (kget (coreOf s c).held d []).isEmpty then s else deliverHeld s c d)

/-- The strands of a DID that wait in MBWAIT on a core go on once its share has held a message since they began to wait (R199). -/
def wakeMbox (s : State) (c d : Nat) : State :=
  let full := !(kget (coreOf s c).mbox d []).isEmpty
  ((strands s).filter (fun t => seated t && t.wait == .mbwait && t.core == c && t.did == d && (full || t.wkey == 1))).foldl (fun s t => wakeStrand s t.key) s

/-- MBWAIT_WAKE (R199). -/
def execMbwaitWake (c : Nat) (d : Nat) : State → Host.Outcome State Fault Refusal := event (fun s => wakeMbox s c d)

/-- The strand in turn receives the reservation it waits for (R207); a poisoned word traps and the reservation passes on (R201). The request stands at the home of the
physical doubleword that its address named at issue: a TLBSD over the page neither waits for it nor moves it. DESIGN CHOICE: log entry 112. -/
def receiveGrant (s : State) (pa : Nat) : State :=
  if !seated s.me || s.me.wait != .lrw || s.me.wkey != pa then s
  else match takeGrant s pa s.me.wreg with
    | none => s
    | some t =>
      if poisonedAt s pa 8 then takeTrap (resvRelease s pa s.me.key 0) s.me.pc .poison false (w64 s.me.wval)
      else retireTo t s.me.wnext

/-- The key that stands for a strand of another package in the queue of a reservation: package and SID. -/
def peerStrand (pkg sid : Nat) : Nat := 2 ^ 64 + pkg * 2 ^ 32 + sid

/-- A grant leaves for a strand of another package (R207, R454), as the reply to its request; a poisoned word is answered with that cause, and the reservation passes on (R201). -/
def peerGrant (s : State) (pa : Nat) : State :=
  match (kget? s.resv pa).bind (fun q => q.holder.bind (fun k => q.grant.bind (fun g => (kget? s.peerWait k).map (fun w => (q, k, g, w))))) with
  | none => s
  | some (q, k, g, pkg, seq, era, rdid) =>
    let s := { s with peerWait := kdel s.peerWait k, resv := kset s.resv pa { q with grant := none } }
    if poisonedAt s pa 8 then sendReply (resvRelease (foundDead s pa 8 rdid) pa k 0) pkg rdid era (pa / 64) seq 0 g.2 (causeCode .poison) 0
    else sendReply s pkg rdid era (pa / 64) seq g.1 g.2 0 0

/-- RESERVATION_GRANT (R207): the reservation of a doubleword passes to a waiter where it has no holder, and the grant reaches its holder. -/
def execReservationGrant (pa : Nat) : State → Host.Outcome State Fault Refusal :=
  event (fun s => let s := grantDue s pa
    match (kget? s.resv pa).bind (fun q => q.holder) with
    | some k => if 2 ^ 64 ≤ k then peerGrant s pa else asStrand s k (fun s => receiveGrant s pa)
    | none => s)

/-- A strand that waits in BARW reads the object again once its line has been written (R214), or once its translation has changed (R249): each read is a use of its own,
which walks where the translation has been dropped, and traps where the checks of R201 no longer pass. DEDUCED: log entry 27. -/
def wakeBarw (s : State) : State :=
  if !seated s.me || s.me.wait != .barw || stalls s (w64 s.me.wva) then s
  else
    let place := stepPlace s (w64 s.me.wva) 32 .read false
    let moved : Bool := match place with
      | .ok (.mem pa) => pa != s.me.wkey
      | _ => false
    if !moved && (timesOf s (s.me.wkey / 64)).n == s.me.wn && !isHost s.me.wkey then s
    else match place with
      | .error (c, v) => takeTrap s s.me.pc c false v
      | .ok (.mem pa) =>
        if !stepReady s pa then s
        else
          let (t, ok) := lookBar (updMe (chargeStep (tlbKeep s (holderOf s.me) s.me.did s.me.wva) pa) (fun t => { t with wkey := pa })) pa s.me.wval
          if ok then retireTo t s.me.wnext else if isHost pa && !moved then s else t
      | .ok _ => s

/-- BARW_WAKE (R214). -/
def execBarwWake (k : Nat) : State → Host.Outcome State Fault Refusal := event (fun s => asStrand s k wakeBarw)

/-- A strand that waits in MWAIT goes on once its line has been written, or its monitor is cleared (R217). -/
def wakeMwait (s : State) : State :=
  if !seated s.me || s.me.wait != .mwait then s
  else if s.me.mon.isNone then retireTo s s.me.wnext
  else match monFired s with
    | some w => retireTo (updMe (raiseClock s w) (fun t => { t with mon := none })) s.me.wnext
    | none => s

/-- MWAIT_WAKE (R217). -/
def execMwaitWake (k : Nat) : State → Host.Outcome State Fault Refusal := event (fun s => asStrand s k wakeMwait)

/-- A strand that waits in SWAIT goes on once its stream has stopped (R331): with the completion time of one that is DONE, by the trap of one that has failed. What it has
been told stands, whatever becomes of the context since. DEDUCED: log entry 110. -/
def wakeSwait (s : State) : State :=
  if !seated s.me || s.me.wait != .swait then s
  else match s.me.wkey with
    | 6 => retireTo s s.me.wnext
    | 7 => retireTo (raiseClock s s.me.wtc) s.me.wnext
    | 8 => takeTrap s s.me.pc .stream false (streamVal 0 0x16)
    | _ => s

/-- SWAIT_WAKE (R331). -/
def execSwaitWake (k : Nat) : State → Host.Outcome State Fault Refusal := event (fun s => asStrand s k wakeSwait)

end Sys2Proof.Machine
end

