-- ==== Sys2Proof/Machine/Reset.lean ====
section
/-! DEFINITION. Partition reset (R436 to R439) and fatal errors (R446). -/

namespace Sys2Proof.Machine

/-- An entry of the reset record (R439). -/
structure ResetItem where
  kind   : Nat
  state  : Nat
  sid    : Nat
  addr   : Nat
  detail : Nat
  deriving DecidableEq, Repr

/-- The strand belongs to the partition: its own DID, or that of the outermost caller of the gates it is in. DEDUCED: log entry 59. -/
def belongs (d : Nat) (t : Strand) : Bool := homeDid t == d && !t.dead

/-- The number of the strand that issued an item names one that belongs to the partition, or, where that strand is gone, the item is of its DID. -/
def itemOf (s : State) (d key did : Nat) : Bool :=
  match (strandOf s key).filter (fun t => !t.dead) with
  | some t => belongs d t
  | none => did == d

/-- The message is an active message. -/
def isAmsg : RemoteOp → Bool
  | .amsg _ _ _ _ _ => true
  | .load _ => false
  | .store _ _ => false
  | .amo _ _ _ => false
  | .cas _ _ _ => false
  | .red _ _ _ => false
  | .lrw _ => false
  | .sch _ _ => false
  | .rls _ => false
  | .bari _ => false
  | .bara => false
  | .barx _ => false
  | .barw _ => false
  | .reply _ _ _ _ => false

/-- SID and target address of an active message. -/
def amsgNames : RemoteOp → Nat × Nat
  | .amsg _ va _ sid _ => (sid, va.toNat)
  | _ => (0, 0)

/-- The items of a partition that a reset records (R437, R439): strands, packets, messages, copies. -/
def resetItems (s : State) (d : Nat) (ended : List (Nat × Word)) : List ResetItem :=
  let strand (x : Nat × Word) : ResetItem := ⟨1, 2, x.1, x.2.toNat, 0⟩
  let own := ((strands s).filter (fun t => belongs d t && t.seat != .handler)).map (fun t => strand (t.sid, t.pc))
  let packs := (s.packets.filter (fun p => belongs d p.1)).map (fun p => (⟨4, 2, p.1.sid, p.1.pc.toNat, 0⟩ : ResetItem))
  let msg (m : HMsg) : ResetItem := ⟨5, 2, m.sid, m.addr.toNat, 0⟩
  let queued := s.cores.flatMap (fun e => ((e.2.hq ++ e.2.hwait).filter (fun m => m.did == d)).map msg)
  let sent := (s.outbox.filter (fun m => m.did == d && isAmsg m.msg.op)).map (fun m => (⟨5, 2, (amsgNames m.msg.op).1, (amsgNames m.msg.op).2, 0⟩ : ResetItem))
  let running := ((strands s).filter (fun t => t.seat == .handler && t.did == d && !t.dead)).filterMap (fun t => t.msg.map msg)
  let copies := s.cores.flatMap (fun e => (e.2.copies.filter (fun k => itemOf s d k.key k.did)).map (fun k =>
    let ok := k.fail.isNone && decide (boxLen k.box ≤ k.next)
    (⟨if k.kind = .multi then 3 else 2, if ok then 1 else 2, k.sid, k.rp.toNat, k.bytes * 2 ^ 6 + k.tok⟩ : ResetItem)))
  ended.map strand ++ own ++ packs ++ queued ++ sent ++ running ++ copies

/-- A message that no handler will run is answered with a cause (R190, R194). DEDUCED: log entry 59. -/
def refuseMsg (s : State) (m : HMsg) (cause : Nat) : State :=
  match m.caller with
  | some k => updStrand s k (fun c => { c with ends := kset (kset (kset (kset c.ends (2 ^ 65) 0) (2 ^ 65 + 1) m.clock) (2 ^ 65 + 2) cause) (2 ^ 65 + 3) 0 })
  | none => sendReply s m.pkg m.did m.era m.line m.seq 0 m.clock cause m.addr.toNat

/-- The messages of a DID for the handler slot of a core are discarded (R436); those that wait in the network move up (R192). -/
def dropMsgs (s : State) (d cause c : Nat) : State :=
  let cs := coreOf s c
  let s := ((cs.hq ++ cs.hwait).filter (fun m => m.did == d)).foldl (fun s m => refuseMsg s m cause) s
  let l := (cs.hq ++ cs.hwait).filter (fun m => m.did != d)
  updCore s c (fun cs => { cs with
    hq := l.take 32
    hwait := l.drop 32 })

/-- The strands, packets and messages of a partition end (R436): stores already issued are performed, reductions not yet performed are discarded, those of
strands that have ended before included (R219). DEDUCED: log entry 59. -/
def stopStrands (s : State) (d cause : Nat) : State :=
  let drop (t : Strand) : Strand := { t with posted := t.posted.filter (fun p => !(isRed p.op && p.done.isNone)) }
  let s := (s.cores.map Prod.fst).foldl (fun s c => dropMsgs s d cause c) s
  let s : State := { s with
    cores := s.cores.map (fun e => (e.1, { e.2 with
      runq := e.2.runq.filter (fun r => match r with
        | .gang x _ _ _ _ => x != d
        | .saved _ => true
        | .migrated _ => true) }))
    outbox := s.outbox.filter (fun m => !(m.did == d && isAmsg m.msg.op)) }
  let s := ((s.packets.filter (fun p => belongs d p.1)).map (fun p => p.1.key)).foldl removeStrand s
  let s := ((strands s).filter (fun t => belongs d t)).foldl (fun s t =>
    let s := updStrand s t.key drop
    if t.seat == .handler then asStrand s t.key (fun s => endHandler s 0 cause 0) else removeStrand (chargeSeated s t) t.key) s
  { s with others := (mapIf (fun t => t.dead && t.did == d) drop s.others).filter (fun t => !(t.dead && t.posted.isEmpty)) }

/-- The stream contexts of a partition on a core end, with the CWORD of each run that has not ended (R336), and are freed. -/
def stopStreams (s : State) (d cause c : Nat) : State :=
  ((coreOf s c).ctxs.filter (fun x => x.2.did == d && x.2.state != 0)).foldl (fun s x =>
    let t := x.2
    let all := decide (streamLen t.srec ≤ t.eidx)
    let run := t.state == 3 || t.state == 4 || t.state == 5 || t.state == 6
    let s := if run then cwWrite s t.did t.srec.cword (t.eidx % 2 ^ 32 * 2 ^ 32 + (if all then 1 else cause * 2 ^ 8 + 2)) t.clk else s
    updCtx s c x.1 freeCtx) s

/-- A zeroing of a slot or an accumulator whose claim has ended (R368). -/
def zeroes : MatOp → Bool
  | .zeroSlot _ => true
  | .zeroAcc _ => true
  | _ => false

/-- An engine item stops with a partition: one of a strand that has ended with it, or one of its DID whose strand is gone. A strand that goes on, since it only stood in
a gate of the partition, keeps its commands. DEDUCED: log entry 59. -/
def stopsWith (s : State) (keys : List Nat) (d key did : Nat) : Bool :=
  keys.contains key || (did == d && !((strandOf s key).any (fun t => !t.dead)))

/-- The copies of a partition on a core stop after their burst (R436, R437). -/
def stopCopies (s : State) (keys : List Nat) (d cause c : Nat) : State :=
  let stop (k : CopyCmd) : Bool := stopsWith s keys d k.key k.did
  let s := ((coreOf s c).copies.filter stop).foldl (fun s k => stopCopy s c cause k) s
  updCore s c (fun cs => { cs with copies := cs.copies.filter (fun k => !stop k) })

/-- The claims of a partition on a core end, each zeroed (R368), its queue registers and its mailbox share are emptied, and its matrix commands go (R436), but for the
zeroings that claims ended before still wait for. Where a command or a copy that goes on, of any DID, names the item, the zeroing takes its place behind it. -/
def stopCore (s : State) (keys : List Nat) (d c : Nat) : State :=
  let held := (coreOf s c).claims.filter (fun e => e.2 == d)
  let keep := (coreOf s c).matq.filter (fun k => zeroes k.op || !stopsWith s keys d k.key k.did)
  let late (i : Nat) : Bool := keep.any (fun k => namesItem k.op k.fa i) || (coreOf s c).copies.any (fun k => k.kind == .slot && bits (bxAddr k.box) 19 16 == i)
  let zero (i : Nat) : MatOp := if i < 16 then .zeroSlot i else .zeroAcc (i - 16)
  let s := (held.filter (fun e => !late e.1)).foldl (fun s e => zeroStore s c e.1) s
  let s := updCore s c (fun cs => { cs with
    claims := cs.claims.filter (fun e => e.2 != d)
    matq := keep ++ (held.filter (fun e => late e.1)).map (fun e => ⟨s.nextId, 0, 0, d, zero e.1, 0, 0, 0, 0, 0, 0⟩)
    queues := Vector.ofFn (fun q : Fin 8 => if bit (kget cs.doms d .reset).qmask q.val then [] else cs.queues[q])
    mbox := kdel cs.mbox d
    held := kdel cs.held d })
  { s with nextId := s.nextId + 1 }

/-- The bank commands of a partition: unfinished chunks fail, records and completion steps follow in ticket order (R407, R408), in a maintenance interval too, for
which a reset never waits (R436). -/
def stopBank (s : State) (d cause : Nat) : State :=
  (s.bank.filter (fun c => c.did == d)).foldl (fun s c => bankFinish (bankCut s c.id cause) c.id) s

/-- Tasks and records of the partition's regions fail, and each region is replayed or left failed (R438). -/
def stopRegions (s : State) (d cause : Nat) : State :=
  let s := { s with parked := s.parked.filter (fun e => e.2.dom != d) }
  (s.regions.filter (fun r => r.did == d)).foldl (fun s r => failRegion s d r.addr cause) s

/-- The bytes of an entry of the reset record (R439). -/
def itemBytes (cause : Nat) (x : ResetItem) : List Byte :=
  leBytes 8 (x.kind + x.state * 2 ^ 8 + cause * 2 ^ 16 + x.sid * 2 ^ 32) ++ leBytes 8 x.addr ++ leBytes 8 x.detail ++ leBytes 8 0

/-- A write of a part of the reset record, above the times of the line: nothing where it names no DRAM (R2). DESIGN CHOICE: log entry 97. -/
def recordPut (s : State) (pa : Nat) (bs : List Byte) (clock : Nat) : State × Nat :=
  if namesDram pa then homeWrite s pa bs clock 0 4096 0 else (s, clock)

/-- The reset record, 64-byte aligned: every entry first, and then the header, above the times of all entries (R439). -/
def resetRecord (s : State) (d cause trig : Nat) (items : List ResetItem) : State :=
  let b := domOf s d
  let pa := alignDown b.resrec 64
  let fit := items.take b.rrn
  let (s, t) := ((fit.zipIdx).foldl (fun (x : State × Nat) e =>
    let (s, w) := recordPut x.1 (pa + 0x40 + 32 * e.2) (itemBytes cause e.1) 0
    (s, max x.2 w)) (s, 0))
  let z := timesOf s (pa / 64)
  let w := max (t + 1) (z.rts + 1)
  let head := leBytes 8 b.resets ++ leBytes 8 (fit.length + (items.length - fit.length) * 2 ^ 32) ++ leBytes 8 (cause + trig * 2 ^ 8)
    ++ leBytes 8 (w + s.era * 2 ^ 48) ++ List.replicate 32 0
  (recordPut s pa head t).1

/-- A partition reset (R436): the oldest request of the DID, with every trigger that has joined it. -/
def partitionReset (s : State) (d : Nat) : State :=
  match s.resets.find? (fun r => r.did == d) with
  | none => s
  | some r =>
    let items := resetItems s d r.ended
    let keys := ((strands s ++ travellers s).filter (belongs d)).map (fun t => t.key)
    let s := stopStrands s d r.cause
    let s := (s.cores.map Prod.fst).foldl (fun s c => stopStreams s d r.cause c) s
    let s := (s.cores.map Prod.fst).foldl (fun s c => stopCopies s keys d r.cause c) s
    let s := stopBank s d r.cause
    let s := stopRegions s d r.cause
    let s := (s.cores.map Prod.fst).foldl (fun s c => stopCore s keys d c) s
    let s := { updDom s d (fun b => { b with resets := b.resets + 1 }) with resets := s.resets.filter (fun r => r.did != d) }
    let s := resetRecord s d r.cause r.trig items
    updDom s d (fun b => { b with pstate := 1 })

/-- PARTITION_RESET (R436 to R439). -/
def execPartitionReset (d : Nat) : State → Host.Outcome State Fault Refusal := event (fun s => partitionReset s d)

/-! ### Fatal errors (R446) -/

/-- A strand of a DID sits on a core. -/
def sitsAt (c : Nat) (t : Strand) : Bool := seated t && t.core == c && (match t.seat with
  | .bank _ _ => false
  | _ => true)

/-- A strand of a DID sits on a bank core. -/
def sitsAtBank (ch : Nat) (t : Strand) : Bool := !t.dead && (match t.seat with
  | .bank x _ => x == ch
  | _ => false)

/-- A run-queue entry is an item of the DID. -/
def entryOf (s : State) (d : Nat) : RunEntry → Bool
  | .gang x _ _ _ _ => x == d
  | .saved k => (strandOf s k).any (fun t => t.did == d || homeDid t == d)
  | .migrated k => (strandOf s k).any (fun t => t.did == d || homeDid t == d)

/-- The DIDs that own a slot, a claim, a context or an item in flight on a core: its bank commands and packets on their way to it among them. -/
def coreUsers (s : State) (c : Nat) : List Nat :=
  let cs := coreOf s c
  (List.range 21).filter (fun d =>
    (cs.slotown ++ cs.curown).contains d || cs.claims.any (fun e => e.2 == d) || cs.ctxs.any (fun x => x.2.did == d && x.2.state != 0)
      || cs.copies.any (fun k => k.did == d) || cs.matq.any (fun k => k.did == d) || (cs.hq ++ cs.hwait).any (fun m => m.did == d)
      || s.bank.any (fun k => k.core == c && k.did == d) || s.packets.any (fun p => p.2 == c && (p.1.did == d || homeDid p.1 == d))
      || cs.runq.any (entryOf s d) || (strands s).any (fun t => sitsAt c t && (t.did == d || homeDid t == d)))

/-- A context is floated at a slice (1) or at a channel (2). -/
def floatsAt (lock loc : Nat) (x : Ctx) : Bool := x.lock == lock && x.loc == loc && (x.state == 4 || x.state == 5)

/-- A strand has an access on its way to the home slice `h`: a posted write, a load, or elements of a vector load. -/
def flowsTo (h : Nat) (t : Strand) : Bool :=
  let at' (k : Nat) : Bool := decide (k < 2 ^ 40) && sliceOf k == h
  t.posted.any (fun p => p.done.isNone && at' p.key) || t.load.any (fun l => at' l.key) || t.vload.any (fun v => v.todo.any (fun e => at' e.2))

/-- The DIDs that have an item at a slice: a set range, which for a shared range is its creator's (R238), a context floated there, an access or a prefetch on its way.
DEDUCED: log entry 68. -/
def sliceUsers (s : State) (h : Nat) : List Nat :=
  (List.range 21).filter (fun d => bit (kget s.sets (h * 32 + d) 0) 31
    || (List.range 11).any (fun j => bit (kget s.sets (h * 32 + 21 + j) 0) 31 && (kget s.shared j .reset).creator == d)
    || (strands s ++ travellers s).any (fun t => t.did == d && flowsTo h t) || s.prefq.any (fun q => q.2.1 == d && sliceOf (64 * q.1) == h)
    || s.cores.any (fun e => e.2.ctxs.any (fun x => x.2.did == d && floatsAt 1 h x.2)))

/-- The DIDs that have slots, strands, entries, commands, its own or of others with chunks there, packets on their way or contexts at a bank core. -/
def bankUsers (s : State) (ch : Nat) : List Nat :=
  (List.range 21).filter (fun d => (domBank s ch d).bslots != 0
    || s.bank.any (fun c => c.did == d && (c.core == 4096 + ch || c.chunks.any (fun k => k.state == 0 && channelOf k.dst == ch)))
    || s.packets.any (fun p => p.2 == 4096 + ch && (p.1.did == d || homeDid p.1 == d))
    || (bankOf s ch).runq.any (entryOf s d) || (strands s).any (fun t => sitsAtBank ch t && (t.did == d || homeDid t == d))
    || s.cores.any (fun e => e.2.ctxs.any (fun x => x.2.did == d && floatsAt 2 ch x.2)))

/-- The cause that a fatal error reports: a free value, which the spec does not name. -/
def fatalCode (s : State) : Nat := (Config.fatalCause s.fresh).val + 1

/-- The error is charged to each DID that owns something on the unit, with a RAS record of SEV 2, and each such partition is reset; an error that no DID owns is
reported to DID 0 with SEV 3 (R443, R444, R446). DID 0 has no partition reset (R425). DEDUCED: log entry 68. -/
def chargeFatal (s : State) (users : List Nat) (unit code : Nat) : State :=
  if users.isEmpty then rasPost s 0 0 0 7 3 0x1F unit
  else users.foldl (fun s d =>
    let s := rasPost (updDom s d (fun b => { b with uecnt := b.uecnt + 1 })) d 0 0 7 2 d unit
    if d = 0 then s else resetAsked s d code 2) s

/-- Strands of DID 0 end, and their tasks fail (R446, R447). -/
def failMonitor (s : State) (at' : Strand → Bool) (code : Nat) : State :=
  ((strands s ++ travellers s).filter (fun t => belongs 0 t && at' t)).foldl (fun s t =>
    if t.seat == .handler then asStrand s t.key (fun s => endHandler s 0 code 0)
    else taskLeave (removeStrand (chargeSeated s t) t.key) t (some code)) s

/-- Run-queue entries of DID 0 that leave with their unit: strands end, and a gang's task fails. -/
def failEntries (s : State) (q : List RunEntry) (code : Nat) : State :=
  q.foldl (fun s e => match e with
    | .gang d _ _ _ task => if d = 0 then settleTask (updTask s task (fun t => { t with fail := t.fail.orElse (fun _ => some code) })) task else s
    | .saved k => failMonitor s (fun t => t.key == k) code
    | .migrated k => failMonitor s (fun t => t.key == k) code) s

/-- What DID 0 has on a core goes with the core: strands, entries, messages, packets on their way to it, streams, copies, matrix commands and claims. DEDUCED: log entry 68. -/
def monitorLeaves (s : State) (c code : Nat) : State :=
  let keys := ((strands s).filter (fun t => belongs 0 t && sitsAt c t)).map (fun t => t.key)
  let going := (s.packets.filter (fun p => p.2 == c)).map (fun p => p.1.key)
  let s := dropMsgs s 0 code c
  let s := failEntries s (coreOf s c).runq code
  let s := failMonitor s (fun t => sitsAt c t || going.contains t.key) code
  let s := stopStreams s 0 code c
  stopCore (stopCopies s keys 0 code c) keys 0 c

/-- Streams of DID 0 that are floated at a unit out of service fail (R321). -/
def failFloats (s : State) (lock loc code : Nat) : State :=
  s.cores.foldl (fun s e => (e.2.ctxs.filter (fun x => x.2.did == 0 && floatsAt lock loc x.2)).foldl (fun s x => failing s e.1 x.1 0x16 code) s) s

/-- Strands that wait for an entry of a unit out of service, or have one granted, try their migration again (R187, R447). -/
def turnAway (s : State) (dest : Nat) : State :=
  let back (t : Strand) : Strand := if t.dest.any (fun x => x.1 == dest) then { t with dest := none, wait := if t.wait == .grant then .retry else t.wait } else t
  let s := { s with others := s.others.map back, me := if s.live then back s.me else s.me }
  if 4096 ≤ dest then updBank s (dest - 4096) (fun b => { b with asking := [], granted := [] })
  else updCore s dest (fun c => { c with asking := [], granted := [] })

/-- Cores of a die that wait for a spare. -/
def pendingOn (s : State) (die : Nat) : Nat := (s.health.pending.filter (fun c => c / 1024 == die)).length

/-- FATAL_ERROR (R446): the unit leaves service at once; a core waits for a spare, or the state becomes DEGRADED, or FAILED with no core left (R447, R449). DEDUCED: log entry 68. -/
def fatalError (s : State) (u : Unit3) : State :=
  let code := fatalCode s
  let s := { s with fresh := s.fresh + 1 }
  match u with
  | .core c =>
    if !presentIn s c then s
    else
      let users := coreUsers s c
      let s := turnAway (setTopo (chargeFatal s users c code) c (fun t => { t with present := false })) c
      let s := if pendingOn s (c / 1024) < s.health.spares.getD (c / 1024) 0 then { s with health := { s.health with pending := s.health.pending ++ [c] } } else degrade s
      let s := if (List.range 4096).any (presentIn s) then s else healthTo s 3
      if users.contains 0 then monitorLeaves s c code else s
  | .slice h =>
    let s := chargeFatal s (sliceUsers s h) h code
    let s := ((s.l2.filter (fun l => sliceOf (64 * l.line) == h)).map (fun l => l.line)).foldl (fun s l => dropL2 s l true) s
    failFloats { s with health := { s.health with deadSl := addNew s.health.deadSl h } } 1 h code
  | .bank ch =>
    let s := turnAway (chargeFatal s (bankUsers s ch) (4096 + ch) code) (4096 + ch)
    let s := { s with health := { s.health with deadBk := addNew s.health.deadBk ch } }
    let going := (s.packets.filter (fun p => p.2 == 4096 + ch)).map (fun p => p.1.key)
    let s := failEntries s (bankOf s ch).runq code
    failFloats (failMonitor s (fun t => sitsAtBank ch t || going.contains t.key) code) 2 ch code

/-- FATAL_ERROR (R446). -/
def execFatalError (u : Unit3) : State → Host.Outcome State Fault Refusal := event (fun s => fatalError s u)

end Sys2Proof.Machine
end

