-- ==== Sys2Proof/Machine/Package.lean ====
section
/-! DEFINITION. The events of the monitor's registers (R420 to R431), of the host (R458 to R464), of other packages and the Thayth ports
(R452 to R457), and of the package as a whole (R466 to R469). -/

namespace Sys2Proof.Machine

/-! ### Monitor stores (R420) -/

/-- A store of DID 0 to a device register: in force, or refused with nothing changed (R420). -/
def monitorStore (s : State) (a v : Nat) : State :=
  match devStore s 0 (w64 a) (w64 v) with
  | .ok t => t
  | .error _ => s

/-- First address of a device window. -/
def windowBase (w : Nat) : Nat := 0xFF00000000000000 + w * 2 ^ 32

/-- The address of word k of the record of a DID on a core, at 4096 + channel for a bank core (R421). -/
def coreWordAddr (c d k : Nat) : Nat := windowBase 2 + c * 4096 + d * 64 + 8 * k

/-- A store that changes bits hi down to lo of a word of a DID's record on a core. -/
def storeField (s : State) (c d k hi lo v : Nat) : State :=
  monitorStore s (coreWordAddr c d k) (setBits ((coreBlock s c (d * 64 + 8 * k)).getD 0) hi lo v)

/-- The address of word k of the package block of a DID (R425). -/
def pkgWordAddr (d k : Nat) : Nat := windowBase 4 + 256 * d + 8 * k

/-- PARTITION_REGISTER_WRITE (R420). -/
def execPartitionRegisterWrite (addr : Word) (val : Word) : State → Host.Outcome State Fault Refusal :=
  event (fun s => monitorStore s addr.toNat val.toNat)

/-- SLOTOWN_WRITE (R430): one byte of the doubleword that holds the slot's owner. -/
def execSlotownWrite (c : Nat) (slot : Nat) (d : Nat) : State → Host.Outcome State Fault Refusal :=
  event (fun s => if slot < 32 ∧ c < 4096 ∧ d < 256 then
      let o := 0x600 + slot / 8 * 8
      monitorStore s (windowBase 2 + c * 4096 + o) (setBits (byteWord (coreOf s c).slotown (slot / 8 * 8)) (slot % 8 * 8 + 7) (slot % 8 * 8) d)
    else s)

/-- SPBANK_WRITE (R421). -/
def execSpbankWrite (c : Nat) (d : Nat) (m : BitVec 16) : State → Host.Outcome State Fault Refusal :=
  event (fun s => if c < 4096 ∧ d < 21 then storeField s c d 1 15 0 m.toNat else s)

/-- WSG_WRITE (R226, R421). -/
def execWsgWrite (c : Nat) (d : Nat) (m : BitVec 16) : State → Host.Outcome State Fault Refusal :=
  event (fun s => if c < 4096 ∧ d < 21 then storeField s c d 1 31 16 m.toNat else s)

/-- FRELM (R421). -/
def execFrelm (c : Nat) (d : Nat) (m : BitVec 16) : State → Host.Outcome State Fault Refusal :=
  event (fun s => if c < 4096 ∧ d < 21 then monitorStore s (coreWordAddr c d 3) m.toNat else s)

/-- FRELC (R421). -/
def execFrelc (c : Nat) (d : Nat) (m : BitVec 8) : State → Host.Outcome State Fault Refusal :=
  event (fun s => if c < 4096 ∧ d < 21 then monitorStore s (coreWordAddr c d 3) (m.toNat * 2 ^ 16) else s)

/-- MBOX_WRITE (R423). -/
def execMboxWrite (c : Nat) (d : Nat) (n : Nat) : State → Host.Outcome State Fault Refusal :=
  event (fun s => if c < 4096 ∧ d < 21 ∧ n < 128 then storeField s c d 1 62 56 n else s)

/-- STRQ_WRITE (R335). -/
def execStrqWrite (c : Nat) (d : Nat) (n : Nat) : State → Host.Outcome State Fault Refusal :=
  event (fun s => if c < 4096 ∧ d < 21 ∧ n < 128 then storeField s c d 1 54 48 n else s)

/-- SET_RANGE_WRITE (R237, R424): range i of slice sl. -/
def execSetRangeWrite (sl : Nat) (i : Nat) (val : Word) : State → Host.Outcome State Fault Refusal :=
  event (fun s => if sl < 1024 ∧ i < 32 then monitorStore s (windowBase 3 + sl * 1024 + 8 * i) val.toNat else s)

/-- SCHED_WRITE (R239). -/
def execSchedWrite (d : Nat) (val : Word) : State → Host.Outcome State Fault Refusal :=
  event (fun s => if d < 21 then monitorStore s (pkgWordAddr d 3) val.toNat else s)

/-- PARTITION_RESET_REQUEST (R425): RRN stays. -/
def execPartitionResetRequest (d : Nat) : State → Host.Outcome State Fault Refusal :=
  event (fun s => if d < 21 then monitorStore s (pkgWordAddr d 6) ((domOf s d).rrn * 2 ^ 16 + 1) else s)

/-- PARTITION_CREATE (R425): RRN stays. -/
def execPartitionCreate (d : Nat) : State → Host.Outcome State Fault Refusal :=
  event (fun s => if d < 21 then monitorStore s (pkgWordAddr d 6) ((domOf s d).rrn * 2 ^ 16 + 2) else s)

/-- HPORT_WRITE (R451). -/
def execHportWrite (d : Nat) (port : Nat) : State → Host.Outcome State Fault Refusal :=
  event (fun s => if d < 21 ∧ port < 2 then monitorStore s (pkgWordAddr d 7) port else s)

/-- HEALTH_WCLR (R449). -/
def execHealthWclr : State → Host.Outcome State Fault Refusal :=
  event (fun s => monitorStore s (windowBase 5 + 0x800) (2 ^ 27))

/-- BIAS_FLIP_REQUEST (R461): the page's address and, in bit 0, the new bias. -/
def execBiasFlipRequest (val : Word) : State → Host.Outcome State Fault Refusal :=
  event (fun s => monitorStore s (windowBase 0xB) val.toNat)

/-! ### The host (R458 to R464) -/

/-- The physical address of a device address of the HDM that memory ranges 0 to 3 make up (R459): none where that names no DRAM (R2). -/
def hdmPa : Nat → List (Nat × Nat) → Option Nat
  | _, [] => none
  | a, (b, n) :: rest => if a < n * 2 ^ 21 then (if namesDram (b + a) then some (b + a) else none) else hdmPa (a - n * 2 ^ 21) rest

/-- The DID to which logical device `i` of a port is bound (R459). -/
def ldDid (s : State) (port i : Nat) : Option Nat := if port < 2 ∧ i < 16 then kget? s.host.ld (16 * port + i) else none

/-- An access of `n` bytes from a device address cut at line boundaries: physical address and length of each piece, or none outside the HDM. -/
def hdmPieces (s : State) (d : Nat) : Nat → Nat → Nat → Option (List (Nat × Nat))
  | 0, _, n => if n = 0 then some [] else none
  | k + 1, a, n =>
    if n = 0 then some []
    else
      let m := min n (64 - a % 64)
      match hdmPa a (domOf s d).ranges, hdmPieces s d k (a + m) (n - m) with
      | some pa, some l => some ((pa, m) :: l)
      | _, _ => none

/-- The pieces of a host access, when its logical device is bound and all of it lies in the HDM. -/
def hostPieces (s : State) (port ld addr n : Nat) : Option (Nat × List (Nat × Nat)) :=
  (ldDid s port ld).bind (fun d => (hdmPieces s d (n / 64 + 2) addr n).map (fun l => (d, l)))

/-- The answer a host access gets: data, or an error. -/
def hostReply (s : State) (x : Option (List Byte)) : State := { s with host := { s.host with reply := x } }

/-- The host clock of a function at a port (R460). -/
def hostClock (s : State) (fn port : Nat) : Nat := kget s.host.hc (2 * fn + port) 0

/-- The host clock raised to a time. -/
def raiseHc (s : State) (fn port t : Nat) : State :=
  { s with host := { s.host with hc := kset s.host.hc (2 * fn + port) (max (hostClock s fn port) t) } }

/-- The pieces of a host write, each performed at its line's home above the host clock (R460). DESIGN CHOICE: log entry 64. -/
def hostPut (fn port d : Nat) : State → List (Nat × Nat) → List Byte → State
  | s, [], _ => s
  | s, (pa, m) :: l, bs =>
    let (s, w) := homeWrite s pa (bs.take m) (hostClock s fn port) 0 4096 d
    hostPut fn port d (raiseHc s fn port w) l (bs.drop m)

/-- The pieces of a host read, each at its line's home (R460), with the bytes found. -/
def hostGet (fn port d : Nat) : State → List (Nat × Nat) → State × List Byte
  | s, [] => (s, [])
  | s, (pa, m) :: l =>
    let s := demand s (pa / 64) d
    let x := timesOf s (pa / 64)
    let tr := max (hostClock s fn port) x.wts
    let bs := leBytes m (homeVal s pa m)
    let (s, rest) := hostGet fn port d (raiseHc (setTimes s (pa / 64) x.wts (max x.rts tr)) fn port tr) l
    (s, bs ++ rest)

/-- A host access performed (R459, R460): an error outside the HDM; poisoned data is never returned as good (R441, R445). DEDUCED: log entry 63. -/
def hostDo (s : State) (a : HostAcc) : State :=
  match hostPieces s a.port a.ld a.addr a.n with
  | none => hostReply s none
  | some (d, l) =>
    match a.data with
    | some bs => hostReply (chargeEnergy (chargeEnergy (hostPut a.fn a.port d s l bs) d 1) d 2) (some [])
    | none =>
      if l.any (fun x => poisonedAt s x.1 x.2) then hostReply (l.foldl (fun s x => foundDead s x.1 x.2 d) s) none
      else
        let (t, bs) := hostGet a.fn a.port d s l
        hostReply (chargeEnergy (chargeEnergy t d 1) d 2) (some bs)

/-- A host access waits while a line's home must wait for DRAM (R262); a write without the relaxed-ordering attribute also for each such write of its function and port
that has arrived before (R460). DESIGN CHOICE: log entry 64. -/
def hostWaits (s : State) (before : List HostAcc) (a : HostAcc) : Bool :=
  (hostPieces s a.port a.ld a.addr a.n).any (fun x => x.2.any (fun x => !homeReady s (x.1 / 64)))
    || (a.data.isSome && !a.relaxed && before.any (fun b => b.data.isSome && !b.relaxed && b.fn == a.fn && b.port == a.port))

/-- The accesses that wait at the ports. -/
def setHostQueue (s : State) (q : List HostAcc) : State := { s with host := { s.host with queue := q } }

/-- The first of the accesses in `q` that need not wait any more is performed; `before` have arrived earlier. -/
def hostTry (s : State) (before : List HostAcc) : List HostAcc → State
  | [] => s
  | a :: q => if hostWaits s before a then hostTry s (before ++ [a]) q else hostDo (setHostQueue s (before ++ q)) a

/-- An access that has waited is performed once it can be (R460). -/
def hostNext (s : State) : State := hostTry s [] s.host.queue

/-- A host access arrives (R460): it is performed, or waits. -/
def hostArrive (s : State) (a : HostAcc) : State :=
  if hostWaits s s.host.queue a then setHostQueue s (s.host.queue ++ [a]) else hostDo s a

/-- HOST_WRITE (R460, R462). DESIGN CHOICE: log entry 64. -/
def execHostWrite (fn : Nat) (port : Nat) (ld : Nat) (addr : Nat) (data : List Byte) (ro : Bool) : State → Host.Outcome State Fault Refusal :=
  event (fun s => hostArrive s ⟨fn, port, ld, addr, data.length, some data, ro⟩)

/-- HOST_READ (R460). -/
def execHostRead (fn : Nat) (port : Nat) (ld : Nat) (addr : Nat) (n : Nat) : State → Host.Outcome State Fault Refusal :=
  event (fun s => hostArrive s ⟨fn, port, ld, addr, n, none, false⟩)

/-- HOST_BIAS_FLIP_COMMAND (R461): `ld` is 16 × port + the logical device, `page` the number of a 4 KiB page of its HDM. -/
def execHostBiasFlipCommand (ld : Nat) (page : Nat) (host : Bool) : State → Host.Outcome State Fault Refusal :=
  event (fun s => match (kget? s.host.ld ld).bind (fun d => hdmPa (page * 4096) (domOf s d).ranges) with
    | some pa => biasFlip s pa host
    | none => hostReply s none)

/-- A logical device is bound to a DID of 1 to 20 that has none on its port, or unbound (R459). -/
def bindLd (s : State) (ld : Nat) (d : Option Nat) : State :=
  if 32 ≤ ld then s
  else match d with
    | none => { s with host := { s.host with ld := kdel s.host.ld ld } }
    | some x =>
      if x = 0 || 20 < x || s.host.ld.any (fun e => e.1 != ld && e.1 / 16 == ld / 16 && e.2 == x) then s
      else { s with host := { s.host with ld := kset s.host.ld ld x } }

/-- LD_BIND (R459): `ld` is 16 × port + the logical device. -/
def execLdBind (ld : Nat) (d : Option Nat) : State → Host.Outcome State Fault Refusal := event (fun s => bindLd s ld d)

/-- A virtual function is bound to a DID, or unbound (R463). -/
def bindVf (s : State) (fn : Nat) (d : Option Nat) : State :=
  if 512 ≤ fn then s
  else match d with
    | none => { s with host := { s.host with vf := kdel s.host.vf fn } }
    | some x => if 20 < x then s else { s with host := { s.host with vf := kset s.host.vf fn x } }

/-- VIRTUAL_FUNCTION_BIND (R463). -/
def execVirtualFunctionBind (fn : Nat) (d : Option Nat) : State → Host.Outcome State Fault Refusal := event (fun s => bindVf s fn d)

/-- INTERRUPT_REQUEST (R463): a store of the strand in turn to its own interrupt register has arrived. -/
def execInterruptRequest (val : Word) : State → Host.Outcome State Fault Refusal :=
  event (fun s => match msiRequest s s.me.did val.toNat with
    | .ok t => t
    | .error _ => s)

/-- INTERRUPT_COALESCE_EXPIRY (R464): the timer of a DID has reached CTIME. -/
def execInterruptCoalesceExpiry (d : Nat) : State → Host.Outcome State Fault Refusal :=
  event (fun s => if msiDue s d then msiDeliver s d else s)

/-- HOST_PORT_LANE_FAILURE (R458): the port trains again to x8 or x4. -/
def execHostPortLaneFailure (port : Nat) (lanes : Nat) : State → Host.Outcome State Fault Refusal :=
  event (fun s => if port < 2 ∧ (lanes = 8 ∨ lanes = 4) ∧ lanes < s.host.lanes.getD port 0 then
      { s with host := { s.host with lanes := s.host.lanes.set port lanes } }
    else s)

/-! ### Thayth ports (R456) -/

/-- A port leaves service (R456): the messages on its path, requests and replies, that no acknowledgement has come for are sent again over another (R457). -/
def portDown (s : State) (p : Nat) : State :=
  if !(portOf s p).up then s
  else
    let again := (s.outbox.filter (fun m => m.path == p)).map (fun m => m.did) ++ (s.replies.filter (fun r => r.path == p)).map (fun r => r.did)
    let s := healthTo (rerouted { s with ports := kset s.ports p { portOf s p with up := false, lanes := 0, failed := 0, replay := false } }) 1
    again.foldl (fun s d => chargeEnergy s d 2) s

/-- THAYTH_PORT_DOWN (R456): after 16 consecutive failed replays. -/
def execThaythPortDown (port : Nat) : State → Host.Outcome State Fault Refusal :=
  event (fun s => if 16 ≤ (portOf s port).failed then portDown s port else s)

/-- A frame arrives (R456): a bad one is replayed and counted, and the 16th failed replay in a row takes the port down; none moves in a major slot (R262). -/
def frame (s : State) (p : Nat) (good : Bool) : State :=
  let x := portOf s p
  if !x.up || inMajor s.gtc then s
  else if good then { s with ports := kset s.ports p { x with failed := 0, replay := false } }
  else
    let y := { x with failed := if x.replay then x.failed + 1 else x.failed, replay := true, replays := min (2 ^ 32 - 1) (x.replays + 1) }
    let s := { s with ports := kset s.ports p y }
    if 16 ≤ y.failed then portDown s p else s

/-- THAYTH_FRAME_RECEIVE (R456). -/
def execThaythFrameReceive (port : Nat) (good : Bool) : State → Host.Outcome State Fault Refusal := event (fun s => frame s port good)

/-! ### Messages of other packages (R286, R452, R454, R457) -/

/-- A peer's request for RDID is accepted (R452): a valid window of RDID names its package, and the address lies in a memory range of RDID. -/
def peerOk (s : State) (m : RemoteMsg) : Bool :=
  s.peers.any (fun e => e.1 / 256 == m.rdid && wbits e.2 63 63 == 1 && wbits e.2 43 32 == m.src)
    && namesDram m.pa && (domOf s m.rdid).ranges.any (inRange m.pa)

/-- The virtual address that an answer names (R454): an active message's target; the sender of another request has its own. -/
def answerVa : RemoteOp → Nat
  | .amsg _ va _ _ _ => va.toNat
  | .load _ => 0
  | .store _ _ => 0
  | .amo _ _ _ => 0
  | .cas _ _ _ => 0
  | .red _ _ _ => 0
  | .lrw _ => 0
  | .sch _ _ => 0
  | .rls _ => 0
  | .bari _ => 0
  | .bara => 0
  | .barx _ => 0
  | .barw _ => 0
  | .reply _ _ _ _ => 0

/-- The answer to a request: value, time in the sender's era, cause, with the virtual address as TVAL (R454). -/
def answer (s : State) (m : RemoteMsg) (v t cause : Nat) : State :=
  sendReply s m.src (if m.rdid < 21 then m.rdid else 0) m.era (m.pa / 64) m.seq v t cause (answerVa m.op)

/-- A load of another package at a home here, as an engine reads there (R277, R286). -/
def remoteLoad (s : State) (m : RemoteMsg) (n : Nat) : State :=
  if poisonedAt s m.pa n then answer (foundDead s m.pa n m.rdid) m 0 0 (causeCode .poison)
  else
    let (s, v, t) := homeRead s m.pa n (clockIn s m.era m.clock + 1) m.rdid
    answer s m v t 0

/-- A step of another package at a home here, which returns `res` of the old value: what it leaves, or none for no write, which renews no lease (R204). -/
def remoteStep (s : State) (m : RemoteMsg) (n : Nat) (upd : Nat → Option Nat) (res : Nat → Nat) : State :=
  if poisonedAt s m.pa n then answer (foundDead s m.pa n m.rdid) m 0 0 (causeCode .poison)
  else
    let old := homeVal s m.pa n
    let c := clockIn s m.era m.clock
    match upd old with
    | some v =>
      let (s, w) := homeWrite s m.pa (leBytes n v) c 0 4096 m.rdid
      answer s m (res old) w 0
    | none =>
      let s := demand s (m.pa / 64) m.rdid
      let x := timesOf s (m.pa / 64)
      let t := max (c + 1) x.wts
      answer (setTimes s (m.pa / 64) x.wts (max x.rts t)) m (res old) t 0

/-- A posted write of another package at a home here. -/
def remotePost (s : State) (m : RemoteMsg) (op : PostOp) (n v : Nat) : State :=
  let (s, w) := homeWrite s m.pa (leBytes n (writeApply op n v (homeVal s m.pa n))) (clockIn s m.era m.clock) 0 4096 m.rdid
  answer s m 0 w 0

/-- A strand of another package asks for the reservation of a doubleword here (R207): it joins the queue, and its grant is the reply. -/
def remoteLrw (s : State) (m : RemoteMsg) (sid : Nat) : State :=
  let k := peerStrand m.src sid
  let q := kget s.resv m.pa ⟨none, [], none⟩
  let s := { s with
    resv := kset s.resv m.pa { q with waiters := q.waiters ++ [(k, clockIn s m.era m.clock + 1)] }
    peerWait := kset s.peerWait k (m.src, m.seq, m.era, m.rdid) }
  peerGrant (grantNext s m.pa 0) m.pa

/-- A strand of another package holds the reservation of a doubleword here. -/
def remoteHolds (s : State) (m : RemoteMsg) (sid : Nat) : Bool :=
  (kget? s.resv m.pa).any (fun q => q.holder == some (peerStrand m.src sid) && q.grant.isNone)

/-- A message performed or delivered (R454). -/
def remoteDo (s : State) (m : RemoteMsg) : State :=
  match m.op with
  | .load n => remoteLoad s m n
  | .store n v => remotePost s m .store n v
  | .amo op n v => remoteStep s m n (fun old => some (amoApply op n old v)) id
  | .cas n e w => remoteStep s m n (fun old => if old = e then some w else none) id
  | .red op n v => remotePost s m (.red op) n v
  | .lrw sid => remoteLrw s m sid
  | .sch sid v =>
    if remoteHolds s m sid then
      let (s, w) := homeWrite s m.pa (leBytes 8 v) (clockIn s m.era m.clock) 0 4096 m.rdid
      answer (resvRelease s m.pa (peerStrand m.src sid) 0) m 0 w 0
    else answer s m 0 0 (causeCode .illegal)
  | .rls sid =>
    if remoteHolds s m sid then
      answer (resvRelease s m.pa (peerStrand m.src sid) (clockIn s m.era m.clock + 1)) m 0 (clockIn s m.era m.clock + 1) 0
    else answer s m 0 0 (causeCode .illegal)
  | .bari ex => remotePost s m .bari 32 ex
  | .bara => remoteStep s m 32 (fun old => some (arriveApply old)) (fun old => bits old 63 32)
  | .barx n => remotePost s m .barx 32 n
  | .barw _ => let (s, _, t) := homeRead s m.pa 32 (clockIn s m.era m.clock + 1) m.rdid; answer s m 0 t 0
  | .amsg entry va arg sid core =>
    sendHandler s (homeCore s m.pa)
      { entry, addr := va, arg, did := m.rdid, sid, core, clock := clockIn s m.era m.clock, caller := none, pkg := m.src, seq := m.seq, era := m.era, line := m.pa / 64 }
  | .reply key value cause tval =>
    updStrand s key (fun t => if t.wait = .reply then { t with
      ends := kset (kset (kset (kset t.ends (2 ^ 65) value.toNat) (2 ^ 65 + 1) (clockIn s m.era m.clock)) (2 ^ 65 + 2) cause) (2 ^ 65 + 3) tval.toNat } else t)

/-- The message is an answer to a message of this package. -/
def isReply : RemoteOp → Bool
  | .reply _ _ _ _ => true
  | .load _ => false
  | .store _ _ => false
  | .amo _ _ _ => false
  | .cas _ _ _ => false
  | .red _ _ _ => false
  | .lrw _ => false
  | .sch _ _ => false
  | .rls _ => false
  | .bari _ => false
  | .bara => false
  | .barx _ => false
  | .barw _ => false
  | .amsg _ _ _ _ _ => false

/-- The phase of a barrier object here that a strand of another package waits for (R214): the message waits at the home until it is complete. -/
def barwPhase : RemoteOp → Option Nat
  | .barw k => some k
  | _ => none

/-- A message must wait (R214, R262, R455, R457): in a major slot, while its home waits for DRAM, for the phase of a barrier, or behind one of its package for
the same line that has arrived before. DESIGN CHOICE: log entry 101. -/
def msgWaits (s : State) (before : List RemoteMsg) (m : RemoteMsg) : Bool :=
  inMajor s.gtc
    || (!isReply m.op && peerOk s m
      && (!homeReady s (m.pa / 64) || (barwPhase m.op).any (fun k => !phaseDone (homeVal s m.pa 32) k)
        || before.any (fun b => b.src == m.src && b.pa / 64 == m.pa / 64 && !isReply b.op && (barwPhase b.op).isNone)))

/-- A message that has been taken in can still come again when another of its package arrives (R457): their sequence numbers, of 32 bits, are less than 2^30 apart.
DESIGN CHOICE: log entry 107. -/
def mayRepeat (m : RemoteMsg) (e : Nat × Nat) : Bool :=
  e.1 != m.src || decide ((m.seq + 2 ^ 32 - e.2) % 2 ^ 32 < 2 ^ 30) || decide ((e.2 + 2 ^ 32 - m.seq) % 2 ^ 32 < 2 ^ 30)

/-- A message is taken in, once only (R457): a request that is not accepted fails with DOMAIN (R452). -/
def msgTake (s : State) (m : RemoteMsg) : State :=
  let s := { s with seen := s.seen.filter (mayRepeat m) ++ [(m.src, m.seq)] }
  if isReply m.op then remoteDo s m
  else if peerOk s m then remoteDo (if isAmsg m.op then s else chargeEnergy s m.rdid 1) m
  else answer s m 0 0 (causeCode .domain)

/-- A message of another package arrives (R457): one that has come before is discarded; it is taken in, or waits. -/
def remoteReceive (s : State) (m : RemoteMsg) : State :=
  if s.seen.contains (m.src, m.seq) || s.inbox.any (fun x => x.src == m.src && x.seq == m.seq) then s
  else if msgWaits s s.inbox m then { s with inbox := s.inbox ++ [m] }
  else msgTake s m

/-- A message that waits is taken in once it can be. -/
def inboxTry (s : State) (m : RemoteMsg) : State :=
  if !s.inbox.contains m || msgWaits s (s.inbox.takeWhile (· != m)) m then s
  else msgTake { s with inbox := s.inbox.filter (· != m) } m

/-- REMOTE_MESSAGE_RECEIVE (R286, R452, R457). -/
def execRemoteMessageReceive (m : RemoteMsg) : State → Host.Outcome State Fault Refusal := event (fun s => remoteReceive s m)

/-! ### The package (R280, R466 to R469) -/

/-- The first strand of the monitor: the state of R37 at the entry point of its image. DESIGN CHOICE: log entry 8. -/
def monitorStrand (m : MonitorImage) : Strand :=
  { Strand.reset with key := 1, sid := 1, gid := 1, pc := m.entry &&& ~~~1#64, ydl := 8192, seat := .slot 0 }

/-- The firmware loads the monitor into DID 0 (R466): a memory range, its bytes there, its page table and trap vector, and its first strand in slot 0 of core 0. What the
image holds is a free value. DESIGN CHOICE: log entry 8. -/
def loadMonitor (s : State) (m : MonitorImage) : State :=
  let r := (alignDown (m.base % 2 ^ 48) (2 ^ 21), m.len % 2 ^ 32)
  let s := updDom s 0 (fun b => { b with troot := alignDown m.root 4096 % 2 ^ 48, tvec := m.tvec &&& ~~~1#64, ranges := r :: b.ranges.drop 1 })
  let s := { s with mem := (m.bytes.filter (fun e => inRange e.1 r && namesDram e.1)).foldl (fun x e => memSet x e.1 e.2) s.mem }
  let s := updCore s 0 (fun c => { c with slotown := c.slotown.set 0 0, curown := c.curown.set 0 0 })
  { s with others := s.others ++ [monitorStrand m], nextSid := 2, nextGid := 2 }

/-- The package after a reset whose image has been verified (R466): ports trained (R457), the GTC at 0, spares enabled, PKGID assigned (R452), the monitor loaded; the counter of leaf
indices stays (R467). DEDUCED: log entry 62. DEDUCED: log entry 67. -/
def booted (s : State) : State :=
  loadMonitor { State.reset with
    agenda := s.agenda
    fresh := s.fresh + 3
    pkgid := (Config.pkgid s.fresh).toNat
    boot := { State.reset.boot with leaf := s.boot.leaf }
    ports := (List.range 144).map (fun p => (p, { Port.reset with up := true, lanes := 2, switch := (Config.switchId (s.fresh + 2) p).toNat })) } (Config.monitor (s.fresh + 1))

/-- PACKAGE_RESET (R466): an image that fails verification is not run. -/
def execPackageReset (good : Bool) : State → Host.Outcome State Fault Refusal :=
  fun s => .next (if good then booted s else { State.reset with
    agenda := s.agenda
    fresh := s.fresh
    boot := { State.reset.boot with leaf := s.boot.leaf, recovery := true } })

/-- The bytes of an attestation report (R467): the two measurements, PKGID, the topology generation, the nonce, the leaf index and the signature. -/
def report (s : State) (nonce : BitVec 256) : List Byte :=
  Config.measurement s.fresh ++ leBytes 8 s.pkgid ++ leBytes 8 s.health.tgen ++ leBytes 32 nonce.toNat ++ leBytes 4 s.boot.leaf ++ Config.signature s.fresh

/-- An attestation request (R467): no leaf index is used twice, and none is left after 2^20. -/
def attest (s : State) (nonce : BitVec 256) : State :=
  if 2 ^ 20 ≤ s.boot.leaf then { s with boot := { s.boot with refused := s.boot.refused + 1 } }
  else { s with
    fresh := s.fresh + 1
    boot := { s.boot with leaf := s.boot.leaf + 1, reports := s.boot.reports ++ [report s nonce] } }

/-- ATTESTATION_REQUEST (R467). -/
def execAttestationRequest (nonce : BitVec 256) : State → Host.Outcome State Fault Refusal := event (fun s => attest s nonce)

/-- CLOCK_THROTTLE (R469): the GTC and the calendar do not change. -/
def execClockThrottle (low : Bool) : State → Host.Outcome State Fault Refusal :=
  event (fun s => { s with boot := { s.boot with throttled := low } })

/-- WRITEBACK_REACHES_ARRAYS (R280): the oldest write-back of a line that is still queued. -/
def execWritebackReachesArrays (line : Nat) : State → Host.Outcome State Fault Refusal :=
  event (fun s => match s.wq.find? (fun w => w.line == line) with
    | some w => wbArrive s w.id
    | none => s)

end Sys2Proof.Machine
end

