-- ==== Sys2Proof/Machine/Scalar.lean ====
section
/-! DEFINITION. Page 0: integer and logic forms, shifts, compares, predicate logic and selection. -/

namespace Sys2Proof.Machine

/-- ADD (R80). -/
def execAdd (g : Guard) (a : SOp) (b : SOp) (c : SOp) : State → Host.Outcome State Fault Refusal :=
  op3 g a b c (fun _ x y => x + y)

/-- SUB (R80). -/
def execSub (g : Guard) (a : SOp) (b : SOp) (c : SOp) : State → Host.Outcome State Fault Refusal :=
  op3 g a b c (fun _ x y => x - y)

/-- AND (R80). -/
def execAnd (g : Guard) (a : SOp) (b : SOp) (c : SOp) : State → Host.Outcome State Fault Refusal :=
  op3 g a b c (fun _ x y => x &&& y)

/-- OR (R80). -/
def execOr (g : Guard) (a : SOp) (b : SOp) (c : SOp) : State → Host.Outcome State Fault Refusal :=
  op3 g a b c (fun _ x y => x ||| y)

/-- XOR (R80). -/
def execXor (g : Guard) (a : SOp) (b : SOp) (c : SOp) : State → Host.Outcome State Fault Refusal :=
  op3 g a b c (fun _ x y => x ^^^ y)

/-- SEL reads both sources whatever P[n] holds (R84). -/
def execSel (g : Guard) (a : SOp) (b : SOp) (c : SOp) (n : Fin 16) : State → Host.Outcome State Fault Refusal :=
  op3 g a b c (fun s x y => if pbit s n.val then x else y)

/-- CMP of two registers (R82). -/
def execCmpReg (g : Guard) (a : PBit) (b : SOp) (c : SOp) (k : Cond) : State → Host.Outcome State Fault Refusal :=
  opPred g a b c (condHolds k)

/-- CMP with a sign-extended immediate (R82). -/
def execCmpImm (g : Guard) (a : PBit) (b : SOp) (imm : Int) (k : Cond) : State → Host.Outcome State Fault Refusal :=
  issue (opIssue g [b] [] [] []) (fun s => withRead s b (fun s x => .done (setPbit s a.val (condHolds k x (wInt imm)))))

/-- LI (R80). -/
def execLi (g : Guard) (a : SOp) (imm : Int) : State → Host.Outcome State Fault Refusal :=
  issue (opIssue g [] [a] [] []) (fun s => withWrite s a (wInt imm))

/-- LEA makes no memory access (R80). -/
def execLea (g : Guard) (a : SOp) (b : SOp) (off : Int) : State → Host.Outcome State Fault Refusal :=
  op2 g a b (fun _ x => x + wInt off)

/-- MOV (R80). -/
def execMov (g : Guard) (a : SOp) (b : SOp) : State → Host.Outcome State Fault Refusal :=
  op2 g a b (fun _ x => x)

/-- ANDN (R80). -/
def execAndn (g : Guard) (a : SReg) (b : SOp) : State → Host.Outcome State Fault Refusal :=
  opRmw g a b (fun _ z x => z &&& ~~~x)

/-- SHL by a register: the amount is s[b][5:0] (R81). -/
def execShlReg (g : Guard) (a : SReg) (b : SOp) : State → Host.Outcome State Fault Refusal :=
  opRmw g a b (fun _ z x => z <<< (wbits x 5 0))

/-- SHL by an immediate (R81). -/
def execShlImm (g : Guard) (a : SReg) (k : Nat) : State → Host.Outcome State Fault Refusal :=
  issue (opIssue g [] [] [a.val] [a.val]) (fun s => .done (setSreg s a.val (let z := sreg s a.val; z <<< k)))

/-- SHR by a register: the amount is s[b][5:0] (R81). -/
def execShrReg (g : Guard) (a : SReg) (b : SOp) : State → Host.Outcome State Fault Refusal :=
  opRmw g a b (fun _ z x => z >>> (wbits x 5 0))

/-- SHR by an immediate (R81). -/
def execShrImm (g : Guard) (a : SReg) (k : Nat) : State → Host.Outcome State Fault Refusal :=
  issue (opIssue g [] [] [a.val] [a.val]) (fun s => .done (setSreg s a.val (let z := sreg s a.val; z >>> k)))

/-- SRA by a register: the amount is s[b][5:0] (R81). -/
def execSraReg (g : Guard) (a : SReg) (b : SOp) : State → Host.Outcome State Fault Refusal :=
  opRmw g a b (fun _ z x => z.sshiftRight (wbits x 5 0))

/-- SRA by an immediate (R81). -/
def execSraImm (g : Guard) (a : SReg) (k : Nat) : State → Host.Outcome State Fault Refusal :=
  issue (opIssue g [] [] [a.val] [a.val]) (fun s => .done (setSreg s a.val (let z := sreg s a.val; z.sshiftRight k)))

/-- PSET.AND (R83). -/
def execPsetAnd (g : Guard) (a : PBit) (b : PBit) : State → Host.Outcome State Fault Refusal :=
  issue (scalar g [] []) (fun s => .done (setPbit s a.val (pbit s a.val && pbit s b.val)))

/-- PSET.OR (R83). -/
def execPsetOr (g : Guard) (a : PBit) (b : PBit) : State → Host.Outcome State Fault Refusal :=
  issue (scalar g [] []) (fun s => .done (setPbit s a.val (pbit s a.val || pbit s b.val)))

/-- PSET.XOR (R83). -/
def execPsetXor (g : Guard) (a : PBit) (b : PBit) : State → Host.Outcome State Fault Refusal :=
  issue (scalar g [] []) (fun s => .done (setPbit s a.val (pbit s a.val != pbit s b.val)))

/-- PSET.ANDN (R83). -/
def execPsetAndn (g : Guard) (a : PBit) (b : PBit) : State → Host.Outcome State Fault Refusal :=
  issue (scalar g [] []) (fun s => .done (setPbit s a.val (pbit s a.val && !pbit s b.val)))

/-- PSET.MOV (R83). -/
def execPsetMov (g : Guard) (a : PBit) (b : PBit) : State → Host.Outcome State Fault Refusal :=
  issue (scalar g [] []) (fun s => .done (setPbit s a.val (pbit s b.val)))

/-- PSET.NOT (R83). -/
def execPsetNot (g : Guard) (a : PBit) (b : PBit) : State → Host.Outcome State Fault Refusal :=
  issue (scalar g [] []) (fun s => .done (setPbit s a.val (!pbit s b.val)))

/-- NOP (R102). -/
def execNop (g : Guard) : State → Host.Outcome State Fault Refusal :=
  issue (scalar g [] []) (fun s => .done s)

end Sys2Proof.Machine
end

