-- ==== Sys2Proof/Machine/Dispatch.lean ====
section
/-! DEFINITION. One arm per instruction and event of the table of operations: a call of its meaning. -/

namespace Sys2Proof.Machine

/-- The meaning of an instruction. -/
def exec (i : Instr) (s : State) : Host.Outcome State Fault Refusal :=
  match i with
  | .add g a b c => Sys2Proof.Machine.execAdd g a b c s
  | .sub g a b c => Sys2Proof.Machine.execSub g a b c s
  | .and g a b c => Sys2Proof.Machine.execAnd g a b c s
  | .or g a b c => Sys2Proof.Machine.execOr g a b c s
  | .xor g a b c => Sys2Proof.Machine.execXor g a b c s
  | .sel g a b c n => Sys2Proof.Machine.execSel g a b c n s
  | .cmpReg g a b c k => Sys2Proof.Machine.execCmpReg g a b c k s
  | .cmpImm g a b imm k => Sys2Proof.Machine.execCmpImm g a b imm k s
  | .li g a imm => Sys2Proof.Machine.execLi g a imm s
  | .j g imm => Sys2Proof.Machine.execJ g imm s
  | .ldB g a b off => Sys2Proof.Machine.execLdB g a b off s
  | .ldBu g a b off => Sys2Proof.Machine.execLdBu g a b off s
  | .ldH g a b off => Sys2Proof.Machine.execLdH g a b off s
  | .ldHu g a b off => Sys2Proof.Machine.execLdHu g a b off s
  | .ldW g a b off => Sys2Proof.Machine.execLdW g a b off s
  | .ldWu g a b off => Sys2Proof.Machine.execLdWu g a b off s
  | .ldD g a b off => Sys2Proof.Machine.execLdD g a b off s
  | .lea g a b off => Sys2Proof.Machine.execLea g a b off s
  | .stB g a b off => Sys2Proof.Machine.execStB g a b off s
  | .stH g a b off => Sys2Proof.Machine.execStH g a b off s
  | .stW g a b off => Sys2Proof.Machine.execStW g a b off s
  | .stD g a b off => Sys2Proof.Machine.execStD g a b off s
  | .ldq g a b off => Sys2Proof.Machine.execLdq g a b off s
  | .stq g a b off => Sys2Proof.Machine.execStq g a b off s
  | .mov g a b => Sys2Proof.Machine.execMov g a b s
  | .andn g a b => Sys2Proof.Machine.execAndn g a b s
  | .shlReg g a b => Sys2Proof.Machine.execShlReg g a b s
  | .shrReg g a b => Sys2Proof.Machine.execShrReg g a b s
  | .sraReg g a b => Sys2Proof.Machine.execSraReg g a b s
  | .shlImm g a k => Sys2Proof.Machine.execShlImm g a k s
  | .shrImm g a k => Sys2Proof.Machine.execShrImm g a k s
  | .sraImm g a k => Sys2Proof.Machine.execSraImm g a k s
  | .psetAnd g a b => Sys2Proof.Machine.execPsetAnd g a b s
  | .psetOr g a b => Sys2Proof.Machine.execPsetOr g a b s
  | .psetXor g a b => Sys2Proof.Machine.execPsetXor g a b s
  | .psetAndn g a b => Sys2Proof.Machine.execPsetAndn g a b s
  | .psetMov g a b => Sys2Proof.Machine.execPsetMov g a b s
  | .psetNot g a b => Sys2Proof.Machine.execPsetNot g a b s
  | .jr g a => Sys2Proof.Machine.execJr g a s
  | .nop g => Sys2Proof.Machine.execNop g s
  | .bTrue g a imm => Sys2Proof.Machine.execBTrue g a imm s
  | .bFalse g a imm => Sys2Proof.Machine.execBFalse g a imm s
  | .jal g a imm => Sys2Proof.Machine.execJal g a imm s
  | .mul g a b c => Sys2Proof.Machine.execMul g a b c s
  | .mulh g a b c => Sys2Proof.Machine.execMulh g a b c s
  | .mulhu g a b c => Sys2Proof.Machine.execMulhu g a b c s
  | .div g a b c => Sys2Proof.Machine.execDiv g a b c s
  | .divu g a b c => Sys2Proof.Machine.execDivu g a b c s
  | .rem g a b c => Sys2Proof.Machine.execRem g a b c s
  | .remu g a b c => Sys2Proof.Machine.execRemu g a b c s
  | .min g a b c => Sys2Proof.Machine.execMin g a b c s
  | .max g a b c => Sys2Proof.Machine.execMax g a b c s
  | .minu g a b c => Sys2Proof.Machine.execMinu g a b c s
  | .maxu g a b c => Sys2Proof.Machine.execMaxu g a b c s
  | .rol g a b c => Sys2Proof.Machine.execRol g a b c s
  | .ror g a b c => Sys2Proof.Machine.execRor g a b c s
  | .clmul g a b c => Sys2Proof.Machine.execClmul g a b c s
  | .clmulh g a b c => Sys2Proof.Machine.execClmulh g a b c s
  | .bext g a b c => Sys2Proof.Machine.execBext g a b c s
  | .bins g a b c => Sys2Proof.Machine.execBins g a b c s
  | .clz g a b => Sys2Proof.Machine.execClz g a b s
  | .ctz g a b => Sys2Proof.Machine.execCtz g a b s
  | .popc g a b => Sys2Proof.Machine.execPopc g a b s
  | .brev g a b => Sys2Proof.Machine.execBrev g a b s
  | .bswap g a b => Sys2Proof.Machine.execBswap g a b s
  | .sextB g a b => Sys2Proof.Machine.execSextB g a b s
  | .sextH g a b => Sys2Proof.Machine.execSextH g a b s
  | .sextW g a b => Sys2Proof.Machine.execSextW g a b s
  | .zextB g a b => Sys2Proof.Machine.execZextB g a b s
  | .zextH g a b => Sys2Proof.Machine.execZextH g a b s
  | .zextW g a b => Sys2Proof.Machine.execZextW g a b s
  | .mfp g a => Sys2Proof.Machine.execMfp g a s
  | .mtp g a => Sys2Proof.Machine.execMtp g a s
  | .fadd g a b c => Sys2Proof.Machine.execFadd g a b c s
  | .fsub g a b c => Sys2Proof.Machine.execFsub g a b c s
  | .fmul g a b c => Sys2Proof.Machine.execFmul g a b c s
  | .fdiv g a b c => Sys2Proof.Machine.execFdiv g a b c s
  | .fmin g a b c => Sys2Proof.Machine.execFmin g a b c s
  | .fmax g a b c => Sys2Proof.Machine.execFmax g a b c s
  | .ffma g a b c => Sys2Proof.Machine.execFfma g a b c s
  | .fcmp g a b c k => Sys2Proof.Machine.execFcmp g a b c k s
  | .fcvtF32S64 g a b => Sys2Proof.Machine.execFcvtF32S64 g a b s
  | .fcvtS64F32 g a b => Sys2Proof.Machine.execFcvtS64F32 g a b s
  | .fcvtF32U64 g a b => Sys2Proof.Machine.execFcvtF32U64 g a b s
  | .fcvtU64F32 g a b => Sys2Proof.Machine.execFcvtU64F32 g a b s
  | .fcvtF32Bf16 g a b => Sys2Proof.Machine.execFcvtF32Bf16 g a b s
  | .fcvtBf16F32 g a b => Sys2Proof.Machine.execFcvtBf16F32 g a b s
  | .vAdd g a b c => Sys2Proof.Machine.execVAdd g a b c s
  | .vSub g a b c => Sys2Proof.Machine.execVSub g a b c s
  | .vMul g a b c => Sys2Proof.Machine.execVMul g a b c s
  | .vFma g a b c => Sys2Proof.Machine.execVFma g a b c s
  | .vMin g a b c => Sys2Proof.Machine.execVMin g a b c s
  | .vMax g a b c => Sys2Proof.Machine.execVMax g a b c s
  | .vAnd g a b c => Sys2Proof.Machine.execVAnd g a b c s
  | .vOr g a b c => Sys2Proof.Machine.execVOr g a b c s
  | .vXor g a b c => Sys2Proof.Machine.execVXor g a b c s
  | .vShl g a b c => Sys2Proof.Machine.execVShl g a b c s
  | .vShr g a b c => Sys2Proof.Machine.execVShr g a b c s
  | .vCmp g a b c k => Sys2Proof.Machine.execVCmp g a b c k s
  | .vSel g a b c => Sys2Proof.Machine.execVSel g a b c s
  | .vClmul g a b c => Sys2Proof.Machine.execVClmul g a b c s
  | .vAbs g a b => Sys2Proof.Machine.execVAbs g a b s
  | .vNeg g a b => Sys2Proof.Machine.execVNeg g a b s
  | .vPopc g a b => Sys2Proof.Machine.execVPopc g a b s
  | .vAddF g a b c => Sys2Proof.Machine.execVAddF g a b c s
  | .vSubF g a b c => Sys2Proof.Machine.execVSubF g a b c s
  | .vMulF g a b c => Sys2Proof.Machine.execVMulF g a b c s
  | .vFmaF g a b c => Sys2Proof.Machine.execVFmaF g a b c s
  | .vMinF g a b c => Sys2Proof.Machine.execVMinF g a b c s
  | .vMaxF g a b c => Sys2Proof.Machine.execVMaxF g a b c s
  | .vCmpF g a b c k => Sys2Proof.Machine.execVCmpF g a b c k s
  | .vAbsF g a b => Sys2Proof.Machine.execVAbsF g a b s
  | .vNegF g a b => Sys2Proof.Machine.execVNegF g a b s
  | .vExp2 g a b => Sys2Proof.Machine.execVExp2 g a b s
  | .vLog2 g a b => Sys2Proof.Machine.execVLog2 g a b s
  | .vRcp g a b => Sys2Proof.Machine.execVRcp g a b s
  | .vRsq g a b => Sys2Proof.Machine.execVRsq g a b s
  | .vTanh g a b => Sys2Proof.Machine.execVTanh g a b s
  | .vShape g lrows esz => Sys2Proof.Machine.execVShape g lrows esz s
  | .vLd g a b c => Sys2Proof.Machine.execVLd g a b c s
  | .vSt g a b c => Sys2Proof.Machine.execVSt g a b c s
  | .vBcast g a b => Sys2Proof.Machine.execVBcast g a b s
  | .vTrn g a b => Sys2Proof.Machine.execVTrn g a b s
  | .vMovxToScalar g a b c => Sys2Proof.Machine.execVMovxToScalar g a b c s
  | .vMovxToElement g a b c => Sys2Proof.Machine.execVMovxToElement g a b c s
  | .vCvt g dst src a b => Sys2Proof.Machine.execVCvt g dst src a b s
  | .vRedr g op a b => Sys2Proof.Machine.execVRedr g op a b s
  | .vRedc g op a b => Sys2Proof.Machine.execVRedc g op a b s
  | .vScan g op a b => Sys2Proof.Machine.execVScan g op a b s
  | .vPerm g a b c => Sys2Proof.Machine.execVPerm g a b c s
  | .vMaskb g a b c row => Sys2Proof.Machine.execVMaskb g a b c row s
  | .lrw g sc a b => Sys2Proof.Machine.execLrw g sc a b s
  | .sch g sc a b => Sys2Proof.Machine.execSch g sc a b s
  | .rls g sc b => Sys2Proof.Machine.execRls g sc b s
  | .amoD g o sc op a b c => Sys2Proof.Machine.execAmoD g o sc op a b c s
  | .amoW g o sc op a b c => Sys2Proof.Machine.execAmoW g o sc op a b c s
  | .amoH g o sc op a b c => Sys2Proof.Machine.execAmoH g o sc op a b c s
  | .casD g o sc a b c => Sys2Proof.Machine.execCasD g o sc a b c s
  | .casQ g o sc a b c => Sys2Proof.Machine.execCasQ g o sc a b c s
  | .red g o sc wd op b c => Sys2Proof.Machine.execRed g o sc wd op b c s
  | .fence g sc => Sys2Proof.Machine.execFence g sc s
  | .fenceS g sc => Sys2Proof.Machine.execFenceS g sc s
  | .fenceX g sc k1 k2 => Sys2Proof.Machine.execFenceX g sc k1 k2 s
  | .clkmax g a => Sys2Proof.Machine.execClkmax g a s
  | .rdtck g a => Sys2Proof.Machine.execRdtck g a s
  | .mwait g => Sys2Proof.Machine.execMwait g s
  | .poll g sc a b => Sys2Proof.Machine.execPoll g sc a b s
  | .mon g sc b => Sys2Proof.Machine.execMon g sc b s
  | .bari g sc a b => Sys2Proof.Machine.execBari g sc a b s
  | .bara g sc a b => Sys2Proof.Machine.execBara g sc a b s
  | .barx g sc a b => Sys2Proof.Machine.execBarx g sc a b s
  | .barw g sc a b => Sys2Proof.Machine.execBarw g sc a b s
  | .sdef g a b => Sys2Proof.Machine.execSdef g a b s
  | .sbind g a b => Sys2Proof.Machine.execSbind g a b s
  | .sgo g b => Sys2Proof.Machine.execSgo g b s
  | .srecall g b => Sys2Proof.Machine.execSrecall g b s
  | .sstat g a b => Sys2Proof.Machine.execSstat g a b s
  | .swait g b => Sys2Proof.Machine.execSwait g b s
  | .sfree g b => Sys2Proof.Machine.execSfree g b s
  | .tseal g b => Sys2Proof.Machine.execTseal g b s
  | .tpref g b => Sys2Proof.Machine.execTpref g b s
  | .tstat g a b => Sys2Proof.Machine.execTstat g a b s
  | .tcopySp g a b c => Sys2Proof.Machine.execTcopySp g a b c s
  | .tcopySlot g a b c => Sys2Proof.Machine.execTcopySlot g a b c s
  | .tcopyWs g a b c => Sys2Proof.Machine.execTcopyWs g a b c s
  | .tcopyMem g a b c => Sys2Proof.Machine.execTcopyMem g a b c s
  | .tcopym g a b c => Sys2Proof.Machine.execTcopym g a b c s
  | .tred g op a b c => Sys2Proof.Machine.execTred g op a b c s
  | .mma g a b c => Sys2Proof.Machine.execMma g a b c s
  | .mclmSlot g a => Sys2Proof.Machine.execMclmSlot g a s
  | .mclmAcc g a => Sys2Proof.Machine.execMclmAcc g a s
  | .mrelSlot g a => Sys2Proof.Machine.execMrelSlot g a s
  | .mrelAcc g a => Sys2Proof.Machine.execMrelAcc g a s
  | .mzero g a => Sys2Proof.Machine.execMzero g a s
  | .mstat g a => Sys2Proof.Machine.execMstat g a s
  | .mfill g a b c => Sys2Proof.Machine.execMfill g a b c s
  | .mfillV g a b => Sys2Proof.Machine.execMfillV g a b s
  | .mldw g a b => Sys2Proof.Machine.execMldw g a b s
  | .mscl g a b => Sys2Proof.Machine.execMscl g a b s
  | .mstc g a b c => Sys2Proof.Machine.execMstc g a b c s
  | .mstcV g a b => Sys2Proof.Machine.execMstcV g a b s
  | .mig g b => Sys2Proof.Machine.execMig g b s
  | .migBank g b => Sys2Proof.Machine.execMigBank g b s
  | .mbwait g => Sys2Proof.Machine.execMbwait g s
  | .mbrecv g a b => Sys2Proof.Machine.execMbrecv g a b s
  | .mbsend g a b => Sys2Proof.Machine.execMbsend g a b s
  | .qstat g a b => Sys2Proof.Machine.execQstat g a b s
  | .bkseq g b => Sys2Proof.Machine.execBkseq g b s
  | .bkstat g a b => Sys2Proof.Machine.execBkstat g a b s
  | .drzero g a b => Sys2Proof.Machine.execDrzero g a b s
  | .amsg g a b c => Sys2Proof.Machine.execAmsg g a b c s
  | .bkadd g a b c => Sys2Proof.Machine.execBkadd g a b c s
  | .bkmul g a b c => Sys2Proof.Machine.execBkmul g a b c s
  | .bkfma g a b c => Sys2Proof.Machine.execBkfma g a b c s
  | .drcpy g a b => Sys2Proof.Machine.execDrcpy g a b s
  | .retire g => Sys2Proof.Machine.execRetire g s
  | .tret => Sys2Proof.Machine.execTret s
  | .gret => Sys2Proof.Machine.execGret s
  | .gsync g => Sys2Proof.Machine.execGsync g s
  | .repart g m => Sys2Proof.Machine.execRepart g m s
  | .rdgtc g a => Sys2Proof.Machine.execRdgtc g a s
  | .rdcal g a n => Sys2Proof.Machine.execRdcal g a n s
  | .slotset g b => Sys2Proof.Machine.execSlotset g b s
  | .step g b => Sys2Proof.Machine.execStep g b s
  | .mfc g a cr => Sys2Proof.Machine.execMfc g a cr s
  | .mtc g cr a => Sys2Proof.Machine.execMtc g cr a s
  | .trap g imm => Sys2Proof.Machine.execTrap g imm s
  | .yield d => Sys2Proof.Machine.execYield d s
  | .gate n => Sys2Proof.Machine.execGate n s
  | .launch g a b c => Sys2Proof.Machine.execLaunch g a b c s
  | .launchW g a b c => Sys2Proof.Machine.execLaunchW g a b c s
  | .launchi g a b c => Sys2Proof.Machine.execLaunchi g a b c s
  | .launchiW g a b c => Sys2Proof.Machine.execLaunchiW g a b c s
  | .clnr g a b => Sys2Proof.Machine.execClnr g a b s
  | .invr g a b => Sys2Proof.Machine.execInvr g a b s
  | .flsr g a b => Sys2Proof.Machine.execFlsr g a b s
  | .pref g a b => Sys2Proof.Machine.execPref g a b s
  | .tlbi g a b => Sys2Proof.Machine.execTlbi g a b s
  | .tlbsd g a b => Sys2Proof.Machine.execTlbsd g a b s
  | .asyncCauseDelivery => Sys2Proof.Machine.execAsyncCauseDelivery s
  | .yieldOverrun => Sys2Proof.Machine.execYieldOverrun s
  | .handlerOverrun => Sys2Proof.Machine.execHandlerOverrun s
  | .bankReturnTrap => Sys2Proof.Machine.execBankReturnTrap s
  | .loadCompletion k => Sys2Proof.Machine.execLoadCompletion k s
  | .storeHomePerform k id => Sys2Proof.Machine.execStoreHomePerform k id s
  | .storeAcknowledgement k id => Sys2Proof.Machine.execStoreAcknowledgement k id s
  | .redHomeStep k id => Sys2Proof.Machine.execRedHomeStep k id s
  | .prefetchFill => Sys2Proof.Machine.execPrefetchFill s
  | .shootdownHolderDrop h => Sys2Proof.Machine.execShootdownHolderDrop h s
  | .remoteScratchpadAccess k id => Sys2Proof.Machine.execRemoteScratchpadAccess k id s
  | .handlerStart c => Sys2Proof.Machine.execHandlerStart c s
  | .amsgReply k => Sys2Proof.Machine.execAmsgReply k s
  | .migrationRunqGrant c => Sys2Proof.Machine.execMigrationRunqGrant c s
  | .migrationPacketArrival k => Sys2Proof.Machine.execMigrationPacketArrival k s
  | .seatEntry c d => Sys2Proof.Machine.execSeatEntry c d s
  | .maltsterDispatch die => Sys2Proof.Machine.execMaltsterDispatch die s
  | .launchWordWatch r => Sys2Proof.Machine.execLaunchWordWatch r s
  | .regionDependenceReread r => Sys2Proof.Machine.execRegionDependenceReread r s
  | .priorityAging r => Sys2Proof.Machine.execPriorityAging r s
  | .launchiCountRead r => Sys2Proof.Machine.execLaunchiCountRead r s
  | .launchParkRelease k => Sys2Proof.Machine.execLaunchParkRelease k s
  | .gsyncComplete gid => Sys2Proof.Machine.execGsyncComplete gid s
  | .slotRotationHandover c slot => Sys2Proof.Machine.execSlotRotationHandover c slot s
  | .heldMessageDelivery c d => Sys2Proof.Machine.execHeldMessageDelivery c d s
  | .mbwaitWake c d => Sys2Proof.Machine.execMbwaitWake c d s
  | .reservationGrant pa => Sys2Proof.Machine.execReservationGrant pa s
  | .barwWake k => Sys2Proof.Machine.execBarwWake k s
  | .mwaitWake k => Sys2Proof.Machine.execMwaitWake k s
  | .swaitWake k => Sys2Proof.Machine.execSwaitWake k s
  | .minorSlotStart => Sys2Proof.Machine.execMinorSlotStart s
  | .majorSlotStart => Sys2Proof.Machine.execMajorSlotStart s
  | .drainDeadline => Sys2Proof.Machine.execDrainDeadline s
  | .intervalEnd => Sys2Proof.Machine.execIntervalEnd s
  | .streamElement c x float => Sys2Proof.Machine.execStreamElement c x float s
  | .streamRecallArrive c x => Sys2Proof.Machine.execStreamRecallArrive c x s
  | .streamWindowFill c x => Sys2Proof.Machine.execStreamWindowFill c x s
  | .streamPushWrite c x => Sys2Proof.Machine.execStreamPushWrite c x s
  | .copyBurst c id => Sys2Proof.Machine.execCopyBurst c id s
  | .copyCompletion c id => Sys2Proof.Machine.execCopyCompletion c id s
  | .mmaCompletion c => Sys2Proof.Machine.execMmaCompletion c s
  | .matrixCommandCompletion c => Sys2Proof.Machine.execMatrixCommandCompletion c s
  | .bankRowOperation ch => Sys2Proof.Machine.execBankRowOperation ch s
  | .bankCommandEnd id => Sys2Proof.Machine.execBankCommandEnd id s
  | .scratchpadBankHandover c bank => Sys2Proof.Machine.execScratchpadBankHandover c bank s
  | .partitionReset d => Sys2Proof.Machine.execPartitionReset d s
  | .fatalError u => Sys2Proof.Machine.execFatalError u s
  | .partitionRegisterWrite addr val => Sys2Proof.Machine.execPartitionRegisterWrite addr val s
  | .slotownWrite c slot d => Sys2Proof.Machine.execSlotownWrite c slot d s
  | .spbankWrite c d m => Sys2Proof.Machine.execSpbankWrite c d m s
  | .wsgWrite c d m => Sys2Proof.Machine.execWsgWrite c d m s
  | .frelm c d m => Sys2Proof.Machine.execFrelm c d m s
  | .frelc c d m => Sys2Proof.Machine.execFrelc c d m s
  | .mboxWrite c d n => Sys2Proof.Machine.execMboxWrite c d n s
  | .strqWrite c d n => Sys2Proof.Machine.execStrqWrite c d n s
  | .setRangeWrite sl ix val => Sys2Proof.Machine.execSetRangeWrite sl ix val s
  | .schedWrite d val => Sys2Proof.Machine.execSchedWrite d val s
  | .partitionResetRequest d => Sys2Proof.Machine.execPartitionResetRequest d s
  | .partitionCreate d => Sys2Proof.Machine.execPartitionCreate d s
  | .hportWrite d port => Sys2Proof.Machine.execHportWrite d port s
  | .healthWclr => Sys2Proof.Machine.execHealthWclr s
  | .biasFlipRequest val => Sys2Proof.Machine.execBiasFlipRequest val s
  | .hostBiasFlipCommand ld page host => Sys2Proof.Machine.execHostBiasFlipCommand ld page host s
  | .hostWrite fn port ld addr data ro => Sys2Proof.Machine.execHostWrite fn port ld addr data ro s
  | .hostRead fn port ld addr n => Sys2Proof.Machine.execHostRead fn port ld addr n s
  | .ldBind ld d => Sys2Proof.Machine.execLdBind ld d s
  | .interruptRequest val => Sys2Proof.Machine.execInterruptRequest val s
  | .interruptCoalesceExpiry d => Sys2Proof.Machine.execInterruptCoalesceExpiry d s
  | .thaythFrameReceive port good => Sys2Proof.Machine.execThaythFrameReceive port good s
  | .thaythPortDown port => Sys2Proof.Machine.execThaythPortDown port s
  | .remoteMessageReceive m => Sys2Proof.Machine.execRemoteMessageReceive m s
  | .packageReset good => Sys2Proof.Machine.execPackageReset good s
  | .attestationRequest nonce => Sys2Proof.Machine.execAttestationRequest nonce s
  | .clockThrottle low => Sys2Proof.Machine.execClockThrottle low s
  | .illegalEncoding wd => Sys2Proof.Machine.execIllegalEncoding wd s
  | .instructionFetchFault cause tval => Sys2Proof.Machine.execInstructionFetchFault cause tval s
  | .writebackReachesArrays line => Sys2Proof.Machine.execWritebackReachesArrays line s
  | .hostPortLaneFailure port lanes => Sys2Proof.Machine.execHostPortLaneFailure port lanes s
  | .virtualFunctionBind fn d => Sys2Proof.Machine.execVirtualFunctionBind fn d s

end Sys2Proof.Machine
end

