-- ==== Sys2Proof/WellFormed.lean ====
section
/-! DEFINITION. Which instructions have an encoding: the ranges of immediates and operands (R41, R45, R48, R50, R52, R53,
R59), at most one queue or stream operand (R46), and at most four prefix words (R40). An event has no encoding. -/

namespace Sys2Proof

/-- Whether `v` is a two's-complement value of `W` bits; only 0 has 0 bits (R41). -/
def fitsSigned (W : Nat) (v : Int) : Bool :=
  match W with
  | 0 => v == 0
  | n + 1 => decide (-(2 ^ n : Int) ≤ v) && decide (v < (2 ^ n : Int))

/-- The fewest IMX prefixes that give `v` as a signed immediate over a base immediate of `w` bits (R41, R67), if any do. -/
def imxNeeded (w : Nat) (v : Int) : Option Nat :=
  [0, 1, 2, 3].find? fun n => decide (10 * n + w ≤ 38) && fitsSigned (10 * n + w) v

/-- The fewest IMX prefixes of a shift amount: 4 bits, or 14 bits with one IMX, zero-extended (R50). -/
def shiftImxNeeded (k : Nat) : Option Nat :=
  if k < 16 then some 0 else if k < 64 then some 1 else none

/-- Prefix words a guard costs (R42). -/
def Guard.cost : Guard → Nat
  | .always => 0
  | .when _ _ => 1

/-- Whether a scalar operand names a queue or a stream (R46). -/
def SOp.special : SOp → Bool
  | .s _ => false
  | .q _ => true
  | .z _ => true

/-- Whether a scalar operand needs REX high bits (R45). -/
def SOp.high : SOp → Bool
  | .s r => decide (16 ≤ r.val)
  | .q _ => false
  | .z _ => false

/-- PAG.Q can name one operand only (R46). -/
def atMostOneSpecial (l : List SOp) : Bool := decide ((l.filter SOp.special).length ≤ 1)

/-- The chain of a form with an immediate has room for its prefixes (R40): the guard, a PAG when one is needed, a REX when
one is needed, and the IMX prefixes. -/
def chainFits (g : Guard) (pag rex : Bool) (imx : Option Nat) : Bool :=
  match imx with
  | none => false
  | some n => decide (g.cost + pag.toNat + rex.toNat + n ≤ 4)

/-- The operations AMO.D and RED.D accept (R53). -/
def AmoOp.okD : AmoOp → Bool
  | .faddBf16 => false
  | .faddF32 => false
  | _ => true

/-- The operations AMO.W and RED.W accept (R53). -/
def AmoOp.okW : AmoOp → Bool
  | .faddBf16 => false
  | _ => true

/-- The operation AMO.H and RED.H accept (R53). -/
def AmoOp.okH : AmoOp → Bool
  | .faddBf16 => true
  | _ => false

/-- The operations a RED of this width accepts (R53). -/
def RedWidth.accepts : RedWidth → AmoOp → Bool
  | .d, op => op.okD
  | .w, op => op.okW
  | .h, op => op.okH

/-- The orders RED accepts (R200). -/
def Order.okRed : Order → Bool
  | .relaxed => true
  | .release => true
  | _ => false

/-- Whether the instruction has an encoding. -/
def Instr.wf : Instr → Bool
  | .add _ a b c => atMostOneSpecial [a, b, c]
  | .sub _ a b c => atMostOneSpecial [a, b, c]
  | .and _ a b c => atMostOneSpecial [a, b, c]
  | .or _ a b c => atMostOneSpecial [a, b, c]
  | .xor _ a b c => atMostOneSpecial [a, b, c]
  | .sel _ a b c _ => atMostOneSpecial [a, b, c]
  | .cmpReg _ _ b c _ => atMostOneSpecial [b, c]
  | .cmpImm g a b imm k => chainFits g (b.special) (decide (16 ≤ a.val) || b.high || decide (k ≠ .eq)) (imxNeeded 4 imm)
  | .li g a imm => chainFits g (a.special) (a.high) (imxNeeded 8 imm)
  | .j g imm => chainFits g (false) (false) (imxNeeded 12 imm)
  | .ldB g a b off => atMostOneSpecial [a, b] && chainFits g (a.special || b.special) (a.high || b.high) (imxNeeded 0 off)
  | .ldBu g a b off => atMostOneSpecial [a, b] && chainFits g (a.special || b.special) (a.high || b.high) (imxNeeded 0 off)
  | .ldH g a b off => atMostOneSpecial [a, b] && chainFits g (a.special || b.special) (a.high || b.high) (imxNeeded 0 off)
  | .ldHu g a b off => atMostOneSpecial [a, b] && chainFits g (a.special || b.special) (a.high || b.high) (imxNeeded 0 off)
  | .ldW g a b off => atMostOneSpecial [a, b] && chainFits g (a.special || b.special) (a.high || b.high) (imxNeeded 0 off)
  | .ldWu g a b off => atMostOneSpecial [a, b] && chainFits g (a.special || b.special) (a.high || b.high) (imxNeeded 0 off)
  | .ldD g a b off => atMostOneSpecial [a, b] && chainFits g (a.special || b.special) (a.high || b.high) (imxNeeded 0 off)
  | .lea g a b off => atMostOneSpecial [a, b] && chainFits g (a.special || b.special) (a.high || b.high) (imxNeeded 0 off)
  | .stB g a b off => atMostOneSpecial [a, b] && chainFits g (a.special || b.special) (a.high || b.high) (imxNeeded 0 off)
  | .stH g a b off => atMostOneSpecial [a, b] && chainFits g (a.special || b.special) (a.high || b.high) (imxNeeded 0 off)
  | .stW g a b off => atMostOneSpecial [a, b] && chainFits g (a.special || b.special) (a.high || b.high) (imxNeeded 0 off)
  | .stD g a b off => atMostOneSpecial [a, b] && chainFits g (a.special || b.special) (a.high || b.high) (imxNeeded 0 off)
  | .ldq g a b off => decide (a.val % 2 = 0) && chainFits g (b.special) (decide (16 ≤ a.val) || b.high) (imxNeeded 0 off)
  | .stq g a b off => decide (a.val % 2 = 0) && chainFits g (b.special) (decide (16 ≤ a.val) || b.high) (imxNeeded 0 off)
  | .mov _ a b => atMostOneSpecial [a, b]
  | .andn _ _ _ => true
  | .shlReg _ _ _ => true
  | .shrReg _ _ _ => true
  | .sraReg _ _ _ => true
  | .shlImm g a k => chainFits g (false) (decide (16 ≤ a.val)) (shiftImxNeeded k)
  | .shrImm g a k => chainFits g (false) (decide (16 ≤ a.val)) (shiftImxNeeded k)
  | .sraImm g a k => chainFits g (false) (decide (16 ≤ a.val)) (shiftImxNeeded k)
  | .psetAnd _ _ _ => true
  | .psetOr _ _ _ => true
  | .psetXor _ _ _ => true
  | .psetAndn _ _ _ => true
  | .psetMov _ _ _ => true
  | .psetNot _ _ _ => true
  | .jr _ _ => true
  | .nop _ => true
  | .bTrue g a imm => chainFits g (false) (decide (16 ≤ a.val)) (imxNeeded 8 imm)
  | .bFalse g a imm => chainFits g (false) (decide (16 ≤ a.val)) (imxNeeded 8 imm)
  | .jal g a imm => chainFits g (a.special) (a.high) (imxNeeded 8 imm)
  | .mul _ a b c => atMostOneSpecial [a, b, c]
  | .mulh _ a b c => atMostOneSpecial [a, b, c]
  | .mulhu _ a b c => atMostOneSpecial [a, b, c]
  | .div _ a b c => atMostOneSpecial [a, b, c]
  | .divu _ a b c => atMostOneSpecial [a, b, c]
  | .rem _ a b c => atMostOneSpecial [a, b, c]
  | .remu _ a b c => atMostOneSpecial [a, b, c]
  | .min _ a b c => atMostOneSpecial [a, b, c]
  | .max _ a b c => atMostOneSpecial [a, b, c]
  | .minu _ a b c => atMostOneSpecial [a, b, c]
  | .maxu _ a b c => atMostOneSpecial [a, b, c]
  | .rol _ a b c => atMostOneSpecial [a, b, c]
  | .ror _ a b c => atMostOneSpecial [a, b, c]
  | .clmul _ a b c => atMostOneSpecial [a, b, c]
  | .clmulh _ a b c => atMostOneSpecial [a, b, c]
  | .bext _ a b c => atMostOneSpecial [a, b, c]
  | .bins _ _ b c => atMostOneSpecial [b, c]
  | .clz _ a b => atMostOneSpecial [a, b]
  | .ctz _ a b => atMostOneSpecial [a, b]
  | .popc _ a b => atMostOneSpecial [a, b]
  | .brev _ a b => atMostOneSpecial [a, b]
  | .bswap _ a b => atMostOneSpecial [a, b]
  | .sextB _ a b => atMostOneSpecial [a, b]
  | .sextH _ a b => atMostOneSpecial [a, b]
  | .sextW _ a b => atMostOneSpecial [a, b]
  | .zextB _ a b => atMostOneSpecial [a, b]
  | .zextH _ a b => atMostOneSpecial [a, b]
  | .zextW _ a b => atMostOneSpecial [a, b]
  | .mfp _ _ => true
  | .mtp _ _ => true
  | .fadd _ a b c => atMostOneSpecial [a, b, c]
  | .fsub _ a b c => atMostOneSpecial [a, b, c]
  | .fmul _ a b c => atMostOneSpecial [a, b, c]
  | .fdiv _ a b c => atMostOneSpecial [a, b, c]
  | .fmin _ a b c => atMostOneSpecial [a, b, c]
  | .fmax _ a b c => atMostOneSpecial [a, b, c]
  | .ffma _ _ b c => atMostOneSpecial [b, c]
  | .fcmp _ _ b c _ => atMostOneSpecial [b, c]
  | .fcvtF32S64 _ a b => atMostOneSpecial [a, b]
  | .fcvtS64F32 _ a b => atMostOneSpecial [a, b]
  | .fcvtF32U64 _ a b => atMostOneSpecial [a, b]
  | .fcvtU64F32 _ a b => atMostOneSpecial [a, b]
  | .fcvtF32Bf16 _ a b => atMostOneSpecial [a, b]
  | .fcvtBf16F32 _ a b => atMostOneSpecial [a, b]
  | .vAdd _ _ _ _ => true
  | .vSub _ _ _ _ => true
  | .vMul _ _ _ _ => true
  | .vFma _ _ _ _ => true
  | .vMin _ _ _ _ => true
  | .vMax _ _ _ _ => true
  | .vAnd _ _ _ _ => true
  | .vOr _ _ _ _ => true
  | .vXor _ _ _ _ => true
  | .vShl _ _ _ _ => true
  | .vShr _ _ _ _ => true
  | .vCmp _ _ _ _ _ => true
  | .vSel _ _ _ _ => true
  | .vClmul _ _ _ _ => true
  | .vAbs _ _ _ => true
  | .vNeg _ _ _ => true
  | .vPopc _ _ _ => true
  | .vAddF _ _ _ _ => true
  | .vSubF _ _ _ _ => true
  | .vMulF _ _ _ _ => true
  | .vFmaF _ _ _ _ => true
  | .vMinF _ _ _ _ => true
  | .vMaxF _ _ _ _ => true
  | .vCmpF _ _ _ _ _ => true
  | .vAbsF _ _ _ => true
  | .vNegF _ _ _ => true
  | .vExp2 _ _ _ => true
  | .vLog2 _ _ _ => true
  | .vRcp _ _ _ => true
  | .vRsq _ _ _ => true
  | .vTanh _ _ _ => true
  | .vShape _ lrows esz => decide (lrows.val + esz.val ≤ 10)
  | .vLd _ _ _ _ => true
  | .vSt _ _ _ _ => true
  | .vBcast _ _ _ => true
  | .vTrn _ _ _ => true
  | .vMovxToScalar _ _ _ _ => true
  | .vMovxToElement _ _ _ _ => true
  | .vCvt _ dst src _ _ => decide (dst ≠ src)
  | .vRedr _ _ _ _ => true
  | .vRedc _ _ _ _ => true
  | .vScan _ _ _ _ => true
  | .vPerm _ _ _ _ => true
  | .vMaskb _ _ _ _ _ => true
  | .lrw _ _ _ _ => true
  | .sch _ _ _ _ => true
  | .rls _ _ _ => true
  | .amoD _ _ _ op _ _ _ => op.okD
  | .amoW _ _ _ op _ _ _ => op.okW
  | .amoH _ _ _ op _ _ _ => op.okH
  | .casD _ _ _ _ _ _ => true
  | .casQ _ _ _ a _ c => decide (a.val % 2 = 0) && decide (c.val % 2 = 0)
  | .red _ o _ w op _ _ => o.okRed && w.accepts op
  | .fence _ _ => true
  | .fenceS _ _ => true
  | .fenceX _ _ _ _ => true
  | .clkmax _ _ => true
  | .rdtck _ _ => true
  | .mwait _ => true
  | .poll _ _ _ _ => true
  | .mon _ _ _ => true
  | .bari _ _ _ _ => true
  | .bara _ _ _ _ => true
  | .barx _ _ _ _ => true
  | .barw _ _ _ _ => true
  | .sdef _ _ _ => true
  | .sbind _ _ _ => true
  | .sgo _ _ => true
  | .srecall _ _ => true
  | .sstat _ _ _ => true
  | .swait _ _ => true
  | .sfree _ _ => true
  | .tseal _ _ => true
  | .tpref _ _ => true
  | .tstat _ _ _ => true
  | .tcopySp _ _ _ _ => true
  | .tcopySlot _ _ _ _ => true
  | .tcopyWs _ _ _ _ => true
  | .tcopyMem _ _ _ _ => true
  | .tcopym _ _ _ _ => true
  | .tred _ _ _ _ _ => true
  | .mma _ _ _ _ => true
  | .mclmSlot _ _ => true
  | .mclmAcc _ _ => true
  | .mrelSlot _ _ => true
  | .mrelAcc _ _ => true
  | .mzero _ _ => true
  | .mstat _ _ => true
  | .mfill _ _ _ _ => true
  | .mfillV _ _ _ => true
  | .mldw _ _ _ => true
  | .mscl _ _ _ => true
  | .mstc _ _ _ _ => true
  | .mstcV _ _ _ => true
  | .mig _ _ => true
  | .migBank _ _ => true
  | .mbwait _ => true
  | .mbrecv _ _ _ => true
  | .mbsend _ _ _ => true
  | .qstat _ _ _ => true
  | .bkseq _ _ => true
  | .bkstat _ _ _ => true
  | .drzero _ _ _ => true
  | .amsg _ _ _ _ => true
  | .bkadd _ _ _ _ => true
  | .bkmul _ _ _ _ => true
  | .bkfma _ _ _ _ => true
  | .drcpy _ _ _ => true
  | .retire _ => true
  | .tret => true
  | .gret => true
  | .gsync _ => true
  | .repart _ _ => true
  | .rdgtc _ _ => true
  | .rdcal _ _ _ => true
  | .slotset _ _ => true
  | .step _ _ => true
  | .mfc _ _ _ => true
  | .mtc _ _ _ => true
  | .trap g imm => chainFits g (true) (false) (imxNeeded 8 imm)
  | .yield _ => true
  | .gate _ => true
  | .launch _ _ _ _ => true
  | .launchW _ _ _ _ => true
  | .launchi _ _ _ _ => true
  | .launchiW _ _ _ _ => true
  | .clnr _ _ _ => true
  | .invr _ _ _ => true
  | .flsr _ _ _ => true
  | .pref _ _ _ => true
  | .tlbi _ _ _ => true
  | .tlbsd _ _ _ => true
  | .asyncCauseDelivery => false
  | .yieldOverrun => false
  | .handlerOverrun => false
  | .bankReturnTrap => false
  | .loadCompletion _ => false
  | .storeHomePerform _ _ => false
  | .storeAcknowledgement _ _ => false
  | .redHomeStep _ _ => false
  | .prefetchFill => false
  | .shootdownHolderDrop _ => false
  | .remoteScratchpadAccess _ _ => false
  | .handlerStart _ => false
  | .amsgReply _ => false
  | .migrationRunqGrant _ => false
  | .migrationPacketArrival _ => false
  | .seatEntry _ _ => false
  | .maltsterDispatch _ => false
  | .launchWordWatch _ => false
  | .regionDependenceReread _ => false
  | .priorityAging _ => false
  | .launchiCountRead _ => false
  | .launchParkRelease _ => false
  | .gsyncComplete _ => false
  | .slotRotationHandover _ _ => false
  | .heldMessageDelivery _ _ => false
  | .mbwaitWake _ _ => false
  | .reservationGrant _ => false
  | .barwWake _ => false
  | .mwaitWake _ => false
  | .swaitWake _ => false
  | .minorSlotStart => false
  | .majorSlotStart => false
  | .drainDeadline => false
  | .intervalEnd => false
  | .streamElement _ _ _ => false
  | .streamRecallArrive _ _ => false
  | .streamWindowFill _ _ => false
  | .streamPushWrite _ _ => false
  | .copyBurst _ _ => false
  | .copyCompletion _ _ => false
  | .mmaCompletion _ => false
  | .matrixCommandCompletion _ => false
  | .bankRowOperation _ => false
  | .bankCommandEnd _ => false
  | .scratchpadBankHandover _ _ => false
  | .partitionReset _ => false
  | .fatalError _ => false
  | .partitionRegisterWrite _ _ => false
  | .slotownWrite _ _ _ => false
  | .spbankWrite _ _ _ => false
  | .wsgWrite _ _ _ => false
  | .frelm _ _ _ => false
  | .frelc _ _ _ => false
  | .mboxWrite _ _ _ => false
  | .strqWrite _ _ _ => false
  | .setRangeWrite _ _ _ => false
  | .schedWrite _ _ => false
  | .partitionResetRequest _ => false
  | .partitionCreate _ => false
  | .hportWrite _ _ => false
  | .healthWclr => false
  | .biasFlipRequest _ => false
  | .hostBiasFlipCommand _ _ _ => false
  | .hostWrite _ _ _ _ _ _ => false
  | .hostRead _ _ _ _ _ => false
  | .ldBind _ _ => false
  | .interruptRequest _ => false
  | .interruptCoalesceExpiry _ => false
  | .thaythFrameReceive _ _ => false
  | .thaythPortDown _ => false
  | .remoteMessageReceive _ => false
  | .packageReset _ => false
  | .attestationRequest _ => false
  | .clockThrottle _ => false
  | .illegalEncoding _ => false
  | .instructionFetchFault _ _ => false
  | .writebackReachesArrays _ => false
  | .hostPortLaneFailure _ _ => false
  | .virtualFunctionBind _ _ => false

/-- The instruction has an encoding. -/
abbrev WellFormed (i : Instr) : Prop := i.wf = true

/-- The rows of the table that no word encodes: what other agents of the package do. -/
def Instr.isEvent : Instr → Bool
  | .add _ _ _ _ => false
  | .sub _ _ _ _ => false
  | .and _ _ _ _ => false
  | .or _ _ _ _ => false
  | .xor _ _ _ _ => false
  | .sel _ _ _ _ _ => false
  | .cmpReg _ _ _ _ _ => false
  | .cmpImm _ _ _ _ _ => false
  | .li _ _ _ => false
  | .j _ _ => false
  | .ldB _ _ _ _ => false
  | .ldBu _ _ _ _ => false
  | .ldH _ _ _ _ => false
  | .ldHu _ _ _ _ => false
  | .ldW _ _ _ _ => false
  | .ldWu _ _ _ _ => false
  | .ldD _ _ _ _ => false
  | .lea _ _ _ _ => false
  | .stB _ _ _ _ => false
  | .stH _ _ _ _ => false
  | .stW _ _ _ _ => false
  | .stD _ _ _ _ => false
  | .ldq _ _ _ _ => false
  | .stq _ _ _ _ => false
  | .mov _ _ _ => false
  | .andn _ _ _ => false
  | .shlReg _ _ _ => false
  | .shrReg _ _ _ => false
  | .sraReg _ _ _ => false
  | .shlImm _ _ _ => false
  | .shrImm _ _ _ => false
  | .sraImm _ _ _ => false
  | .psetAnd _ _ _ => false
  | .psetOr _ _ _ => false
  | .psetXor _ _ _ => false
  | .psetAndn _ _ _ => false
  | .psetMov _ _ _ => false
  | .psetNot _ _ _ => false
  | .jr _ _ => false
  | .nop _ => false
  | .bTrue _ _ _ => false
  | .bFalse _ _ _ => false
  | .jal _ _ _ => false
  | .mul _ _ _ _ => false
  | .mulh _ _ _ _ => false
  | .mulhu _ _ _ _ => false
  | .div _ _ _ _ => false
  | .divu _ _ _ _ => false
  | .rem _ _ _ _ => false
  | .remu _ _ _ _ => false
  | .min _ _ _ _ => false
  | .max _ _ _ _ => false
  | .minu _ _ _ _ => false
  | .maxu _ _ _ _ => false
  | .rol _ _ _ _ => false
  | .ror _ _ _ _ => false
  | .clmul _ _ _ _ => false
  | .clmulh _ _ _ _ => false
  | .bext _ _ _ _ => false
  | .bins _ _ _ _ => false
  | .clz _ _ _ => false
  | .ctz _ _ _ => false
  | .popc _ _ _ => false
  | .brev _ _ _ => false
  | .bswap _ _ _ => false
  | .sextB _ _ _ => false
  | .sextH _ _ _ => false
  | .sextW _ _ _ => false
  | .zextB _ _ _ => false
  | .zextH _ _ _ => false
  | .zextW _ _ _ => false
  | .mfp _ _ => false
  | .mtp _ _ => false
  | .fadd _ _ _ _ => false
  | .fsub _ _ _ _ => false
  | .fmul _ _ _ _ => false
  | .fdiv _ _ _ _ => false
  | .fmin _ _ _ _ => false
  | .fmax _ _ _ _ => false
  | .ffma _ _ _ _ => false
  | .fcmp _ _ _ _ _ => false
  | .fcvtF32S64 _ _ _ => false
  | .fcvtS64F32 _ _ _ => false
  | .fcvtF32U64 _ _ _ => false
  | .fcvtU64F32 _ _ _ => false
  | .fcvtF32Bf16 _ _ _ => false
  | .fcvtBf16F32 _ _ _ => false
  | .vAdd _ _ _ _ => false
  | .vSub _ _ _ _ => false
  | .vMul _ _ _ _ => false
  | .vFma _ _ _ _ => false
  | .vMin _ _ _ _ => false
  | .vMax _ _ _ _ => false
  | .vAnd _ _ _ _ => false
  | .vOr _ _ _ _ => false
  | .vXor _ _ _ _ => false
  | .vShl _ _ _ _ => false
  | .vShr _ _ _ _ => false
  | .vCmp _ _ _ _ _ => false
  | .vSel _ _ _ _ => false
  | .vClmul _ _ _ _ => false
  | .vAbs _ _ _ => false
  | .vNeg _ _ _ => false
  | .vPopc _ _ _ => false
  | .vAddF _ _ _ _ => false
  | .vSubF _ _ _ _ => false
  | .vMulF _ _ _ _ => false
  | .vFmaF _ _ _ _ => false
  | .vMinF _ _ _ _ => false
  | .vMaxF _ _ _ _ => false
  | .vCmpF _ _ _ _ _ => false
  | .vAbsF _ _ _ => false
  | .vNegF _ _ _ => false
  | .vExp2 _ _ _ => false
  | .vLog2 _ _ _ => false
  | .vRcp _ _ _ => false
  | .vRsq _ _ _ => false
  | .vTanh _ _ _ => false
  | .vShape _ _ _ => false
  | .vLd _ _ _ _ => false
  | .vSt _ _ _ _ => false
  | .vBcast _ _ _ => false
  | .vTrn _ _ _ => false
  | .vMovxToScalar _ _ _ _ => false
  | .vMovxToElement _ _ _ _ => false
  | .vCvt _ _ _ _ _ => false
  | .vRedr _ _ _ _ => false
  | .vRedc _ _ _ _ => false
  | .vScan _ _ _ _ => false
  | .vPerm _ _ _ _ => false
  | .vMaskb _ _ _ _ _ => false
  | .lrw _ _ _ _ => false
  | .sch _ _ _ _ => false
  | .rls _ _ _ => false
  | .amoD _ _ _ _ _ _ _ => false
  | .amoW _ _ _ _ _ _ _ => false
  | .amoH _ _ _ _ _ _ _ => false
  | .casD _ _ _ _ _ _ => false
  | .casQ _ _ _ _ _ _ => false
  | .red _ _ _ _ _ _ _ => false
  | .fence _ _ => false
  | .fenceS _ _ => false
  | .fenceX _ _ _ _ => false
  | .clkmax _ _ => false
  | .rdtck _ _ => false
  | .mwait _ => false
  | .poll _ _ _ _ => false
  | .mon _ _ _ => false
  | .bari _ _ _ _ => false
  | .bara _ _ _ _ => false
  | .barx _ _ _ _ => false
  | .barw _ _ _ _ => false
  | .sdef _ _ _ => false
  | .sbind _ _ _ => false
  | .sgo _ _ => false
  | .srecall _ _ => false
  | .sstat _ _ _ => false
  | .swait _ _ => false
  | .sfree _ _ => false
  | .tseal _ _ => false
  | .tpref _ _ => false
  | .tstat _ _ _ => false
  | .tcopySp _ _ _ _ => false
  | .tcopySlot _ _ _ _ => false
  | .tcopyWs _ _ _ _ => false
  | .tcopyMem _ _ _ _ => false
  | .tcopym _ _ _ _ => false
  | .tred _ _ _ _ _ => false
  | .mma _ _ _ _ => false
  | .mclmSlot _ _ => false
  | .mclmAcc _ _ => false
  | .mrelSlot _ _ => false
  | .mrelAcc _ _ => false
  | .mzero _ _ => false
  | .mstat _ _ => false
  | .mfill _ _ _ _ => false
  | .mfillV _ _ _ => false
  | .mldw _ _ _ => false
  | .mscl _ _ _ => false
  | .mstc _ _ _ _ => false
  | .mstcV _ _ _ => false
  | .mig _ _ => false
  | .migBank _ _ => false
  | .mbwait _ => false
  | .mbrecv _ _ _ => false
  | .mbsend _ _ _ => false
  | .qstat _ _ _ => false
  | .bkseq _ _ => false
  | .bkstat _ _ _ => false
  | .drzero _ _ _ => false
  | .amsg _ _ _ _ => false
  | .bkadd _ _ _ _ => false
  | .bkmul _ _ _ _ => false
  | .bkfma _ _ _ _ => false
  | .drcpy _ _ _ => false
  | .retire _ => false
  | .tret => false
  | .gret => false
  | .gsync _ => false
  | .repart _ _ => false
  | .rdgtc _ _ => false
  | .rdcal _ _ _ => false
  | .slotset _ _ => false
  | .step _ _ => false
  | .mfc _ _ _ => false
  | .mtc _ _ _ => false
  | .trap _ _ => false
  | .yield _ => false
  | .gate _ => false
  | .launch _ _ _ _ => false
  | .launchW _ _ _ _ => false
  | .launchi _ _ _ _ => false
  | .launchiW _ _ _ _ => false
  | .clnr _ _ _ => false
  | .invr _ _ _ => false
  | .flsr _ _ _ => false
  | .pref _ _ _ => false
  | .tlbi _ _ _ => false
  | .tlbsd _ _ _ => false
  | .asyncCauseDelivery => true
  | .yieldOverrun => true
  | .handlerOverrun => true
  | .bankReturnTrap => true
  | .loadCompletion _ => true
  | .storeHomePerform _ _ => true
  | .storeAcknowledgement _ _ => true
  | .redHomeStep _ _ => true
  | .prefetchFill => true
  | .shootdownHolderDrop _ => true
  | .remoteScratchpadAccess _ _ => true
  | .handlerStart _ => true
  | .amsgReply _ => true
  | .migrationRunqGrant _ => true
  | .migrationPacketArrival _ => true
  | .seatEntry _ _ => true
  | .maltsterDispatch _ => true
  | .launchWordWatch _ => true
  | .regionDependenceReread _ => true
  | .priorityAging _ => true
  | .launchiCountRead _ => true
  | .launchParkRelease _ => true
  | .gsyncComplete _ => true
  | .slotRotationHandover _ _ => true
  | .heldMessageDelivery _ _ => true
  | .mbwaitWake _ _ => true
  | .reservationGrant _ => true
  | .barwWake _ => true
  | .mwaitWake _ => true
  | .swaitWake _ => true
  | .minorSlotStart => true
  | .majorSlotStart => true
  | .drainDeadline => true
  | .intervalEnd => true
  | .streamElement _ _ _ => true
  | .streamRecallArrive _ _ => true
  | .streamWindowFill _ _ => true
  | .streamPushWrite _ _ => true
  | .copyBurst _ _ => true
  | .copyCompletion _ _ => true
  | .mmaCompletion _ => true
  | .matrixCommandCompletion _ => true
  | .bankRowOperation _ => true
  | .bankCommandEnd _ => true
  | .scratchpadBankHandover _ _ => true
  | .partitionReset _ => true
  | .fatalError _ => true
  | .partitionRegisterWrite _ _ => true
  | .slotownWrite _ _ _ => true
  | .spbankWrite _ _ _ => true
  | .wsgWrite _ _ _ => true
  | .frelm _ _ _ => true
  | .frelc _ _ _ => true
  | .mboxWrite _ _ _ => true
  | .strqWrite _ _ _ => true
  | .setRangeWrite _ _ _ => true
  | .schedWrite _ _ => true
  | .partitionResetRequest _ => true
  | .partitionCreate _ => true
  | .hportWrite _ _ => true
  | .healthWclr => true
  | .biasFlipRequest _ => true
  | .hostBiasFlipCommand _ _ _ => true
  | .hostWrite _ _ _ _ _ _ => true
  | .hostRead _ _ _ _ _ => true
  | .ldBind _ _ => true
  | .interruptRequest _ => true
  | .interruptCoalesceExpiry _ => true
  | .thaythFrameReceive _ _ => true
  | .thaythPortDown _ => true
  | .remoteMessageReceive _ => true
  | .packageReset _ => true
  | .attestationRequest _ => true
  | .clockThrottle _ => true
  | .illegalEncoding _ => true
  | .instructionFetchFault _ _ => true
  | .writebackReachesArrays _ => true
  | .hostPortLaneFailure _ _ => true
  | .virtualFunctionBind _ _ => true

end Sys2Proof
end

