-- ==== Sys2Proof/Decode.lean ====
section
/-! DEFINITION. Instruction words (R39 to R60): a chain is read word by word until the word that makes it illegal or its
base word; the base word and its prefixes then name an instruction. After the decoder stands the encoder, written from the
same tables. -/

namespace Sys2Proof

/-- The code of a Cond in an instruction word (R48). -/
def Cond.code : Cond → Nat
  | .eq => 0
  | .ne => 1
  | .lt => 2
  | .ltu => 3
  | .ge => 4
  | .geu => 5

/-- The Cond of a code, if the code is one (R48). -/
def Cond.ofCode : Nat → Option Cond
  | 0 => some .eq
  | 1 => some .ne
  | 2 => some .lt
  | 3 => some .ltu
  | 4 => some .ge
  | 5 => some .geu
  | _ => none

/-- The code of a FCond in an instruction word (R48). -/
def FCond.code : FCond → Nat
  | .eq => 0
  | .lt => 1
  | .le => 2
  | .un => 3

/-- The FCond of a code, if the code is one (R48). -/
def FCond.ofCode : Nat → Option FCond
  | 0 => some .eq
  | 1 => some .lt
  | 2 => some .le
  | 3 => some .un
  | _ => none

/-- The code of a Order in an instruction word (R47). -/
def Order.code : Order → Nat
  | .relaxed => 0
  | .acquire => 1
  | .release => 2
  | .acqrel => 3

/-- The Order of a code, if the code is one (R47). -/
def Order.ofCode : Nat → Option Order
  | 0 => some .relaxed
  | 1 => some .acquire
  | 2 => some .release
  | 3 => some .acqrel
  | _ => none

/-- The code of a Scope in an instruction word (R47). -/
def Scope.code : Scope → Nat
  | .core => 0
  | .die => 1
  | .pkg => 2
  | .sys => 3

/-- The Scope of a code, if the code is one (R47). -/
def Scope.ofCode : Nat → Option Scope
  | 0 => some .core
  | 1 => some .die
  | 2 => some .pkg
  | 3 => some .sys
  | _ => none

/-- The code of a AmoOp in an instruction word (R48). -/
def AmoOp.code : AmoOp → Nat
  | .add => 0
  | .and => 1
  | .or => 2
  | .xor => 3
  | .min => 4
  | .max => 5
  | .minu => 6
  | .maxu => 7
  | .swap => 8
  | .faddBf16 => 9
  | .faddF32 => 10

/-- The AmoOp of a code, if the code is one (R48). -/
def AmoOp.ofCode : Nat → Option AmoOp
  | 0 => some .add
  | 1 => some .and
  | 2 => some .or
  | 3 => some .xor
  | 4 => some .min
  | 5 => some .max
  | 6 => some .minu
  | 7 => some .maxu
  | 8 => some .swap
  | 9 => some .faddBf16
  | 10 => some .faddF32
  | _ => none

/-- The code of a RedWidth in an instruction word (R53). -/
def RedWidth.code : RedWidth → Nat
  | .d => 0
  | .w => 1
  | .h => 2

/-- The RedWidth of a code, if the code is one (R53). -/
def RedWidth.ofCode : Nat → Option RedWidth
  | 0 => some .d
  | 1 => some .w
  | 2 => some .h
  | _ => none

/-- The code of a Path in an instruction word (R45). -/
def Path.code : Path → Nat
  | .core => 0
  | .copy => 1
  | .matrix => 2
  | .stream => 3
  | .bank => 4

/-- The Path of a code, if the code is one (R45). -/
def Path.ofCode : Nat → Option Path
  | 0 => some .core
  | 1 => some .copy
  | 2 => some .matrix
  | 3 => some .stream
  | 4 => some .bank
  | _ => none

/-- The code of a VFmt in an instruction word (R48). -/
def VFmt.code : VFmt → Nat
  | .bf16 => 0
  | .e4m3 => 1
  | .t8 => 2
  | .i8 => 3
  | .t6 => 4
  | .f32 => 7
  | .i32 => 8

/-- The VFmt of a code, if the code is one (R48). -/
def VFmt.ofCode : Nat → Option VFmt
  | 0 => some .bf16
  | 1 => some .e4m3
  | 2 => some .t8
  | 3 => some .i8
  | 4 => some .t6
  | 7 => some .f32
  | 8 => some .i32
  | _ => none

/-- The code of a RedOp in an instruction word (R52, R145). -/
def RedOp.code : RedOp → Nat
  | .add => 0
  | .fadd => 1
  | .min => 2
  | .max => 3
  | .minu => 4
  | .maxu => 5
  | .fmin => 6
  | .fmax => 7
  | .xor => 8

/-- The RedOp of a code, if the code is one (R52, R145). -/
def RedOp.ofCode : Nat → Option RedOp
  | 0 => some .add
  | 1 => some .fadd
  | 2 => some .min
  | 3 => some .max
  | 4 => some .minu
  | 5 => some .maxu
  | 6 => some .fmin
  | 7 => some .fmax
  | 8 => some .xor
  | _ => none

/-- The code of a TredOp in an instruction word (R48). -/
def TredOp.code : TredOp → Nat
  | .faddF32 => 0
  | .faddBf16 => 1
  | .max => 2
  | .min => 3

/-- The TredOp of a code, if the code is one (R48). -/
def TredOp.ofCode : Nat → Option TredOp
  | 0 => some .faddF32
  | 1 => some .faddBf16
  | 2 => some .max
  | 3 => some .min
  | _ => none

/-- The code of a Mode in an instruction word (R57). -/
def Mode.code : Mode → Nat
  | .m16 => 0
  | .m32 => 1
  | .m64 => 2

/-- The Mode of a code, if the code is one (R57). -/
def Mode.ofCode : Nat → Option Mode
  | 0 => some .m16
  | 1 => some .m32
  | 2 => some .m64
  | _ => none

/-- The code of a CR in an instruction word (R16). -/
def CR.code : CR → Nat
  | .tck => 0
  | .era => 1
  | .rnd => 2
  | .fmta => 3
  | .fmtb => 4
  | .fmtc => 5
  | .scla => 6
  | .sclb => 7
  | .vsh => 8
  | .did => 9
  | .sid => 10
  | .gid => 11
  | .rank => 12
  | .core => 13
  | .migp => 14
  | .stat => 15
  | .tvec => 16
  | .tcause => 17
  | .tval => 18
  | .tpc => 19
  | .ydl => 20
  | .cal0 => 24
  | .cal1 => 25
  | .cal2 => 26
  | .cal3 => 27

/-- The CR of a code, if the code is one (R16). -/
def CR.ofCode : Nat → Option CR
  | 0 => some .tck
  | 1 => some .era
  | 2 => some .rnd
  | 3 => some .fmta
  | 4 => some .fmtb
  | 5 => some .fmtc
  | 6 => some .scla
  | 7 => some .sclb
  | 8 => some .vsh
  | 9 => some .did
  | 10 => some .sid
  | 11 => some .gid
  | 12 => some .rank
  | 13 => some .core
  | 14 => some .migp
  | 15 => some .stat
  | 16 => some .tvec
  | 17 => some .tcause
  | 18 => some .tval
  | 19 => some .tpc
  | 20 => some .ydl
  | 24 => some .cal0
  | 25 => some .cal1
  | 26 => some .cal2
  | 27 => some .cal3
  | _ => none

/-- What a whole chain says (R39 to R44): the guard, the page and its qualifier, the REX fields, the IMX payloads in fetch
order and the base word. -/
structure Fields where
  guard : Guard
  page  : Nat
  q     : Nat
  rex   : Bool
  ah    : Nat
  bh    : Nat
  ch    : Nat
  rq    : Nat
  imx   : List Nat
  base  : Nat
  deriving DecidableEq, Repr

/-- Bits [15:12] of the base word (R44). -/
def Fields.op4 (x : Fields) : Nat := x.base / 4096 % 16
/-- Bits [11:8] of the base word (R44). -/
def Fields.n2 (x : Fields) : Nat := x.base / 256 % 16
/-- Bits [7:4] of the base word (R44). -/
def Fields.n1 (x : Fields) : Nat := x.base / 16 % 16
/-- Bits [3:0] of the base word (R44). -/
def Fields.n0 (x : Fields) : Nat := x.base % 16
/-- imm8 of the RI8 format (R44). -/
def Fields.imm8 (x : Fields) : Nat := x.base % 256

/-- A scalar register field with its REX high bits (R45). -/
def kindS (h l : Nat) : Option SReg := some (Fin.ofNat 64 (16 * h + l))
/-- A vector register field: REX high bits are zero (R45). -/
def kindV (h l : Nat) : Option VReg := if h = 0 then some (Fin.ofNat 16 l) else none
/-- A predicate field, 0 to 31 (R45). -/
def kindP (h l : Nat) : Option PBit := if h < 2 then some (Fin.ofNat 32 (16 * h + l)) else none
/-- A stream register, queue register or accumulator field, 0 to 7 (R45). -/
def kind8 (h l : Nat) : Option (Fin 8) := if h = 0 ∧ l < 8 then some (Fin.ofNat 8 l) else none
/-- An operand slot field (R45). -/
def kindM (h l : Nat) : Option MSlot := if h = 0 then some (Fin.ofNat 16 l) else none
/-- A kind-0 field is zero, high bits included (R45). -/
def kind0 (h l : Nat) : Option Unit := if h = 0 ∧ l = 0 then some () else none
/-- A small code below `n` (R45). -/
def kindN (n h l : Nat) : Option Nat := if h = 0 ∧ l < n then some l else none
/-- A field the format lacks, or that holds immediate bits, has zero high bits (R45). -/
def noHigh (h : Nat) : Option Unit := if h = 0 then some () else none

/-- A scalar operand of pages 0 and 1: field `which` of PAG.Q[1:0] (3 for a, 1 for b, 2 for c) names a queue or a stream
when PAG.Q selects it, and its high bits must then be zero (R46). -/
def Fields.sop (x : Fields) (which h l : Nat) : Option SOp :=
  if x.q % 4 = which then
    (if h = 0 then some (if l < 8 then .q (Fin.ofNat 8 l) else .z (Fin.ofNat 8 (l - 8))) else none)
  else some (.s (Fin.ofNat 64 (16 * h + l)))

/-- The immediate's bits: the IMX payloads, the first most significant, above the base immediate (R41). -/
def Fields.immBits (x : Fields) (w b : Nat) : Nat := x.imx.foldl (fun acc p => acc * 1024 + p) 0 * 2 ^ w + b % 2 ^ w
/-- The signed immediate over a base immediate of `w` bits (R41). -/
def Fields.immS (x : Fields) (w b : Nat) : Int :=
  let W := 10 * x.imx.length + w
  let v := x.immBits w b
  if W = 0 then 0 else if 2 ^ (W - 1) ≤ v then (v : Int) - (2 ^ W : Nat) else (v : Int)

/-- PAG.Q is within the set of its page (R47, R51, R52); the order field of page 3 is tested with the form. -/
def pagOk (page q : Nat) : Bool :=
  if page = 0 then decide (q < 4)
  else if page = 1 then decide (q / 4 < 3)
  else if page = 2 then decide (q / 4 < 3 ∧ q % 4 = 0)
  else if page = 3 then true
  else decide (page < 9 ∧ q = 0)

/-- The tests of R59 common to all forms: a guard only where the form takes one; REX.Q zero unless the form uses it; a REX
only where there is a field to extend or a use of REX.Q; PAG.Q[1:0] naming only one of the operands `sel`; no IMX without
an immediate, and at most 38 bits with one. -/
def Fields.ok (x : Fields) (guardOk rexq field : Bool) (sel : List Nat) (imm : Option Nat) : Bool :=
  (guardOk || decide (x.guard = .always)) && (rexq || decide (x.rq = 0)) && (field || rexq || !x.rex) &&
  (decide (1 < x.page) || decide (x.q % 4 = 0) || sel.contains (x.q % 4)) &&
  (match imm with
   | none => x.imx.isEmpty
   | some w => decide (10 * x.imx.length + w ≤ 38))

/-- Page 3: the order field is relaxed (R200). -/
def Fields.relaxed (x : Fields) : Option Unit := if x.q / 4 = 0 then some () else none
/-- Page 3: PAG.Q is zero (R200, R281). -/
def Fields.qZero (x : Fields) : Option Unit := if x.q = 0 then some () else none
/-- A test inside a decoding. -/
def need (b : Bool) : Option Unit := if b then some () else none

/-- Decodes ADD. -/
def dec_add (x : Fields) : Option Instr :=
    if x.ok true false true [3, 1, 2] none then (do
      let a ← x.sop 3 x.ah x.n2
      let b ← x.sop 1 x.bh x.n1
      let c ← x.sop 2 x.ch x.n0
      some (.add x.guard a b c))
    else none

/-- Decodes SUB. -/
def dec_sub (x : Fields) : Option Instr :=
    if x.ok true false true [3, 1, 2] none then (do
      let a ← x.sop 3 x.ah x.n2
      let b ← x.sop 1 x.bh x.n1
      let c ← x.sop 2 x.ch x.n0
      some (.sub x.guard a b c))
    else none

/-- Decodes AND. -/
def dec_and (x : Fields) : Option Instr :=
    if x.ok true false true [3, 1, 2] none then (do
      let a ← x.sop 3 x.ah x.n2
      let b ← x.sop 1 x.bh x.n1
      let c ← x.sop 2 x.ch x.n0
      some (.and x.guard a b c))
    else none

/-- Decodes OR. -/
def dec_or (x : Fields) : Option Instr :=
    if x.ok true false true [3, 1, 2] none then (do
      let a ← x.sop 3 x.ah x.n2
      let b ← x.sop 1 x.bh x.n1
      let c ← x.sop 2 x.ch x.n0
      some (.or x.guard a b c))
    else none

/-- Decodes XOR. -/
def dec_xor (x : Fields) : Option Instr :=
    if x.ok true false true [3, 1, 2] none then (do
      let a ← x.sop 3 x.ah x.n2
      let b ← x.sop 1 x.bh x.n1
      let c ← x.sop 2 x.ch x.n0
      some (.xor x.guard a b c))
    else none

/-- Decodes SEL. -/
def dec_sel (x : Fields) : Option Instr :=
    if x.ok true true true [3, 1, 2] none then (do
      let a ← x.sop 3 x.ah x.n2
      let b ← x.sop 1 x.bh x.n1
      let c ← x.sop 2 x.ch x.n0
      some (.sel x.guard a b c (Fin.ofNat 16 x.rq)))
    else none

/-- Decodes CMP_REG. -/
def dec_cmpReg (x : Fields) : Option Instr :=
    if x.ok true true true [1, 2] none then (do
      let a ← kindP x.ah x.n2
      let b ← x.sop 1 x.bh x.n1
      let c ← x.sop 2 x.ch x.n0
      let k ← Cond.ofCode x.rq
      some (.cmpReg x.guard a b c k))
    else none

/-- Decodes CMP_IMM. -/
def dec_cmpImm (x : Fields) : Option Instr :=
    if x.ok true true true [1] (some 4) then (do
      let a ← kindP x.ah x.n2
      let b ← x.sop 1 x.bh x.n1
      let _ ← noHigh x.ch
      let k ← Cond.ofCode x.rq
      some (.cmpImm x.guard a b (x.immS 4 x.n0) k))
    else none

/-- Decodes LI. -/
def dec_li (x : Fields) : Option Instr :=
    if x.ok true false true [3] (some 8) then (do
      let a ← x.sop 3 x.ah x.n2
      let _ ← noHigh x.bh
      let _ ← noHigh x.ch
      some (.li x.guard a (x.immS 8 x.imm8)))
    else none

/-- Decodes J. -/
def dec_j (x : Fields) : Option Instr :=
    if x.ok true false false [] (some 12) then (do
      let _ ← noHigh x.ah
      let _ ← noHigh x.bh
      let _ ← noHigh x.ch
      some (.j x.guard (x.immS 12 (x.base % 4096))))
    else none

/-- Decodes LD_B. -/
def dec_ldB (x : Fields) : Option Instr :=
    if x.ok true false true [3, 1] (some 0) then (do
      let a ← x.sop 3 x.ah x.n1
      let b ← x.sop 1 x.bh x.n0
      let _ ← noHigh x.ch
      some (.ldB x.guard a b (x.immS 0 0)))
    else none

/-- Decodes LD_BU. -/
def dec_ldBu (x : Fields) : Option Instr :=
    if x.ok true false true [3, 1] (some 0) then (do
      let a ← x.sop 3 x.ah x.n1
      let b ← x.sop 1 x.bh x.n0
      let _ ← noHigh x.ch
      some (.ldBu x.guard a b (x.immS 0 0)))
    else none

/-- Decodes LD_H. -/
def dec_ldH (x : Fields) : Option Instr :=
    if x.ok true false true [3, 1] (some 0) then (do
      let a ← x.sop 3 x.ah x.n1
      let b ← x.sop 1 x.bh x.n0
      let _ ← noHigh x.ch
      some (.ldH x.guard a b (x.immS 0 0)))
    else none

/-- Decodes LD_HU. -/
def dec_ldHu (x : Fields) : Option Instr :=
    if x.ok true false true [3, 1] (some 0) then (do
      let a ← x.sop 3 x.ah x.n1
      let b ← x.sop 1 x.bh x.n0
      let _ ← noHigh x.ch
      some (.ldHu x.guard a b (x.immS 0 0)))
    else none

/-- Decodes LD_W. -/
def dec_ldW (x : Fields) : Option Instr :=
    if x.ok true false true [3, 1] (some 0) then (do
      let a ← x.sop 3 x.ah x.n1
      let b ← x.sop 1 x.bh x.n0
      let _ ← noHigh x.ch
      some (.ldW x.guard a b (x.immS 0 0)))
    else none

/-- Decodes LD_WU. -/
def dec_ldWu (x : Fields) : Option Instr :=
    if x.ok true false true [3, 1] (some 0) then (do
      let a ← x.sop 3 x.ah x.n1
      let b ← x.sop 1 x.bh x.n0
      let _ ← noHigh x.ch
      some (.ldWu x.guard a b (x.immS 0 0)))
    else none

/-- Decodes LD_D. -/
def dec_ldD (x : Fields) : Option Instr :=
    if x.ok true false true [3, 1] (some 0) then (do
      let a ← x.sop 3 x.ah x.n1
      let b ← x.sop 1 x.bh x.n0
      let _ ← noHigh x.ch
      some (.ldD x.guard a b (x.immS 0 0)))
    else none

/-- Decodes LEA. -/
def dec_lea (x : Fields) : Option Instr :=
    if x.ok true false true [3, 1] (some 0) then (do
      let a ← x.sop 3 x.ah x.n1
      let b ← x.sop 1 x.bh x.n0
      let _ ← noHigh x.ch
      some (.lea x.guard a b (x.immS 0 0)))
    else none

/-- Decodes ST_B. -/
def dec_stB (x : Fields) : Option Instr :=
    if x.ok true false true [3, 1] (some 0) then (do
      let a ← x.sop 3 x.ah x.n1
      let b ← x.sop 1 x.bh x.n0
      let _ ← noHigh x.ch
      some (.stB x.guard a b (x.immS 0 0)))
    else none

/-- Decodes ST_H. -/
def dec_stH (x : Fields) : Option Instr :=
    if x.ok true false true [3, 1] (some 0) then (do
      let a ← x.sop 3 x.ah x.n1
      let b ← x.sop 1 x.bh x.n0
      let _ ← noHigh x.ch
      some (.stH x.guard a b (x.immS 0 0)))
    else none

/-- Decodes ST_W. -/
def dec_stW (x : Fields) : Option Instr :=
    if x.ok true false true [3, 1] (some 0) then (do
      let a ← x.sop 3 x.ah x.n1
      let b ← x.sop 1 x.bh x.n0
      let _ ← noHigh x.ch
      some (.stW x.guard a b (x.immS 0 0)))
    else none

/-- Decodes ST_D. -/
def dec_stD (x : Fields) : Option Instr :=
    if x.ok true false true [3, 1] (some 0) then (do
      let a ← x.sop 3 x.ah x.n1
      let b ← x.sop 1 x.bh x.n0
      let _ ← noHigh x.ch
      some (.stD x.guard a b (x.immS 0 0)))
    else none

/-- Decodes LDQ. -/
def dec_ldq (x : Fields) : Option Instr :=
    if x.ok true false true [1] (some 0) then (do
      let a ← kindS x.ah x.n1
      let b ← x.sop 1 x.bh x.n0
      let _ ← noHigh x.ch
      let _ ← need (decide (a.val % 2 = 0))
      some (.ldq x.guard a b (x.immS 0 0)))
    else none

/-- Decodes STQ. -/
def dec_stq (x : Fields) : Option Instr :=
    if x.ok true false true [1] (some 0) then (do
      let a ← kindS x.ah x.n1
      let b ← x.sop 1 x.bh x.n0
      let _ ← noHigh x.ch
      let _ ← need (decide (a.val % 2 = 0))
      some (.stq x.guard a b (x.immS 0 0)))
    else none

/-- Decodes MOV. -/
def dec_mov (x : Fields) : Option Instr :=
    if x.ok true false true [3, 1] none then (do
      let a ← x.sop 3 x.ah x.n1
      let b ← x.sop 1 x.bh x.n0
      let _ ← noHigh x.ch
      some (.mov x.guard a b))
    else none

/-- Decodes ANDN. -/
def dec_andn (x : Fields) : Option Instr :=
    if x.ok true false true [1] none then (do
      let a ← kindS x.ah x.n1
      let b ← x.sop 1 x.bh x.n0
      let _ ← noHigh x.ch
      some (.andn x.guard a b))
    else none

/-- Decodes SHL_REG. -/
def dec_shlReg (x : Fields) : Option Instr :=
    if x.ok true false true [1] none then (do
      let a ← kindS x.ah x.n1
      let b ← x.sop 1 x.bh x.n0
      let _ ← noHigh x.ch
      some (.shlReg x.guard a b))
    else none

/-- Decodes SHR_REG. -/
def dec_shrReg (x : Fields) : Option Instr :=
    if x.ok true false true [1] none then (do
      let a ← kindS x.ah x.n1
      let b ← x.sop 1 x.bh x.n0
      let _ ← noHigh x.ch
      some (.shrReg x.guard a b))
    else none

/-- Decodes SRA_REG. -/
def dec_sraReg (x : Fields) : Option Instr :=
    if x.ok true false true [1] none then (do
      let a ← kindS x.ah x.n1
      let b ← x.sop 1 x.bh x.n0
      let _ ← noHigh x.ch
      some (.sraReg x.guard a b))
    else none

/-- Decodes SHL_IMM. -/
def dec_shlImm (x : Fields) : Option Instr :=
    if x.ok true false true [] (some 4) then (do
      let a ← kindS x.ah x.n1
      let _ ← noHigh x.bh
      let _ ← noHigh x.ch
      let _ ← need (decide (x.immBits 4 x.n0 ≤ 63))
      some (.shlImm x.guard a (x.immBits 4 x.n0)))
    else none

/-- Decodes SHR_IMM. -/
def dec_shrImm (x : Fields) : Option Instr :=
    if x.ok true false true [] (some 4) then (do
      let a ← kindS x.ah x.n1
      let _ ← noHigh x.bh
      let _ ← noHigh x.ch
      let _ ← need (decide (x.immBits 4 x.n0 ≤ 63))
      some (.shrImm x.guard a (x.immBits 4 x.n0)))
    else none

/-- Decodes SRA_IMM. -/
def dec_sraImm (x : Fields) : Option Instr :=
    if x.ok true false true [] (some 4) then (do
      let a ← kindS x.ah x.n1
      let _ ← noHigh x.bh
      let _ ← noHigh x.ch
      let _ ← need (decide (x.immBits 4 x.n0 ≤ 63))
      some (.sraImm x.guard a (x.immBits 4 x.n0)))
    else none

/-- Decodes PSET_AND. -/
def dec_psetAnd (x : Fields) : Option Instr :=
    if x.ok true false true [] none then (do
      let a ← kindP x.ah x.n1
      let b ← kindP x.bh x.n0
      let _ ← noHigh x.ch
      some (.psetAnd x.guard a b))
    else none

/-- Decodes PSET_OR. -/
def dec_psetOr (x : Fields) : Option Instr :=
    if x.ok true false true [] none then (do
      let a ← kindP x.ah x.n1
      let b ← kindP x.bh x.n0
      let _ ← noHigh x.ch
      some (.psetOr x.guard a b))
    else none

/-- Decodes PSET_XOR. -/
def dec_psetXor (x : Fields) : Option Instr :=
    if x.ok true false true [] none then (do
      let a ← kindP x.ah x.n1
      let b ← kindP x.bh x.n0
      let _ ← noHigh x.ch
      some (.psetXor x.guard a b))
    else none

/-- Decodes PSET_ANDN. -/
def dec_psetAndn (x : Fields) : Option Instr :=
    if x.ok true false true [] none then (do
      let a ← kindP x.ah x.n1
      let b ← kindP x.bh x.n0
      let _ ← noHigh x.ch
      some (.psetAndn x.guard a b))
    else none

/-- Decodes PSET_MOV. -/
def dec_psetMov (x : Fields) : Option Instr :=
    if x.ok true false true [] none then (do
      let a ← kindP x.ah x.n1
      let b ← kindP x.bh x.n0
      let _ ← noHigh x.ch
      some (.psetMov x.guard a b))
    else none

/-- Decodes PSET_NOT. -/
def dec_psetNot (x : Fields) : Option Instr :=
    if x.ok true false true [] none then (do
      let a ← kindP x.ah x.n1
      let b ← kindP x.bh x.n0
      let _ ← noHigh x.ch
      some (.psetNot x.guard a b))
    else none

/-- Decodes JR. -/
def dec_jr (x : Fields) : Option Instr :=
    if x.ok true false true [3] none then (do
      let a ← x.sop 3 x.ah x.n1
      let _ ← kind0 x.bh x.n0
      let _ ← noHigh x.ch
      some (.jr x.guard a))
    else none

/-- Decodes NOP. -/
def dec_nop (x : Fields) : Option Instr :=
    if x.ok true false false [] none then (do
      let _ ← kind0 x.ah x.n1
      let _ ← kind0 x.bh x.n0
      let _ ← noHigh x.ch
      some (.nop x.guard))
    else none

/-- Decodes B_TRUE. -/
def dec_bTrue (x : Fields) : Option Instr :=
    if x.ok true false true [] (some 8) then (do
      let a ← kindP x.ah x.n2
      let _ ← noHigh x.bh
      let _ ← noHigh x.ch
      some (.bTrue x.guard a (x.immS 8 x.imm8)))
    else none

/-- Decodes B_FALSE. -/
def dec_bFalse (x : Fields) : Option Instr :=
    if x.ok true false true [] (some 8) then (do
      let a ← kindP x.ah x.n2
      let _ ← noHigh x.bh
      let _ ← noHigh x.ch
      some (.bFalse x.guard a (x.immS 8 x.imm8)))
    else none

/-- Decodes JAL. -/
def dec_jal (x : Fields) : Option Instr :=
    if x.ok true false true [3] (some 8) then (do
      let a ← x.sop 3 x.ah x.n2
      let _ ← noHigh x.bh
      let _ ← noHigh x.ch
      some (.jal x.guard a (x.immS 8 x.imm8)))
    else none

/-- Page 0 of the opcode map. -/
def page0 (x : Fields) : Option Instr :=
  match x.op4 with
  | 0 => dec_add x
  | 1 => dec_sub x
  | 2 => dec_and x
  | 3 => dec_or x
  | 4 => dec_xor x
  | 5 => dec_sel x
  | 6 => dec_cmpReg x
  | 7 => dec_cmpImm x
  | 8 => dec_li x
  | 9 => dec_j x
  | 10 =>
    match x.n2 with
    | 0 => dec_ldB x
    | 1 => dec_ldBu x
    | 2 => dec_ldH x
    | 3 => dec_ldHu x
    | 4 => dec_ldW x
    | 5 => dec_ldWu x
    | 6 => dec_ldD x
    | 7 => dec_lea x
    | 8 => dec_stB x
    | 9 => dec_stH x
    | 10 => dec_stW x
    | 11 => dec_stD x
    | 12 => dec_ldq x
    | 13 => dec_stq x
    | _ => none
  | 11 =>
    match x.n2 with
    | 0 => dec_mov x
    | 1 => dec_andn x
    | 2 => dec_shlReg x
    | 3 => dec_shrReg x
    | 4 => dec_sraReg x
    | 5 => dec_shlImm x
    | 6 => dec_shrImm x
    | 7 => dec_sraImm x
    | 8 => dec_psetAnd x
    | 9 => dec_psetOr x
    | 10 => dec_psetXor x
    | 11 => dec_psetAndn x
    | 12 => dec_psetMov x
    | 13 => dec_psetNot x
    | 14 => dec_jr x
    | 15 => dec_nop x
    | _ => none
  | 12 => dec_bTrue x
  | 13 => dec_bFalse x
  | 14 => dec_jal x
  | _ => none

/-- Decodes MUL. -/
def dec_mul (x : Fields) : Option Instr :=
    if x.ok true false true [3, 1, 2] none then (do
      let a ← x.sop 3 x.ah x.n2
      let b ← x.sop 1 x.bh x.n1
      let c ← x.sop 2 x.ch x.n0
      some (.mul x.guard a b c))
    else none

/-- Decodes MULH. -/
def dec_mulh (x : Fields) : Option Instr :=
    if x.ok true false true [3, 1, 2] none then (do
      let a ← x.sop 3 x.ah x.n2
      let b ← x.sop 1 x.bh x.n1
      let c ← x.sop 2 x.ch x.n0
      some (.mulh x.guard a b c))
    else none

/-- Decodes MULHU. -/
def dec_mulhu (x : Fields) : Option Instr :=
    if x.ok true false true [3, 1, 2] none then (do
      let a ← x.sop 3 x.ah x.n2
      let b ← x.sop 1 x.bh x.n1
      let c ← x.sop 2 x.ch x.n0
      some (.mulhu x.guard a b c))
    else none

/-- Decodes DIV. -/
def dec_div (x : Fields) : Option Instr :=
    if x.ok true false true [3, 1, 2] none then (do
      let a ← x.sop 3 x.ah x.n2
      let b ← x.sop 1 x.bh x.n1
      let c ← x.sop 2 x.ch x.n0
      some (.div x.guard a b c))
    else none

/-- Decodes DIVU. -/
def dec_divu (x : Fields) : Option Instr :=
    if x.ok true false true [3, 1, 2] none then (do
      let a ← x.sop 3 x.ah x.n2
      let b ← x.sop 1 x.bh x.n1
      let c ← x.sop 2 x.ch x.n0
      some (.divu x.guard a b c))
    else none

/-- Decodes REM. -/
def dec_rem (x : Fields) : Option Instr :=
    if x.ok true false true [3, 1, 2] none then (do
      let a ← x.sop 3 x.ah x.n2
      let b ← x.sop 1 x.bh x.n1
      let c ← x.sop 2 x.ch x.n0
      some (.rem x.guard a b c))
    else none

/-- Decodes REMU. -/
def dec_remu (x : Fields) : Option Instr :=
    if x.ok true false true [3, 1, 2] none then (do
      let a ← x.sop 3 x.ah x.n2
      let b ← x.sop 1 x.bh x.n1
      let c ← x.sop 2 x.ch x.n0
      some (.remu x.guard a b c))
    else none

/-- Decodes MIN. -/
def dec_min (x : Fields) : Option Instr :=
    if x.ok true false true [3, 1, 2] none then (do
      let a ← x.sop 3 x.ah x.n2
      let b ← x.sop 1 x.bh x.n1
      let c ← x.sop 2 x.ch x.n0
      some (.min x.guard a b c))
    else none

/-- Decodes MAX. -/
def dec_max (x : Fields) : Option Instr :=
    if x.ok true false true [3, 1, 2] none then (do
      let a ← x.sop 3 x.ah x.n2
      let b ← x.sop 1 x.bh x.n1
      let c ← x.sop 2 x.ch x.n0
      some (.max x.guard a b c))
    else none

/-- Decodes MINU. -/
def dec_minu (x : Fields) : Option Instr :=
    if x.ok true false true [3, 1, 2] none then (do
      let a ← x.sop 3 x.ah x.n2
      let b ← x.sop 1 x.bh x.n1
      let c ← x.sop 2 x.ch x.n0
      some (.minu x.guard a b c))
    else none

/-- Decodes MAXU. -/
def dec_maxu (x : Fields) : Option Instr :=
    if x.ok true false true [3, 1, 2] none then (do
      let a ← x.sop 3 x.ah x.n2
      let b ← x.sop 1 x.bh x.n1
      let c ← x.sop 2 x.ch x.n0
      some (.maxu x.guard a b c))
    else none

/-- Page 1, class 0 of the opcode map. -/
def page1c0 (x : Fields) : Option Instr :=
  match x.op4 with
  | 0 => dec_mul x
  | 1 => dec_mulh x
  | 2 => dec_mulhu x
  | 3 => dec_div x
  | 4 => dec_divu x
  | 5 => dec_rem x
  | 6 => dec_remu x
  | 7 => dec_min x
  | 8 => dec_max x
  | 9 => dec_minu x
  | 10 => dec_maxu x
  | _ => none

/-- Decodes ROL. -/
def dec_rol (x : Fields) : Option Instr :=
    if x.ok true false true [3, 1, 2] none then (do
      let a ← x.sop 3 x.ah x.n2
      let b ← x.sop 1 x.bh x.n1
      let c ← x.sop 2 x.ch x.n0
      some (.rol x.guard a b c))
    else none

/-- Decodes ROR. -/
def dec_ror (x : Fields) : Option Instr :=
    if x.ok true false true [3, 1, 2] none then (do
      let a ← x.sop 3 x.ah x.n2
      let b ← x.sop 1 x.bh x.n1
      let c ← x.sop 2 x.ch x.n0
      some (.ror x.guard a b c))
    else none

/-- Decodes CLMUL. -/
def dec_clmul (x : Fields) : Option Instr :=
    if x.ok true false true [3, 1, 2] none then (do
      let a ← x.sop 3 x.ah x.n2
      let b ← x.sop 1 x.bh x.n1
      let c ← x.sop 2 x.ch x.n0
      some (.clmul x.guard a b c))
    else none

/-- Decodes CLMULH. -/
def dec_clmulh (x : Fields) : Option Instr :=
    if x.ok true false true [3, 1, 2] none then (do
      let a ← x.sop 3 x.ah x.n2
      let b ← x.sop 1 x.bh x.n1
      let c ← x.sop 2 x.ch x.n0
      some (.clmulh x.guard a b c))
    else none

/-- Decodes BEXT. -/
def dec_bext (x : Fields) : Option Instr :=
    if x.ok true false true [3, 1, 2] none then (do
      let a ← x.sop 3 x.ah x.n2
      let b ← x.sop 1 x.bh x.n1
      let c ← x.sop 2 x.ch x.n0
      some (.bext x.guard a b c))
    else none

/-- Decodes BINS. -/
def dec_bins (x : Fields) : Option Instr :=
    if x.ok true false true [1, 2] none then (do
      let a ← kindS x.ah x.n2
      let b ← x.sop 1 x.bh x.n1
      let c ← x.sop 2 x.ch x.n0
      some (.bins x.guard a b c))
    else none

/-- Decodes CLZ. -/
def dec_clz (x : Fields) : Option Instr :=
    if x.ok true false true [3, 1] none then (do
      let a ← x.sop 3 x.ah x.n1
      let b ← x.sop 1 x.bh x.n0
      let _ ← noHigh x.ch
      some (.clz x.guard a b))
    else none

/-- Decodes CTZ. -/
def dec_ctz (x : Fields) : Option Instr :=
    if x.ok true false true [3, 1] none then (do
      let a ← x.sop 3 x.ah x.n1
      let b ← x.sop 1 x.bh x.n0
      let _ ← noHigh x.ch
      some (.ctz x.guard a b))
    else none

/-- Decodes POPC. -/
def dec_popc (x : Fields) : Option Instr :=
    if x.ok true false true [3, 1] none then (do
      let a ← x.sop 3 x.ah x.n1
      let b ← x.sop 1 x.bh x.n0
      let _ ← noHigh x.ch
      some (.popc x.guard a b))
    else none

/-- Decodes BREV. -/
def dec_brev (x : Fields) : Option Instr :=
    if x.ok true false true [3, 1] none then (do
      let a ← x.sop 3 x.ah x.n1
      let b ← x.sop 1 x.bh x.n0
      let _ ← noHigh x.ch
      some (.brev x.guard a b))
    else none

/-- Decodes BSWAP. -/
def dec_bswap (x : Fields) : Option Instr :=
    if x.ok true false true [3, 1] none then (do
      let a ← x.sop 3 x.ah x.n1
      let b ← x.sop 1 x.bh x.n0
      let _ ← noHigh x.ch
      some (.bswap x.guard a b))
    else none

/-- Decodes SEXT_B. -/
def dec_sextB (x : Fields) : Option Instr :=
    if x.ok true false true [3, 1] none then (do
      let a ← x.sop 3 x.ah x.n1
      let b ← x.sop 1 x.bh x.n0
      let _ ← noHigh x.ch
      some (.sextB x.guard a b))
    else none

/-- Decodes SEXT_H. -/
def dec_sextH (x : Fields) : Option Instr :=
    if x.ok true false true [3, 1] none then (do
      let a ← x.sop 3 x.ah x.n1
      let b ← x.sop 1 x.bh x.n0
      let _ ← noHigh x.ch
      some (.sextH x.guard a b))
    else none

/-- Decodes SEXT_W. -/
def dec_sextW (x : Fields) : Option Instr :=
    if x.ok true false true [3, 1] none then (do
      let a ← x.sop 3 x.ah x.n1
      let b ← x.sop 1 x.bh x.n0
      let _ ← noHigh x.ch
      some (.sextW x.guard a b))
    else none

/-- Decodes ZEXT_B. -/
def dec_zextB (x : Fields) : Option Instr :=
    if x.ok true false true [3, 1] none then (do
      let a ← x.sop 3 x.ah x.n1
      let b ← x.sop 1 x.bh x.n0
      let _ ← noHigh x.ch
      some (.zextB x.guard a b))
    else none

/-- Decodes ZEXT_H. -/
def dec_zextH (x : Fields) : Option Instr :=
    if x.ok true false true [3, 1] none then (do
      let a ← x.sop 3 x.ah x.n1
      let b ← x.sop 1 x.bh x.n0
      let _ ← noHigh x.ch
      some (.zextH x.guard a b))
    else none

/-- Decodes ZEXT_W. -/
def dec_zextW (x : Fields) : Option Instr :=
    if x.ok true false true [3, 1] none then (do
      let a ← x.sop 3 x.ah x.n1
      let b ← x.sop 1 x.bh x.n0
      let _ ← noHigh x.ch
      some (.zextW x.guard a b))
    else none

/-- Decodes MFP. -/
def dec_mfp (x : Fields) : Option Instr :=
    if x.ok true false true [3] none then (do
      let a ← x.sop 3 x.ah x.n1
      let _ ← kind0 x.bh x.n0
      let _ ← noHigh x.ch
      some (.mfp x.guard a))
    else none

/-- Decodes MTP. -/
def dec_mtp (x : Fields) : Option Instr :=
    if x.ok true false true [3] none then (do
      let a ← x.sop 3 x.ah x.n1
      let _ ← kind0 x.bh x.n0
      let _ ← noHigh x.ch
      some (.mtp x.guard a))
    else none

/-- Page 1, class 1 of the opcode map. -/
def page1c1 (x : Fields) : Option Instr :=
  match x.op4 with
  | 0 => dec_rol x
  | 1 => dec_ror x
  | 2 => dec_clmul x
  | 3 => dec_clmulh x
  | 4 => dec_bext x
  | 5 => dec_bins x
  | 6 =>
    match x.n2 with
    | 0 => dec_clz x
    | 1 => dec_ctz x
    | 2 => dec_popc x
    | 3 => dec_brev x
    | 4 => dec_bswap x
    | 5 => dec_sextB x
    | 6 => dec_sextH x
    | 7 => dec_sextW x
    | 8 => dec_zextB x
    | 9 => dec_zextH x
    | 10 => dec_zextW x
    | 11 => dec_mfp x
    | 12 => dec_mtp x
    | _ => none
  | _ => none

/-- Decodes FADD. -/
def dec_fadd (x : Fields) : Option Instr :=
    if x.ok true false true [3, 1, 2] none then (do
      let a ← x.sop 3 x.ah x.n2
      let b ← x.sop 1 x.bh x.n1
      let c ← x.sop 2 x.ch x.n0
      some (.fadd x.guard a b c))
    else none

/-- Decodes FSUB. -/
def dec_fsub (x : Fields) : Option Instr :=
    if x.ok true false true [3, 1, 2] none then (do
      let a ← x.sop 3 x.ah x.n2
      let b ← x.sop 1 x.bh x.n1
      let c ← x.sop 2 x.ch x.n0
      some (.fsub x.guard a b c))
    else none

/-- Decodes FMUL. -/
def dec_fmul (x : Fields) : Option Instr :=
    if x.ok true false true [3, 1, 2] none then (do
      let a ← x.sop 3 x.ah x.n2
      let b ← x.sop 1 x.bh x.n1
      let c ← x.sop 2 x.ch x.n0
      some (.fmul x.guard a b c))
    else none

/-- Decodes FDIV. -/
def dec_fdiv (x : Fields) : Option Instr :=
    if x.ok true false true [3, 1, 2] none then (do
      let a ← x.sop 3 x.ah x.n2
      let b ← x.sop 1 x.bh x.n1
      let c ← x.sop 2 x.ch x.n0
      some (.fdiv x.guard a b c))
    else none

/-- Decodes FMIN. -/
def dec_fmin (x : Fields) : Option Instr :=
    if x.ok true false true [3, 1, 2] none then (do
      let a ← x.sop 3 x.ah x.n2
      let b ← x.sop 1 x.bh x.n1
      let c ← x.sop 2 x.ch x.n0
      some (.fmin x.guard a b c))
    else none

/-- Decodes FMAX. -/
def dec_fmax (x : Fields) : Option Instr :=
    if x.ok true false true [3, 1, 2] none then (do
      let a ← x.sop 3 x.ah x.n2
      let b ← x.sop 1 x.bh x.n1
      let c ← x.sop 2 x.ch x.n0
      some (.fmax x.guard a b c))
    else none

/-- Decodes FFMA. -/
def dec_ffma (x : Fields) : Option Instr :=
    if x.ok true false true [1, 2] none then (do
      let a ← kindS x.ah x.n2
      let b ← x.sop 1 x.bh x.n1
      let c ← x.sop 2 x.ch x.n0
      some (.ffma x.guard a b c))
    else none

/-- Decodes FCMP. -/
def dec_fcmp (x : Fields) : Option Instr :=
    if x.ok true true true [1, 2] none then (do
      let a ← kindP x.ah x.n2
      let b ← x.sop 1 x.bh x.n1
      let c ← x.sop 2 x.ch x.n0
      let k ← FCond.ofCode x.rq
      some (.fcmp x.guard a b c k))
    else none

/-- Decodes FCVT_F32_S64. -/
def dec_fcvtF32S64 (x : Fields) : Option Instr :=
    if x.ok true false true [3, 1] none then (do
      let a ← x.sop 3 x.ah x.n1
      let b ← x.sop 1 x.bh x.n0
      let _ ← noHigh x.ch
      some (.fcvtF32S64 x.guard a b))
    else none

/-- Decodes FCVT_S64_F32. -/
def dec_fcvtS64F32 (x : Fields) : Option Instr :=
    if x.ok true false true [3, 1] none then (do
      let a ← x.sop 3 x.ah x.n1
      let b ← x.sop 1 x.bh x.n0
      let _ ← noHigh x.ch
      some (.fcvtS64F32 x.guard a b))
    else none

/-- Decodes FCVT_F32_U64. -/
def dec_fcvtF32U64 (x : Fields) : Option Instr :=
    if x.ok true false true [3, 1] none then (do
      let a ← x.sop 3 x.ah x.n1
      let b ← x.sop 1 x.bh x.n0
      let _ ← noHigh x.ch
      some (.fcvtF32U64 x.guard a b))
    else none

/-- Decodes FCVT_U64_F32. -/
def dec_fcvtU64F32 (x : Fields) : Option Instr :=
    if x.ok true false true [3, 1] none then (do
      let a ← x.sop 3 x.ah x.n1
      let b ← x.sop 1 x.bh x.n0
      let _ ← noHigh x.ch
      some (.fcvtU64F32 x.guard a b))
    else none

/-- Decodes FCVT_F32_BF16. -/
def dec_fcvtF32Bf16 (x : Fields) : Option Instr :=
    if x.ok true false true [3, 1] none then (do
      let a ← x.sop 3 x.ah x.n1
      let b ← x.sop 1 x.bh x.n0
      let _ ← noHigh x.ch
      some (.fcvtF32Bf16 x.guard a b))
    else none

/-- Decodes FCVT_BF16_F32. -/
def dec_fcvtBf16F32 (x : Fields) : Option Instr :=
    if x.ok true false true [3, 1] none then (do
      let a ← x.sop 3 x.ah x.n1
      let b ← x.sop 1 x.bh x.n0
      let _ ← noHigh x.ch
      some (.fcvtBf16F32 x.guard a b))
    else none

/-- Page 1, class 2 of the opcode map. -/
def page1c2 (x : Fields) : Option Instr :=
  match x.op4 with
  | 0 => dec_fadd x
  | 1 => dec_fsub x
  | 2 => dec_fmul x
  | 3 => dec_fdiv x
  | 4 => dec_fmin x
  | 5 => dec_fmax x
  | 6 => dec_ffma x
  | 7 => dec_fcmp x
  | 8 =>
    match x.n2 with
    | 0 => dec_fcvtF32S64 x
    | 1 => dec_fcvtS64F32 x
    | 2 => dec_fcvtF32U64 x
    | 3 => dec_fcvtU64F32 x
    | 4 => dec_fcvtF32Bf16 x
    | 5 => dec_fcvtBf16F32 x
    | _ => none
  | _ => none

/-- Decodes VADD. -/
def dec_vAdd (x : Fields) : Option Instr :=
    if x.ok true false true [] none then (do
      let a ← kindV x.ah x.n2
      let b ← kindV x.bh x.n1
      let c ← kindV x.ch x.n0
      some (.vAdd x.guard a b c))
    else none

/-- Decodes VSUB. -/
def dec_vSub (x : Fields) : Option Instr :=
    if x.ok true false true [] none then (do
      let a ← kindV x.ah x.n2
      let b ← kindV x.bh x.n1
      let c ← kindV x.ch x.n0
      some (.vSub x.guard a b c))
    else none

/-- Decodes VMUL. -/
def dec_vMul (x : Fields) : Option Instr :=
    if x.ok true false true [] none then (do
      let a ← kindV x.ah x.n2
      let b ← kindV x.bh x.n1
      let c ← kindV x.ch x.n0
      some (.vMul x.guard a b c))
    else none

/-- Decodes VFMA. -/
def dec_vFma (x : Fields) : Option Instr :=
    if x.ok true false true [] none then (do
      let a ← kindV x.ah x.n2
      let b ← kindV x.bh x.n1
      let c ← kindV x.ch x.n0
      some (.vFma x.guard a b c))
    else none

/-- Decodes VMIN. -/
def dec_vMin (x : Fields) : Option Instr :=
    if x.ok true false true [] none then (do
      let a ← kindV x.ah x.n2
      let b ← kindV x.bh x.n1
      let c ← kindV x.ch x.n0
      some (.vMin x.guard a b c))
    else none

/-- Decodes VMAX. -/
def dec_vMax (x : Fields) : Option Instr :=
    if x.ok true false true [] none then (do
      let a ← kindV x.ah x.n2
      let b ← kindV x.bh x.n1
      let c ← kindV x.ch x.n0
      some (.vMax x.guard a b c))
    else none

/-- Decodes VAND. -/
def dec_vAnd (x : Fields) : Option Instr :=
    if x.ok true false true [] none then (do
      let a ← kindV x.ah x.n2
      let b ← kindV x.bh x.n1
      let c ← kindV x.ch x.n0
      some (.vAnd x.guard a b c))
    else none

/-- Decodes VOR. -/
def dec_vOr (x : Fields) : Option Instr :=
    if x.ok true false true [] none then (do
      let a ← kindV x.ah x.n2
      let b ← kindV x.bh x.n1
      let c ← kindV x.ch x.n0
      some (.vOr x.guard a b c))
    else none

/-- Decodes VXOR. -/
def dec_vXor (x : Fields) : Option Instr :=
    if x.ok true false true [] none then (do
      let a ← kindV x.ah x.n2
      let b ← kindV x.bh x.n1
      let c ← kindV x.ch x.n0
      some (.vXor x.guard a b c))
    else none

/-- Decodes VSHL. -/
def dec_vShl (x : Fields) : Option Instr :=
    if x.ok true false true [] none then (do
      let a ← kindV x.ah x.n2
      let b ← kindV x.bh x.n1
      let c ← kindV x.ch x.n0
      some (.vShl x.guard a b c))
    else none

/-- Decodes VSHR. -/
def dec_vShr (x : Fields) : Option Instr :=
    if x.ok true false true [] none then (do
      let a ← kindV x.ah x.n2
      let b ← kindV x.bh x.n1
      let c ← kindV x.ch x.n0
      some (.vShr x.guard a b c))
    else none

/-- Decodes VCMP. -/
def dec_vCmp (x : Fields) : Option Instr :=
    if x.ok true true true [] none then (do
      let a ← kindV x.ah x.n2
      let b ← kindV x.bh x.n1
      let c ← kindV x.ch x.n0
      let k ← Cond.ofCode x.rq
      some (.vCmp x.guard a b c k))
    else none

/-- Decodes VSEL. -/
def dec_vSel (x : Fields) : Option Instr :=
    if x.ok true false true [] none then (do
      let a ← kindV x.ah x.n2
      let b ← kindV x.bh x.n1
      let c ← kindV x.ch x.n0
      some (.vSel x.guard a b c))
    else none

/-- Decodes VCLMUL. -/
def dec_vClmul (x : Fields) : Option Instr :=
    if x.ok true false true [] none then (do
      let a ← kindV x.ah x.n2
      let b ← kindV x.bh x.n1
      let c ← kindV x.ch x.n0
      some (.vClmul x.guard a b c))
    else none

/-- Decodes VABS. -/
def dec_vAbs (x : Fields) : Option Instr :=
    if x.ok true false true [] none then (do
      let a ← kindV x.ah x.n1
      let b ← kindV x.bh x.n0
      let _ ← noHigh x.ch
      some (.vAbs x.guard a b))
    else none

/-- Decodes VNEG. -/
def dec_vNeg (x : Fields) : Option Instr :=
    if x.ok true false true [] none then (do
      let a ← kindV x.ah x.n1
      let b ← kindV x.bh x.n0
      let _ ← noHigh x.ch
      some (.vNeg x.guard a b))
    else none

/-- Decodes VPOPC. -/
def dec_vPopc (x : Fields) : Option Instr :=
    if x.ok true false true [] none then (do
      let a ← kindV x.ah x.n1
      let b ← kindV x.bh x.n0
      let _ ← noHigh x.ch
      some (.vPopc x.guard a b))
    else none

/-- Page 2, class 0 of the opcode map. -/
def page2c0 (x : Fields) : Option Instr :=
  match x.op4 with
  | 0 => dec_vAdd x
  | 1 => dec_vSub x
  | 2 => dec_vMul x
  | 3 => dec_vFma x
  | 4 => dec_vMin x
  | 5 => dec_vMax x
  | 6 => dec_vAnd x
  | 7 => dec_vOr x
  | 8 => dec_vXor x
  | 9 => dec_vShl x
  | 10 => dec_vShr x
  | 11 => dec_vCmp x
  | 12 => dec_vSel x
  | 13 => dec_vClmul x
  | 14 =>
    match x.n2 with
    | 0 => dec_vAbs x
    | 1 => dec_vNeg x
    | 2 => dec_vPopc x
    | _ => none
  | _ => none

/-- Decodes VADD_F. -/
def dec_vAddF (x : Fields) : Option Instr :=
    if x.ok true false true [] none then (do
      let a ← kindV x.ah x.n2
      let b ← kindV x.bh x.n1
      let c ← kindV x.ch x.n0
      some (.vAddF x.guard a b c))
    else none

/-- Decodes VSUB_F. -/
def dec_vSubF (x : Fields) : Option Instr :=
    if x.ok true false true [] none then (do
      let a ← kindV x.ah x.n2
      let b ← kindV x.bh x.n1
      let c ← kindV x.ch x.n0
      some (.vSubF x.guard a b c))
    else none

/-- Decodes VMUL_F. -/
def dec_vMulF (x : Fields) : Option Instr :=
    if x.ok true false true [] none then (do
      let a ← kindV x.ah x.n2
      let b ← kindV x.bh x.n1
      let c ← kindV x.ch x.n0
      some (.vMulF x.guard a b c))
    else none

/-- Decodes VFMA_F. -/
def dec_vFmaF (x : Fields) : Option Instr :=
    if x.ok true false true [] none then (do
      let a ← kindV x.ah x.n2
      let b ← kindV x.bh x.n1
      let c ← kindV x.ch x.n0
      some (.vFmaF x.guard a b c))
    else none

/-- Decodes VMIN_F. -/
def dec_vMinF (x : Fields) : Option Instr :=
    if x.ok true false true [] none then (do
      let a ← kindV x.ah x.n2
      let b ← kindV x.bh x.n1
      let c ← kindV x.ch x.n0
      some (.vMinF x.guard a b c))
    else none

/-- Decodes VMAX_F. -/
def dec_vMaxF (x : Fields) : Option Instr :=
    if x.ok true false true [] none then (do
      let a ← kindV x.ah x.n2
      let b ← kindV x.bh x.n1
      let c ← kindV x.ch x.n0
      some (.vMaxF x.guard a b c))
    else none

/-- Decodes VCMP_F. -/
def dec_vCmpF (x : Fields) : Option Instr :=
    if x.ok true true true [] none then (do
      let a ← kindV x.ah x.n2
      let b ← kindV x.bh x.n1
      let c ← kindV x.ch x.n0
      let k ← FCond.ofCode x.rq
      some (.vCmpF x.guard a b c k))
    else none

/-- Decodes VABS_F. -/
def dec_vAbsF (x : Fields) : Option Instr :=
    if x.ok true false true [] none then (do
      let a ← kindV x.ah x.n1
      let b ← kindV x.bh x.n0
      let _ ← noHigh x.ch
      some (.vAbsF x.guard a b))
    else none

/-- Decodes VNEG_F. -/
def dec_vNegF (x : Fields) : Option Instr :=
    if x.ok true false true [] none then (do
      let a ← kindV x.ah x.n1
      let b ← kindV x.bh x.n0
      let _ ← noHigh x.ch
      some (.vNegF x.guard a b))
    else none

/-- Decodes VEXP2. -/
def dec_vExp2 (x : Fields) : Option Instr :=
    if x.ok true false true [] none then (do
      let a ← kindV x.ah x.n1
      let b ← kindV x.bh x.n0
      let _ ← noHigh x.ch
      some (.vExp2 x.guard a b))
    else none

/-- Decodes VLOG2. -/
def dec_vLog2 (x : Fields) : Option Instr :=
    if x.ok true false true [] none then (do
      let a ← kindV x.ah x.n1
      let b ← kindV x.bh x.n0
      let _ ← noHigh x.ch
      some (.vLog2 x.guard a b))
    else none

/-- Decodes VRCP. -/
def dec_vRcp (x : Fields) : Option Instr :=
    if x.ok true false true [] none then (do
      let a ← kindV x.ah x.n1
      let b ← kindV x.bh x.n0
      let _ ← noHigh x.ch
      some (.vRcp x.guard a b))
    else none

/-- Decodes VRSQ. -/
def dec_vRsq (x : Fields) : Option Instr :=
    if x.ok true false true [] none then (do
      let a ← kindV x.ah x.n1
      let b ← kindV x.bh x.n0
      let _ ← noHigh x.ch
      some (.vRsq x.guard a b))
    else none

/-- Decodes VTANH. -/
def dec_vTanh (x : Fields) : Option Instr :=
    if x.ok true false true [] none then (do
      let a ← kindV x.ah x.n1
      let b ← kindV x.bh x.n0
      let _ ← noHigh x.ch
      some (.vTanh x.guard a b))
    else none

/-- Page 2, class 1 of the opcode map. -/
def page2c1 (x : Fields) : Option Instr :=
  match x.op4 with
  | 0 => dec_vAddF x
  | 1 => dec_vSubF x
  | 2 => dec_vMulF x
  | 3 => dec_vFmaF x
  | 4 => dec_vMinF x
  | 5 => dec_vMaxF x
  | 6 => dec_vCmpF x
  | 7 =>
    match x.n2 with
    | 0 => dec_vAbsF x
    | 1 => dec_vNegF x
    | 2 => dec_vExp2 x
    | 3 => dec_vLog2 x
    | 4 => dec_vRcp x
    | 5 => dec_vRsq x
    | 6 => dec_vTanh x
    | _ => none
  | _ => none

/-- Decodes VSHAPE: a shape that R131 forbids is no instruction, whatever the guard. DESIGN CHOICE: log entry 102. -/
def dec_vShape (x : Fields) : Option Instr :=
    if x.ok true false false [] none then (do
      let _ ← kind0 x.ah x.n2
      let _ ← noHigh x.bh
      let _ ← noHigh x.ch
      let _ ← need (decide (x.n0 < 4 ∧ x.n1 + x.n0 ≤ 10))
      some (.vShape x.guard (Fin.ofNat 16 x.n1) (Fin.ofNat 4 x.n0)))
    else none

/-- Decodes VLD. -/
def dec_vLd (x : Fields) : Option Instr :=
    if x.ok true false true [] none then (do
      let a ← kindV x.ah x.n2
      let b ← kindS x.bh x.n1
      let c ← kindS x.ch x.n0
      some (.vLd x.guard a b c))
    else none

/-- Decodes VST. -/
def dec_vSt (x : Fields) : Option Instr :=
    if x.ok true false true [] none then (do
      let a ← kindV x.ah x.n2
      let b ← kindS x.bh x.n1
      let c ← kindS x.ch x.n0
      some (.vSt x.guard a b c))
    else none

/-- Decodes VBCAST. -/
def dec_vBcast (x : Fields) : Option Instr :=
    if x.ok true false true [] none then (do
      let a ← kindV x.ah x.n1
      let b ← kindS x.bh x.n0
      let _ ← noHigh x.ch
      some (.vBcast x.guard a b))
    else none

/-- Decodes VTRN. -/
def dec_vTrn (x : Fields) : Option Instr :=
    if x.ok true false true [] none then (do
      let a ← kindV x.ah x.n1
      let b ← kindV x.bh x.n0
      let _ ← noHigh x.ch
      some (.vTrn x.guard a b))
    else none

/-- Decodes VMOVX_TO_SCALAR. -/
def dec_vMovxToScalar (x : Fields) : Option Instr :=
    if x.ok true false true [] none then (do
      let a ← kindS x.ah x.n2
      let b ← kindV x.bh x.n1
      let c ← kindS x.ch x.n0
      some (.vMovxToScalar x.guard a b c))
    else none

/-- Decodes VMOVX_TO_ELEMENT. -/
def dec_vMovxToElement (x : Fields) : Option Instr :=
    if x.ok true false true [] none then (do
      let a ← kindV x.ah x.n2
      let b ← kindS x.bh x.n1
      let c ← kindS x.ch x.n0
      some (.vMovxToElement x.guard a b c))
    else none

/-- Decodes VCVT: one with the same code twice is no instruction, whatever the guard (R52, R59). DESIGN CHOICE: log entry 102. -/
def dec_vCvt (x : Fields) : Option Instr :=
    if x.ok true true true [] none then (do
      let a ← kindV x.ah x.n1
      let b ← kindV x.bh x.n0
      let _ ← noHigh x.ch
      let src ← VFmt.ofCode x.rq
      let dst ← VFmt.ofCode x.n2
      let _ ← need (decide (dst ≠ src))
      some (.vCvt x.guard dst src a b))
    else none

/-- Decodes VREDR. -/
def dec_vRedr (x : Fields) : Option Instr :=
    if x.ok true false true [] none then (do
      let a ← kindV x.ah x.n1
      let b ← kindV x.bh x.n0
      let _ ← noHigh x.ch
      let op ← RedOp.ofCode x.n2
      some (.vRedr x.guard op a b))
    else none

/-- Decodes VREDC. -/
def dec_vRedc (x : Fields) : Option Instr :=
    if x.ok true false true [] none then (do
      let a ← kindV x.ah x.n1
      let b ← kindV x.bh x.n0
      let _ ← noHigh x.ch
      let op ← RedOp.ofCode x.n2
      some (.vRedc x.guard op a b))
    else none

/-- Decodes VSCAN. -/
def dec_vScan (x : Fields) : Option Instr :=
    if x.ok true false true [] none then (do
      let a ← kindV x.ah x.n1
      let b ← kindV x.bh x.n0
      let _ ← noHigh x.ch
      let op ← RedOp.ofCode x.n2
      some (.vScan x.guard op a b))
    else none

/-- Decodes VPERM. -/
def dec_vPerm (x : Fields) : Option Instr :=
    if x.ok true false true [] none then (do
      let a ← kindV x.ah x.n2
      let b ← kindV x.bh x.n1
      let c ← kindV x.ch x.n0
      some (.vPerm x.guard a b c))
    else none

/-- Decodes VMASKB. -/
def dec_vMaskb (x : Fields) : Option Instr :=
    if x.ok true true true [] none then (do
      let a ← kindS x.ah x.n2
      let b ← kindV x.bh x.n1
      let c ← kindS x.ch x.n0
      some (.vMaskb x.guard a b c (Fin.ofNat 16 x.rq)))
    else none

/-- Page 2, class 2 of the opcode map. -/
def page2c2 (x : Fields) : Option Instr :=
  match x.op4 with
  | 0 => dec_vShape x
  | 1 => dec_vLd x
  | 2 => dec_vSt x
  | 3 =>
    match x.n2 with
    | 0 => dec_vBcast x
    | 1 => dec_vTrn x
    | _ => none
  | 4 => dec_vMovxToScalar x
  | 5 => dec_vMovxToElement x
  | 6 => dec_vCvt x
  | 7 => dec_vRedr x
  | 8 => dec_vRedc x
  | 9 => dec_vScan x
  | 10 => dec_vPerm x
  | 11 => dec_vMaskb x
  | _ => none

/-- Decodes LRW. -/
def dec_lrw (x : Fields) : Option Instr :=
    if x.ok true false true [] none then (do
      let sc ← Scope.ofCode (x.q % 4)
      let a ← kindS x.ah x.n1
      let b ← kindS x.bh x.n0
      let _ ← noHigh x.ch
      let _ ← x.relaxed
      some (.lrw x.guard sc a b))
    else none

/-- Decodes SCH. -/
def dec_sch (x : Fields) : Option Instr :=
    if x.ok true false true [] none then (do
      let sc ← Scope.ofCode (x.q % 4)
      let a ← kindS x.ah x.n1
      let b ← kindS x.bh x.n0
      let _ ← noHigh x.ch
      let _ ← x.relaxed
      some (.sch x.guard sc a b))
    else none

/-- Decodes RLS. -/
def dec_rls (x : Fields) : Option Instr :=
    if x.ok true false true [] none then (do
      let sc ← Scope.ofCode (x.q % 4)
      let _ ← kind0 x.ah x.n1
      let b ← kindS x.bh x.n0
      let _ ← noHigh x.ch
      let _ ← x.relaxed
      some (.rls x.guard sc b))
    else none

/-- Decodes AMO_D. -/
def dec_amoD (x : Fields) : Option Instr :=
    if x.ok true true true [] none then (do
      let o ← Order.ofCode (x.q / 4)
      let sc ← Scope.ofCode (x.q % 4)
      let a ← kindS x.ah x.n2
      let b ← kindS x.bh x.n1
      let c ← kindS x.ch x.n0
      let op ← AmoOp.ofCode x.rq
      let _ ← need op.okD
      some (.amoD x.guard o sc op a b c))
    else none

/-- Decodes AMO_W. -/
def dec_amoW (x : Fields) : Option Instr :=
    if x.ok true true true [] none then (do
      let o ← Order.ofCode (x.q / 4)
      let sc ← Scope.ofCode (x.q % 4)
      let a ← kindS x.ah x.n2
      let b ← kindS x.bh x.n1
      let c ← kindS x.ch x.n0
      let op ← AmoOp.ofCode x.rq
      let _ ← need op.okW
      some (.amoW x.guard o sc op a b c))
    else none

/-- Decodes AMO_H. -/
def dec_amoH (x : Fields) : Option Instr :=
    if x.ok true true true [] none then (do
      let o ← Order.ofCode (x.q / 4)
      let sc ← Scope.ofCode (x.q % 4)
      let a ← kindS x.ah x.n2
      let b ← kindS x.bh x.n1
      let c ← kindS x.ch x.n0
      let op ← AmoOp.ofCode x.rq
      let _ ← need op.okH
      some (.amoH x.guard o sc op a b c))
    else none

/-- Decodes CAS_D. -/
def dec_casD (x : Fields) : Option Instr :=
    if x.ok true false true [] none then (do
      let o ← Order.ofCode (x.q / 4)
      let sc ← Scope.ofCode (x.q % 4)
      let a ← kindS x.ah x.n2
      let b ← kindS x.bh x.n1
      let c ← kindS x.ch x.n0
      some (.casD x.guard o sc a b c))
    else none

/-- Decodes CAS_Q. -/
def dec_casQ (x : Fields) : Option Instr :=
    if x.ok true false true [] none then (do
      let o ← Order.ofCode (x.q / 4)
      let sc ← Scope.ofCode (x.q % 4)
      let a ← kindS x.ah x.n2
      let b ← kindS x.bh x.n1
      let c ← kindS x.ch x.n0
      let _ ← need (decide (a.val % 2 = 0))
      let _ ← need (decide (c.val % 2 = 0))
      some (.casQ x.guard o sc a b c))
    else none

/-- Decodes RED. -/
def dec_red (x : Fields) : Option Instr :=
    if x.ok true true true [] none then (do
      let o ← Order.ofCode (x.q / 4)
      let sc ← Scope.ofCode (x.q % 4)
      let w ← (kindN 16 x.ah x.n2).bind RedWidth.ofCode
      let b ← kindS x.bh x.n1
      let c ← kindS x.ch x.n0
      let op ← AmoOp.ofCode x.rq
      let _ ← need (o.okRed && w.accepts op)
      some (.red x.guard o sc w op b c))
    else none

/-- Decodes FENCE. -/
def dec_fence (x : Fields) : Option Instr :=
    if x.ok true false false [] none then (do
      let sc ← Scope.ofCode (x.q % 4)
      let _ ← kind0 x.ah x.n1
      let _ ← need (decide (x.bh = 0 ∧ x.n0 = 0))
      let _ ← noHigh x.ch
      let _ ← x.relaxed
      some (.fence x.guard sc))
    else none

/-- Decodes FENCE_S. -/
def dec_fenceS (x : Fields) : Option Instr :=
    if x.ok true false false [] none then (do
      let sc ← Scope.ofCode (x.q % 4)
      let _ ← kind0 x.ah x.n1
      let _ ← need (decide (x.bh = 0 ∧ x.n0 = 1))
      let _ ← noHigh x.ch
      let _ ← x.relaxed
      some (.fenceS x.guard sc))
    else none

/-- Decodes FENCE_X. -/
def dec_fenceX (x : Fields) : Option Instr :=
    if x.ok true false true [] none then (do
      let sc ← Scope.ofCode (x.q % 4)
      let k1 ← (kindN 5 x.ah x.n1).bind Path.ofCode
      let k2 ← (kindN 5 x.bh x.n0).bind Path.ofCode
      let _ ← noHigh x.ch
      let _ ← x.relaxed
      some (.fenceX x.guard sc k1 k2))
    else none

/-- Decodes CLKMAX. -/
def dec_clkmax (x : Fields) : Option Instr :=
    if x.ok true false true [] none then (do
      let a ← kindS x.ah x.n1
      let _ ← kind0 x.bh x.n0
      let _ ← noHigh x.ch
      let _ ← x.qZero
      some (.clkmax x.guard a))
    else none

/-- Decodes RDTCK. -/
def dec_rdtck (x : Fields) : Option Instr :=
    if x.ok true false true [] none then (do
      let a ← kindS x.ah x.n1
      let _ ← kind0 x.bh x.n0
      let _ ← noHigh x.ch
      let _ ← x.qZero
      some (.rdtck x.guard a))
    else none

/-- Decodes MWAIT. -/
def dec_mwait (x : Fields) : Option Instr :=
    if x.ok true false false [] none then (do
      let _ ← kind0 x.ah x.n1
      let _ ← kind0 x.bh x.n0
      let _ ← noHigh x.ch
      let _ ← x.qZero
      some (.mwait x.guard))
    else none

/-- Decodes POLL. -/
def dec_poll (x : Fields) : Option Instr :=
    if x.ok true false true [] none then (do
      let sc ← Scope.ofCode (x.q % 4)
      let a ← kindS x.ah x.n1
      let b ← kindS x.bh x.n0
      let _ ← noHigh x.ch
      let _ ← x.relaxed
      some (.poll x.guard sc a b))
    else none

/-- Decodes MON. -/
def dec_mon (x : Fields) : Option Instr :=
    if x.ok true false true [] none then (do
      let sc ← Scope.ofCode (x.q % 4)
      let _ ← kind0 x.ah x.n1
      let b ← kindS x.bh x.n0
      let _ ← noHigh x.ch
      let _ ← x.relaxed
      some (.mon x.guard sc b))
    else none

/-- Decodes BARI. -/
def dec_bari (x : Fields) : Option Instr :=
    if x.ok true false true [] none then (do
      let sc ← Scope.ofCode (x.q % 4)
      let a ← kindS x.ah x.n1
      let b ← kindS x.bh x.n0
      let _ ← noHigh x.ch
      let _ ← x.relaxed
      some (.bari x.guard sc a b))
    else none

/-- Decodes BARA. -/
def dec_bara (x : Fields) : Option Instr :=
    if x.ok true false true [] none then (do
      let sc ← Scope.ofCode (x.q % 4)
      let a ← kindS x.ah x.n1
      let b ← kindS x.bh x.n0
      let _ ← noHigh x.ch
      let _ ← x.relaxed
      some (.bara x.guard sc a b))
    else none

/-- Decodes BARX. -/
def dec_barx (x : Fields) : Option Instr :=
    if x.ok true false true [] none then (do
      let sc ← Scope.ofCode (x.q % 4)
      let a ← kindS x.ah x.n1
      let b ← kindS x.bh x.n0
      let _ ← noHigh x.ch
      let _ ← x.relaxed
      some (.barx x.guard sc a b))
    else none

/-- Decodes BARW. -/
def dec_barw (x : Fields) : Option Instr :=
    if x.ok true false true [] none then (do
      let sc ← Scope.ofCode (x.q % 4)
      let a ← kindS x.ah x.n1
      let b ← kindS x.bh x.n0
      let _ ← noHigh x.ch
      let _ ← x.relaxed
      some (.barw x.guard sc a b))
    else none

/-- Page 3 of the opcode map. -/
def page3 (x : Fields) : Option Instr :=
  match x.op4 with
  | 0 =>
    match x.n2 with
    | 0 => dec_lrw x
    | 1 => dec_sch x
    | 2 => dec_rls x
    | _ => none
  | 1 => dec_amoD x
  | 2 => dec_amoW x
  | 3 => dec_amoH x
  | 4 => dec_casD x
  | 5 => dec_casQ x
  | 6 => dec_red x
  | 7 =>
    match x.n2 with
    | 0 => (dec_fence x <|> dec_fenceS x)
    | 1 => dec_fenceX x
    | 2 => dec_clkmax x
    | 3 => dec_rdtck x
    | 4 => dec_mwait x
    | _ => none
  | 8 =>
    match x.n2 with
    | 0 => dec_poll x
    | 1 => dec_mon x
    | _ => none
  | 9 =>
    match x.n2 with
    | 0 => dec_bari x
    | 1 => dec_bara x
    | 2 => dec_barx x
    | 3 => dec_barw x
    | _ => none
  | _ => none

/-- Decodes SDEF. -/
def dec_sdef (x : Fields) : Option Instr :=
    if x.ok true false true [] none then (do
      let a ← kindS x.ah x.n1
      let b ← kindS x.bh x.n0
      let _ ← noHigh x.ch
      some (.sdef x.guard a b))
    else none

/-- Decodes SBIND. -/
def dec_sbind (x : Fields) : Option Instr :=
    if x.ok true false true [] none then (do
      let a ← kind8 x.ah x.n1
      let b ← kindS x.bh x.n0
      let _ ← noHigh x.ch
      some (.sbind x.guard a b))
    else none

/-- Decodes SGO. -/
def dec_sgo (x : Fields) : Option Instr :=
    if x.ok true false true [] none then (do
      let _ ← kind0 x.ah x.n1
      let b ← kindS x.bh x.n0
      let _ ← noHigh x.ch
      some (.sgo x.guard b))
    else none

/-- Decodes SRECALL. -/
def dec_srecall (x : Fields) : Option Instr :=
    if x.ok true false true [] none then (do
      let _ ← kind0 x.ah x.n1
      let b ← kindS x.bh x.n0
      let _ ← noHigh x.ch
      some (.srecall x.guard b))
    else none

/-- Decodes SSTAT. -/
def dec_sstat (x : Fields) : Option Instr :=
    if x.ok true false true [] none then (do
      let a ← kindS x.ah x.n1
      let b ← kindS x.bh x.n0
      let _ ← noHigh x.ch
      some (.sstat x.guard a b))
    else none

/-- Decodes SWAIT. -/
def dec_swait (x : Fields) : Option Instr :=
    if x.ok true false true [] none then (do
      let _ ← kind0 x.ah x.n1
      let b ← kindS x.bh x.n0
      let _ ← noHigh x.ch
      some (.swait x.guard b))
    else none

/-- Decodes SFREE. -/
def dec_sfree (x : Fields) : Option Instr :=
    if x.ok true false true [] none then (do
      let _ ← kind0 x.ah x.n1
      let b ← kindS x.bh x.n0
      let _ ← noHigh x.ch
      some (.sfree x.guard b))
    else none

/-- Page 4 of the opcode map. -/
def page4 (x : Fields) : Option Instr :=
  match x.op4 with
  | 0 =>
    match x.n2 with
    | 0 => dec_sdef x
    | 1 => dec_sbind x
    | 2 => dec_sgo x
    | 3 => dec_srecall x
    | 4 => dec_sstat x
    | 5 => dec_swait x
    | 6 => dec_sfree x
    | _ => none
  | _ => none

/-- Decodes TSEAL. -/
def dec_tseal (x : Fields) : Option Instr :=
    if x.ok true false true [] none then (do
      let _ ← kind0 x.ah x.n1
      let b ← kindS x.bh x.n0
      let _ ← noHigh x.ch
      some (.tseal x.guard b))
    else none

/-- Decodes TPREF. -/
def dec_tpref (x : Fields) : Option Instr :=
    if x.ok true false true [] none then (do
      let _ ← kind0 x.ah x.n1
      let b ← kindS x.bh x.n0
      let _ ← noHigh x.ch
      some (.tpref x.guard b))
    else none

/-- Decodes TSTAT. -/
def dec_tstat (x : Fields) : Option Instr :=
    if x.ok true false true [] none then (do
      let a ← kindS x.ah x.n1
      let b ← kindS x.bh x.n0
      let _ ← noHigh x.ch
      some (.tstat x.guard a b))
    else none

/-- Decodes TCOPY_SP. -/
def dec_tcopySp (x : Fields) : Option Instr :=
    if x.ok true true true [] none then (do
      let a ← kindS x.ah x.n2
      let b ← kindS x.bh x.n1
      let c ← kindS x.ch x.n0
      let _ ← need (decide (x.rq = 0))
      some (.tcopySp x.guard a b c))
    else none

/-- Decodes TCOPY_SLOT. -/
def dec_tcopySlot (x : Fields) : Option Instr :=
    if x.ok true true true [] none then (do
      let a ← kindS x.ah x.n2
      let b ← kindS x.bh x.n1
      let c ← kindS x.ch x.n0
      let _ ← need (decide (x.rq = 1))
      some (.tcopySlot x.guard a b c))
    else none

/-- Decodes TCOPY_WS. -/
def dec_tcopyWs (x : Fields) : Option Instr :=
    if x.ok true true true [] none then (do
      let a ← kindS x.ah x.n2
      let b ← kindS x.bh x.n1
      let c ← kindS x.ch x.n0
      let _ ← need (decide (x.rq = 2))
      some (.tcopyWs x.guard a b c))
    else none

/-- Decodes TCOPY_MEM. -/
def dec_tcopyMem (x : Fields) : Option Instr :=
    if x.ok true true true [] none then (do
      let a ← kindS x.ah x.n2
      let b ← kindS x.bh x.n1
      let c ← kindS x.ch x.n0
      let _ ← need (decide (x.rq = 3))
      some (.tcopyMem x.guard a b c))
    else none

/-- Decodes TCOPYM. -/
def dec_tcopym (x : Fields) : Option Instr :=
    if x.ok true false true [] none then (do
      let a ← kindS x.ah x.n2
      let b ← kindS x.bh x.n1
      let c ← kindS x.ch x.n0
      some (.tcopym x.guard a b c))
    else none

/-- Decodes TRED. -/
def dec_tred (x : Fields) : Option Instr :=
    if x.ok true true true [] none then (do
      let a ← kindS x.ah x.n2
      let b ← kindS x.bh x.n1
      let c ← kindS x.ch x.n0
      let op ← TredOp.ofCode x.rq
      some (.tred x.guard op a b c))
    else none

/-- Page 5 of the opcode map. -/
def page5 (x : Fields) : Option Instr :=
  match x.op4 with
  | 0 =>
    match x.n2 with
    | 0 => dec_tseal x
    | 1 => dec_tpref x
    | 2 => dec_tstat x
    | _ => none
  | 1 => (dec_tcopySp x <|> dec_tcopySlot x <|> dec_tcopyWs x <|> dec_tcopyMem x)
  | 2 => dec_tcopym x
  | 3 => dec_tred x
  | _ => none

/-- Decodes MMA. -/
def dec_mma (x : Fields) : Option Instr :=
    if x.ok true false true [] none then (do
      let a ← kind8 x.ah x.n2
      let b ← kindM x.bh x.n1
      let c ← kindM x.ch x.n0
      some (.mma x.guard a b c))
    else none

/-- Decodes MCLM_SLOT. -/
def dec_mclmSlot (x : Fields) : Option Instr :=
    if x.ok true false true [] none then (do
      let a ← kindM x.ah x.n1
      let _ ← kind0 x.bh x.n0
      let _ ← noHigh x.ch
      some (.mclmSlot x.guard a))
    else none

/-- Decodes MCLM_ACC. -/
def dec_mclmAcc (x : Fields) : Option Instr :=
    if x.ok true false true [] none then (do
      let a ← kind8 x.ah x.n1
      let _ ← kind0 x.bh x.n0
      let _ ← noHigh x.ch
      some (.mclmAcc x.guard a))
    else none

/-- Decodes MREL_SLOT. -/
def dec_mrelSlot (x : Fields) : Option Instr :=
    if x.ok true false true [] none then (do
      let a ← kindM x.ah x.n1
      let _ ← kind0 x.bh x.n0
      let _ ← noHigh x.ch
      some (.mrelSlot x.guard a))
    else none

/-- Decodes MREL_ACC. -/
def dec_mrelAcc (x : Fields) : Option Instr :=
    if x.ok true false true [] none then (do
      let a ← kind8 x.ah x.n1
      let _ ← kind0 x.bh x.n0
      let _ ← noHigh x.ch
      some (.mrelAcc x.guard a))
    else none

/-- Decodes MZERO. -/
def dec_mzero (x : Fields) : Option Instr :=
    if x.ok true false true [] none then (do
      let a ← kind8 x.ah x.n1
      let _ ← kind0 x.bh x.n0
      let _ ← noHigh x.ch
      some (.mzero x.guard a))
    else none

/-- Decodes MSTAT. -/
def dec_mstat (x : Fields) : Option Instr :=
    if x.ok true false true [] none then (do
      let a ← kindS x.ah x.n1
      let _ ← kind0 x.bh x.n0
      let _ ← noHigh x.ch
      some (.mstat x.guard a))
    else none

/-- Decodes MFILL. -/
def dec_mfill (x : Fields) : Option Instr :=
    if x.ok true true true [] none then (do
      let a ← kindM x.ah x.n2
      let b ← kindS x.bh x.n1
      let c ← kindS x.ch x.n0
      let _ ← need (decide (x.rq = 0))
      some (.mfill x.guard a b c))
    else none

/-- Decodes MFILL_V. -/
def dec_mfillV (x : Fields) : Option Instr :=
    if x.ok true true true [] none then (do
      let a ← kindM x.ah x.n2
      let b ← kindV x.bh x.n1
      let _ ← kind0 x.ch x.n0
      let _ ← need (decide (x.rq = 1))
      some (.mfillV x.guard a b))
    else none

/-- Decodes MLDW. -/
def dec_mldw (x : Fields) : Option Instr :=
    if x.ok true false true [] none then (do
      let a ← kindM x.ah x.n1
      let b ← kindS x.bh x.n0
      let _ ← noHigh x.ch
      some (.mldw x.guard a b))
    else none

/-- Decodes MSCL. -/
def dec_mscl (x : Fields) : Option Instr :=
    if x.ok true false true [] none then (do
      let a ← kindM x.ah x.n1
      let b ← kindS x.bh x.n0
      let _ ← noHigh x.ch
      some (.mscl x.guard a b))
    else none

/-- Decodes MSTC. -/
def dec_mstc (x : Fields) : Option Instr :=
    if x.ok true true true [] none then (do
      let a ← kind8 x.ah x.n2
      let b ← kindS x.bh x.n1
      let c ← kindS x.ch x.n0
      let _ ← need (decide (x.rq = 0))
      some (.mstc x.guard a b c))
    else none

/-- Decodes MSTC_V. -/
def dec_mstcV (x : Fields) : Option Instr :=
    if x.ok true true true [] none then (do
      let a ← kind8 x.ah x.n2
      let b ← kindV x.bh x.n1
      let _ ← kind0 x.ch x.n0
      let _ ← need (decide (x.rq = 1))
      some (.mstcV x.guard a b))
    else none

/-- Page 6 of the opcode map. -/
def page6 (x : Fields) : Option Instr :=
  match x.op4 with
  | 0 => dec_mma x
  | 1 =>
    match x.n2 with
    | 0 => dec_mclmSlot x
    | 1 => dec_mclmAcc x
    | 2 => dec_mrelSlot x
    | 3 => dec_mrelAcc x
    | 4 => dec_mzero x
    | 5 => dec_mstat x
    | _ => none
  | 2 => (dec_mfill x <|> dec_mfillV x)
  | 3 =>
    match x.n2 with
    | 0 => dec_mldw x
    | 1 => dec_mscl x
    | _ => none
  | 4 => (dec_mstc x <|> dec_mstcV x)
  | _ => none

/-- Decodes MIG. -/
def dec_mig (x : Fields) : Option Instr :=
    if x.ok true true true [] none then (do
      let _ ← kind0 x.ah x.n1
      let b ← kindS x.bh x.n0
      let _ ← noHigh x.ch
      let _ ← need (decide (x.rq = 0))
      some (.mig x.guard b))
    else none

/-- Decodes MIG_BANK. -/
def dec_migBank (x : Fields) : Option Instr :=
    if x.ok true true true [] none then (do
      let _ ← kind0 x.ah x.n1
      let b ← kindS x.bh x.n0
      let _ ← noHigh x.ch
      let _ ← need (decide (x.rq = 1))
      some (.migBank x.guard b))
    else none

/-- Decodes MBWAIT. -/
def dec_mbwait (x : Fields) : Option Instr :=
    if x.ok true false false [] none then (do
      let _ ← kind0 x.ah x.n1
      let _ ← kind0 x.bh x.n0
      let _ ← noHigh x.ch
      some (.mbwait x.guard))
    else none

/-- Decodes MBRECV. -/
def dec_mbrecv (x : Fields) : Option Instr :=
    if x.ok true false true [] none then (do
      let a ← kindS x.ah x.n1
      let b ← kindS x.bh x.n0
      let _ ← noHigh x.ch
      some (.mbrecv x.guard a b))
    else none

/-- Decodes MBSEND. -/
def dec_mbsend (x : Fields) : Option Instr :=
    if x.ok true false true [] none then (do
      let a ← kindS x.ah x.n1
      let b ← kindS x.bh x.n0
      let _ ← noHigh x.ch
      some (.mbsend x.guard a b))
    else none

/-- Decodes QSTAT. -/
def dec_qstat (x : Fields) : Option Instr :=
    if x.ok true false true [] none then (do
      let a ← kindS x.ah x.n1
      let b ← kind8 x.bh x.n0
      let _ ← noHigh x.ch
      some (.qstat x.guard a b))
    else none

/-- Decodes BKSEQ. -/
def dec_bkseq (x : Fields) : Option Instr :=
    if x.ok true false true [] none then (do
      let _ ← kind0 x.ah x.n1
      let b ← kindS x.bh x.n0
      let _ ← noHigh x.ch
      some (.bkseq x.guard b))
    else none

/-- Decodes BKSTAT. -/
def dec_bkstat (x : Fields) : Option Instr :=
    if x.ok true false true [] none then (do
      let a ← kindS x.ah x.n1
      let b ← kindS x.bh x.n0
      let _ ← noHigh x.ch
      some (.bkstat x.guard a b))
    else none

/-- Decodes DRZERO. -/
def dec_drzero (x : Fields) : Option Instr :=
    if x.ok true false true [] none then (do
      let a ← kindS x.ah x.n1
      let b ← kindS x.bh x.n0
      let _ ← noHigh x.ch
      some (.drzero x.guard a b))
    else none

/-- Decodes AMSG. -/
def dec_amsg (x : Fields) : Option Instr :=
    if x.ok true false true [] none then (do
      let a ← kindS x.ah x.n2
      let b ← kindS x.bh x.n1
      let c ← kindS x.ch x.n0
      some (.amsg x.guard a b c))
    else none

/-- Decodes BKADD. -/
def dec_bkadd (x : Fields) : Option Instr :=
    if x.ok true false true [] none then (do
      let a ← kindS x.ah x.n2
      let b ← kindS x.bh x.n1
      let c ← kindS x.ch x.n0
      some (.bkadd x.guard a b c))
    else none

/-- Decodes BKMUL. -/
def dec_bkmul (x : Fields) : Option Instr :=
    if x.ok true false true [] none then (do
      let a ← kindS x.ah x.n2
      let b ← kindS x.bh x.n1
      let c ← kindS x.ch x.n0
      some (.bkmul x.guard a b c))
    else none

/-- Decodes BKFMA. -/
def dec_bkfma (x : Fields) : Option Instr :=
    if x.ok true false true [] none then (do
      let a ← kindS x.ah x.n2
      let b ← kindS x.bh x.n1
      let c ← kindS x.ch x.n0
      some (.bkfma x.guard a b c))
    else none

/-- Decodes DRCPY. -/
def dec_drcpy (x : Fields) : Option Instr :=
    if x.ok true false true [] none then (do
      let a ← kindS x.ah x.n2
      let b ← kindS x.bh x.n1
      let _ ← kind0 x.ch x.n0
      some (.drcpy x.guard a b))
    else none

/-- Page 7 of the opcode map. -/
def page7 (x : Fields) : Option Instr :=
  match x.op4 with
  | 0 =>
    match x.n2 with
    | 0 => (dec_mig x <|> dec_migBank x)
    | 1 => dec_mbwait x
    | 2 => dec_mbrecv x
    | 3 => dec_mbsend x
    | 4 => dec_qstat x
    | 5 => dec_bkseq x
    | 6 => dec_bkstat x
    | 7 => dec_drzero x
    | _ => none
  | 1 => dec_amsg x
  | 2 => dec_bkadd x
  | 3 => dec_bkmul x
  | 4 => dec_bkfma x
  | 5 => dec_drcpy x
  | _ => none

/-- Decodes RETIRE. -/
def dec_retire (x : Fields) : Option Instr :=
    if x.ok true false false [] none then (do
      let _ ← kind0 x.ah x.n1
      let _ ← kind0 x.bh x.n0
      let _ ← noHigh x.ch
      some (.retire x.guard))
    else none

/-- Decodes TRET. -/
def dec_tret (x : Fields) : Option Instr :=
    if x.ok false false false [] none then (do
      let _ ← kind0 x.ah x.n1
      let _ ← kind0 x.bh x.n0
      let _ ← noHigh x.ch
      some .tret)
    else none

/-- Decodes GRET. -/
def dec_gret (x : Fields) : Option Instr :=
    if x.ok false false false [] none then (do
      let _ ← kind0 x.ah x.n1
      let _ ← kind0 x.bh x.n0
      let _ ← noHigh x.ch
      some .gret)
    else none

/-- Decodes GSYNC. -/
def dec_gsync (x : Fields) : Option Instr :=
    if x.ok true false false [] none then (do
      let _ ← kind0 x.ah x.n1
      let _ ← kind0 x.bh x.n0
      let _ ← noHigh x.ch
      some (.gsync x.guard))
    else none

/-- Decodes REPART. -/
def dec_repart (x : Fields) : Option Instr :=
    if x.ok true false false [] none then (do
      let m ← (kindN 16 x.ah x.n1).bind Mode.ofCode
      let _ ← kind0 x.bh x.n0
      let _ ← noHigh x.ch
      some (.repart x.guard m))
    else none

/-- Decodes RDGTC. -/
def dec_rdgtc (x : Fields) : Option Instr :=
    if x.ok true false true [] none then (do
      let a ← kindS x.ah x.n1
      let _ ← kind0 x.bh x.n0
      let _ ← noHigh x.ch
      some (.rdgtc x.guard a))
    else none

/-- Decodes RDCAL. -/
def dec_rdcal (x : Fields) : Option Instr :=
    if x.ok true false true [] none then (do
      let a ← kindS x.ah x.n1
      let n ← kindN 5 x.bh x.n0
      let _ ← noHigh x.ch
      some (.rdcal x.guard a (Fin.ofNat 5 n)))
    else none

/-- Decodes SLOTSET. -/
def dec_slotset (x : Fields) : Option Instr :=
    if x.ok true false true [] none then (do
      let _ ← kind0 x.ah x.n1
      let b ← kindS x.bh x.n0
      let _ ← noHigh x.ch
      some (.slotset x.guard b))
    else none

/-- Decodes STEP. -/
def dec_step (x : Fields) : Option Instr :=
    if x.ok true false true [] none then (do
      let _ ← kind0 x.ah x.n1
      let b ← kindS x.bh x.n0
      let _ ← noHigh x.ch
      some (.step x.guard b))
    else none

/-- Decodes MFC. -/
def dec_mfc (x : Fields) : Option Instr :=
    if x.ok true false true [] none then (do
      let a ← kindS x.ah x.n2
      let _ ← noHigh x.bh
      let _ ← noHigh x.ch
      let cr ← CR.ofCode x.imm8
      some (.mfc x.guard a cr))
    else none

/-- Decodes MTC. -/
def dec_mtc (x : Fields) : Option Instr :=
    if x.ok true false true [] none then (do
      let a ← kindS x.ah x.n2
      let _ ← noHigh x.bh
      let _ ← noHigh x.ch
      let cr ← CR.ofCode x.imm8
      some (.mtc x.guard cr a))
    else none

/-- Decodes TRAP. -/
def dec_trap (x : Fields) : Option Instr :=
    if x.ok true false false [] (some 8) then (do
      let _ ← kind0 x.ah x.n2
      let _ ← noHigh x.bh
      let _ ← noHigh x.ch
      some (.trap x.guard (x.immS 8 x.imm8)))
    else none

/-- Decodes YIELD. -/
def dec_yield (x : Fields) : Option Instr :=
    if x.ok false false false [] none then (do
      let _ ← kind0 x.ah x.n2
      let _ ← noHigh x.bh
      let _ ← noHigh x.ch
      let _ ← need (decide (x.imm8 < 128))
      some (.yield (Fin.ofNat 128 x.imm8)))
    else none

/-- Decodes GATE. -/
def dec_gate (x : Fields) : Option Instr :=
    if x.ok false false false [] none then (do
      let _ ← kind0 x.ah x.n2
      let _ ← noHigh x.bh
      let _ ← noHigh x.ch
      some (.gate (Fin.ofNat 256 x.imm8)))
    else none

/-- Decodes LAUNCH. -/
def dec_launch (x : Fields) : Option Instr :=
    if x.ok true true true [] none then (do
      let a ← kindS x.ah x.n2
      let b ← kindS x.bh x.n1
      let c ← kindS x.ch x.n0
      let _ ← need (decide (x.rq = 0))
      some (.launch x.guard a b c))
    else none

/-- Decodes LAUNCH_W. -/
def dec_launchW (x : Fields) : Option Instr :=
    if x.ok true true true [] none then (do
      let a ← kindS x.ah x.n2
      let b ← kindS x.bh x.n1
      let c ← kindS x.ch x.n0
      let _ ← need (decide (x.rq = 1))
      some (.launchW x.guard a b c))
    else none

/-- Decodes LAUNCHI. -/
def dec_launchi (x : Fields) : Option Instr :=
    if x.ok true true true [] none then (do
      let a ← kindS x.ah x.n2
      let b ← kindS x.bh x.n1
      let c ← kindS x.ch x.n0
      let _ ← need (decide (x.rq = 0))
      some (.launchi x.guard a b c))
    else none

/-- Decodes LAUNCHI_W. -/
def dec_launchiW (x : Fields) : Option Instr :=
    if x.ok true true true [] none then (do
      let a ← kindS x.ah x.n2
      let b ← kindS x.bh x.n1
      let c ← kindS x.ch x.n0
      let _ ← need (decide (x.rq = 1))
      some (.launchiW x.guard a b c))
    else none

/-- Decodes CLNR. -/
def dec_clnr (x : Fields) : Option Instr :=
    if x.ok true false true [] none then (do
      let a ← kindS x.ah x.n1
      let b ← kindS x.bh x.n0
      let _ ← noHigh x.ch
      some (.clnr x.guard a b))
    else none

/-- Decodes INVR. -/
def dec_invr (x : Fields) : Option Instr :=
    if x.ok true false true [] none then (do
      let a ← kindS x.ah x.n1
      let b ← kindS x.bh x.n0
      let _ ← noHigh x.ch
      some (.invr x.guard a b))
    else none

/-- Decodes FLSR. -/
def dec_flsr (x : Fields) : Option Instr :=
    if x.ok true false true [] none then (do
      let a ← kindS x.ah x.n1
      let b ← kindS x.bh x.n0
      let _ ← noHigh x.ch
      some (.flsr x.guard a b))
    else none

/-- Decodes PREF. -/
def dec_pref (x : Fields) : Option Instr :=
    if x.ok true false true [] none then (do
      let a ← kindS x.ah x.n1
      let b ← kindS x.bh x.n0
      let _ ← noHigh x.ch
      some (.pref x.guard a b))
    else none

/-- Decodes TLBI. -/
def dec_tlbi (x : Fields) : Option Instr :=
    if x.ok true false true [] none then (do
      let a ← kindS x.ah x.n1
      let b ← kindS x.bh x.n0
      let _ ← noHigh x.ch
      some (.tlbi x.guard a b))
    else none

/-- Decodes TLBSD. -/
def dec_tlbsd (x : Fields) : Option Instr :=
    if x.ok true false true [] none then (do
      let a ← kindS x.ah x.n1
      let b ← kindS x.bh x.n0
      let _ ← noHigh x.ch
      some (.tlbsd x.guard a b))
    else none

/-- Page 8 of the opcode map. -/
def page8 (x : Fields) : Option Instr :=
  match x.op4 with
  | 0 =>
    match x.n2 with
    | 0 => dec_retire x
    | 1 => dec_tret x
    | 2 => dec_gret x
    | 3 => dec_gsync x
    | 4 => dec_repart x
    | 5 => dec_rdgtc x
    | 6 => dec_rdcal x
    | 7 => dec_slotset x
    | 8 => dec_step x
    | _ => none
  | 1 => dec_mfc x
  | 2 => dec_mtc x
  | 3 => dec_trap x
  | 4 => dec_yield x
  | 5 => dec_gate x
  | 6 => (dec_launch x <|> dec_launchW x)
  | 7 => (dec_launchi x <|> dec_launchiW x)
  | 8 =>
    match x.n2 with
    | 0 => dec_clnr x
    | 1 => dec_invr x
    | 2 => dec_flsr x
    | 3 => dec_pref x
    | 4 => dec_tlbi x
    | 5 => dec_tlbsd x
    | _ => none
  | _ => none

/-- The instruction of a whole chain, if it is one (R49 to R59). -/
def ofFields (x : Fields) : Option Instr :=
  if pagOk x.page x.q then
    match x.page with
    | 0 => page0 x
    | 1 => (match x.q / 4 with
      | 0 => page1c0 x
      | 1 => page1c1 x
      | 2 => page1c2 x
      | _ => none)
    | 2 => (match x.q / 4 with
      | 0 => page2c0 x
      | 1 => page2c1 x
      | 2 => page2c2 x
      | _ => none)
    | 3 => page3 x
    | 4 => page4 x
    | 5 => page5 x
    | 6 => page6 x
    | 7 => page7 x
    | 8 => page8 x
    | _ => none
  else none

/-- The prefixes of a chain read so far, the words read (the last one first), and what they have said. -/
structure ChainSt where
  words : List Half
  grd   : Option Guard
  pag   : Option (Nat × Nat)
  rex   : Option (Nat × Nat × Nat × Nat)
  imx   : List Nat
  deriving DecidableEq, Repr

/-- A chain of which nothing has been read. -/
def ChainSt.empty : ChainSt := ⟨[], none, none, none, []⟩

/-- What one more word makes of a chain (R39, R40, R60): more words are needed, the chain is illegal at this word, or this
is the base word of an instruction. -/
inductive Feed where
  | more (c : ChainSt)
  | bad (c : ChainSt)
  | done (i : Instr) (c : ChainSt)
  deriving DecidableEq, Repr

/-- The fields of a chain whose base word has been read; a missing prefix counts as R40 says. -/
def ChainSt.fields (c : ChainSt) (base : Half) : Fields :=
  let p := c.pag.getD (0, 0)
  let r := c.rex.getD (0, 0, 0, 0)
  { guard := c.grd.getD .always, page := p.1, q := p.2, rex := c.rex.isSome,
    ah := r.1, bh := r.2.1, ch := r.2.2.1, rq := r.2.2.2, imx := c.imx, base := base.toNat }

/-- One more word of a chain (R39, R40, R42, R60). -/
def ChainSt.feed (c : ChainSt) (w : Half) : Feed :=
  let v := w.toNat
  let c' : ChainSt := { c with words := w :: c.words }
  if v / 4096 = 15 then
    if 4 ≤ c.words.length then .bad c'
    else match v / 1024 % 4 with
    | 0 => if 3 ≤ c.imx.length then .bad c' else .more { c' with imx := c.imx ++ [v % 1024] }
    | 1 => if c.rex.isSome then .bad c'
           else .more { c' with rex := some (v / 256 % 4, v / 64 % 4, v / 16 % 4, v % 16) }
    | 2 => if c.pag.isSome || !pagOk (v / 16 % 64) (v % 16) then .bad c'
           else .more { c' with pag := some (v / 16 % 64, v % 16) }
    | _ => if c.grd.isSome || decide (v % 16 ≠ 0) then .bad c'
           else .more { c' with grd := some (.when (decide (v / 512 % 2 = 1)) (Fin.ofNat 32 (v / 16))) }
  else match ofFields (c.fields w) with
    | none => .bad c'
    | some i => .done i c'

/-- The last four words read, the last one in bits [15:0] (R31, R60). -/
def tvalWords (words : List Half) : Word :=
  match words with
  | [] => 0
  | [a] => a.zeroExtend 64
  | [a, b] => (b ++ a).zeroExtend 64
  | [a, b, c] => (c ++ b ++ a).zeroExtend 64
  | a :: b :: c :: d :: _ => d ++ c ++ b ++ a

/-- What decoding a list of words gives: an instruction and how many words it took, an illegal chain with the words of R60,
or too few words. -/
inductive Decoded where
  | ok (i : Instr) (n : Nat)
  | illegal (tval : Word)
  | short
  deriving DecidableEq, Repr

/-- Decoding from a chain already begun. -/
def decodeFrom (c : ChainSt) : List Half → Decoded
  | [] => .short
  | w :: ws =>
    match c.feed w with
    | .more c' => decodeFrom c' ws
    | .bad c' => .illegal (tvalWords c'.words)
    | .done i c' => .ok i c'.words.length

/-- Decoding of any list of words (R39 to R60). -/
def decode (ws : List Half) : Decoded := decodeFrom .empty ws

/-- The words of `nbits` bits numbered as the table of operations numbers them: the table writes a row as one number whose
last word (the base word) is in bits [15:0] and whose prefix is above it, so the words in fetch order are taken from the
top. Where the top word is no prefix and the bottom one is, the words are taken from the bottom. DEDUCED: log entry 9. -/
def tableWords (nbits w : Nat) : List Half :=
  let n := nbits / 16
  let up := (List.range n).map fun i => BitVec.ofNat 16 (w / 2 ^ (16 * i))
  if decide (1 < n) && decide ((up.getD 0 0).toNat / 4096 = 15) && decide ((up.getD (n - 1) 0).toNat / 4096 ≠ 15) then up
  else up.reverse

/-- The instruction the decoder reads from a row of the table of operations. -/
def decodeTableWord (nbits w : Nat) : Option Instr :=
  match decode (tableWords nbits w ++ [0, 0, 0, 0]) with
  | .ok i _ => some i
  | _ => none

/-! The encoder, from the same tables (R39 to R58, R67). -/

/-- The low four bits of a scalar operand's field (R46). -/
def SOp.lo : SOp → Nat
  | .s r => r.val % 16
  | .q i => i.val
  | .z i => 8 + i.val

/-- The REX high bits of a scalar operand's field (R45). -/
def SOp.hi : SOp → Nat
  | .s r => r.val / 16
  | .q _ => 0
  | .z _ => 0

/-- PAG.Q[1:0] for the operands of fields a, b and c (R46). -/
def selOf (a b c : SOp) : Nat :=
  if a.special then 3 else if b.special then 1 else if c.special then 2 else 0

/-- An operand that names no queue and no stream, for a field the form does not have. -/
def noOp : SOp := .s 0

/-- The IMX payloads of a signed value over a base immediate of `w` bits, the most significant first (R41, R67). -/
def imxOf (w n : Nat) (v : Int) : List Nat :=
  let bits := (v % (2 ^ (10 * n + w) : Nat)).toNat
  (List.range n).map fun i => bits / 2 ^ (w + 10 * (n - 1 - i)) % 1024

/-- The base immediate of a signed value (R41). -/
def baseOf (w : Nat) (v : Int) : Nat := (v % (2 ^ w : Nat)).toNat

/-- Fields of a chain whose REX prefix is there exactly when it says something (R67). -/
def mkFields (g : Guard) (page q ah bh ch rq : Nat) (imx : List Nat) (base : Nat) : Fields :=
  { guard := g, page := page, q := q, rex := decide (ah ≠ 0 ∨ bh ≠ 0 ∨ ch ≠ 0 ∨ rq ≠ 0),
    ah := ah, bh := bh, ch := ch, rq := rq, imx := imx, base := base }

/-- A base word from its four groups of four bits (R44). -/
def word4 (o a b c : Nat) : Nat := o * 4096 + a * 256 + b * 16 + c

/-- A base word of format RI8 (R44). -/
def wordI (o a i : Nat) : Nat := o * 4096 + a * 256 + i

/-- What the chain of an instruction says (R49 to R58). An event has no chain; it is given the words of NOP. -/
def fieldsOf : Instr → Fields
  | .add g a b c => mkFields g 0 (selOf a b c) a.hi b.hi c.hi 0 [] (word4 0 a.lo b.lo c.lo)
  | .sub g a b c => mkFields g 0 (selOf a b c) a.hi b.hi c.hi 0 [] (word4 1 a.lo b.lo c.lo)
  | .and g a b c => mkFields g 0 (selOf a b c) a.hi b.hi c.hi 0 [] (word4 2 a.lo b.lo c.lo)
  | .or g a b c => mkFields g 0 (selOf a b c) a.hi b.hi c.hi 0 [] (word4 3 a.lo b.lo c.lo)
  | .xor g a b c => mkFields g 0 (selOf a b c) a.hi b.hi c.hi 0 [] (word4 4 a.lo b.lo c.lo)
  | .sel g a b c n => mkFields g 0 (selOf a b c) a.hi b.hi c.hi n.val [] (word4 5 a.lo b.lo c.lo)
  | .cmpReg g a b c k => mkFields g 0 (selOf noOp b c) (a.val / 16) b.hi c.hi k.code [] (word4 6 (a.val % 16) b.lo c.lo)
  | .cmpImm g a b imm k => mkFields g 0 (selOf noOp b noOp) (a.val / 16) b.hi 0 k.code (imxOf 4 ((imxNeeded 4 imm).getD 0) imm) (word4 7 (a.val % 16) b.lo (baseOf 4 imm))
  | .li g a imm => mkFields g 0 (selOf a noOp noOp) a.hi 0 0 0 (imxOf 8 ((imxNeeded 8 imm).getD 0) imm) (wordI 8 a.lo (baseOf 8 imm))
  | .j g imm => mkFields g 0 0 0 0 0 0 (imxOf 12 ((imxNeeded 12 imm).getD 0) imm) (9 * 4096 + (baseOf 12 imm))
  | .ldB g a b off => mkFields g 0 (selOf a b noOp) a.hi b.hi 0 0 (imxOf 0 ((imxNeeded 0 off).getD 0) off) (word4 10 0 a.lo b.lo)
  | .ldBu g a b off => mkFields g 0 (selOf a b noOp) a.hi b.hi 0 0 (imxOf 0 ((imxNeeded 0 off).getD 0) off) (word4 10 1 a.lo b.lo)
  | .ldH g a b off => mkFields g 0 (selOf a b noOp) a.hi b.hi 0 0 (imxOf 0 ((imxNeeded 0 off).getD 0) off) (word4 10 2 a.lo b.lo)
  | .ldHu g a b off => mkFields g 0 (selOf a b noOp) a.hi b.hi 0 0 (imxOf 0 ((imxNeeded 0 off).getD 0) off) (word4 10 3 a.lo b.lo)
  | .ldW g a b off => mkFields g 0 (selOf a b noOp) a.hi b.hi 0 0 (imxOf 0 ((imxNeeded 0 off).getD 0) off) (word4 10 4 a.lo b.lo)
  | .ldWu g a b off => mkFields g 0 (selOf a b noOp) a.hi b.hi 0 0 (imxOf 0 ((imxNeeded 0 off).getD 0) off) (word4 10 5 a.lo b.lo)
  | .ldD g a b off => mkFields g 0 (selOf a b noOp) a.hi b.hi 0 0 (imxOf 0 ((imxNeeded 0 off).getD 0) off) (word4 10 6 a.lo b.lo)
  | .lea g a b off => mkFields g 0 (selOf a b noOp) a.hi b.hi 0 0 (imxOf 0 ((imxNeeded 0 off).getD 0) off) (word4 10 7 a.lo b.lo)
  | .stB g a b off => mkFields g 0 (selOf a b noOp) a.hi b.hi 0 0 (imxOf 0 ((imxNeeded 0 off).getD 0) off) (word4 10 8 a.lo b.lo)
  | .stH g a b off => mkFields g 0 (selOf a b noOp) a.hi b.hi 0 0 (imxOf 0 ((imxNeeded 0 off).getD 0) off) (word4 10 9 a.lo b.lo)
  | .stW g a b off => mkFields g 0 (selOf a b noOp) a.hi b.hi 0 0 (imxOf 0 ((imxNeeded 0 off).getD 0) off) (word4 10 10 a.lo b.lo)
  | .stD g a b off => mkFields g 0 (selOf a b noOp) a.hi b.hi 0 0 (imxOf 0 ((imxNeeded 0 off).getD 0) off) (word4 10 11 a.lo b.lo)
  | .ldq g a b off => mkFields g 0 (selOf noOp b noOp) (a.val / 16) b.hi 0 0 (imxOf 0 ((imxNeeded 0 off).getD 0) off) (word4 10 12 (a.val % 16) b.lo)
  | .stq g a b off => mkFields g 0 (selOf noOp b noOp) (a.val / 16) b.hi 0 0 (imxOf 0 ((imxNeeded 0 off).getD 0) off) (word4 10 13 (a.val % 16) b.lo)
  | .mov g a b => mkFields g 0 (selOf a b noOp) a.hi b.hi 0 0 [] (word4 11 0 a.lo b.lo)
  | .andn g a b => mkFields g 0 (selOf noOp b noOp) (a.val / 16) b.hi 0 0 [] (word4 11 1 (a.val % 16) b.lo)
  | .shlReg g a b => mkFields g 0 (selOf noOp b noOp) (a.val / 16) b.hi 0 0 [] (word4 11 2 (a.val % 16) b.lo)
  | .shrReg g a b => mkFields g 0 (selOf noOp b noOp) (a.val / 16) b.hi 0 0 [] (word4 11 3 (a.val % 16) b.lo)
  | .sraReg g a b => mkFields g 0 (selOf noOp b noOp) (a.val / 16) b.hi 0 0 [] (word4 11 4 (a.val % 16) b.lo)
  | .shlImm g a k => mkFields g 0 0 (a.val / 16) 0 0 0 (imxOf 4 ((shiftImxNeeded k).getD 0) (k : Int)) (word4 11 5 (a.val % 16) (baseOf 4 (k : Int)))
  | .shrImm g a k => mkFields g 0 0 (a.val / 16) 0 0 0 (imxOf 4 ((shiftImxNeeded k).getD 0) (k : Int)) (word4 11 6 (a.val % 16) (baseOf 4 (k : Int)))
  | .sraImm g a k => mkFields g 0 0 (a.val / 16) 0 0 0 (imxOf 4 ((shiftImxNeeded k).getD 0) (k : Int)) (word4 11 7 (a.val % 16) (baseOf 4 (k : Int)))
  | .psetAnd g a b => mkFields g 0 0 (a.val / 16) (b.val / 16) 0 0 [] (word4 11 8 (a.val % 16) (b.val % 16))
  | .psetOr g a b => mkFields g 0 0 (a.val / 16) (b.val / 16) 0 0 [] (word4 11 9 (a.val % 16) (b.val % 16))
  | .psetXor g a b => mkFields g 0 0 (a.val / 16) (b.val / 16) 0 0 [] (word4 11 10 (a.val % 16) (b.val % 16))
  | .psetAndn g a b => mkFields g 0 0 (a.val / 16) (b.val / 16) 0 0 [] (word4 11 11 (a.val % 16) (b.val % 16))
  | .psetMov g a b => mkFields g 0 0 (a.val / 16) (b.val / 16) 0 0 [] (word4 11 12 (a.val % 16) (b.val % 16))
  | .psetNot g a b => mkFields g 0 0 (a.val / 16) (b.val / 16) 0 0 [] (word4 11 13 (a.val % 16) (b.val % 16))
  | .jr g a => mkFields g 0 (selOf a noOp noOp) a.hi 0 0 0 [] (word4 11 14 a.lo 0)
  | .nop g => mkFields g 0 0 0 0 0 0 [] (word4 11 15 0 0)
  | .bTrue g a imm => mkFields g 0 0 (a.val / 16) 0 0 0 (imxOf 8 ((imxNeeded 8 imm).getD 0) imm) (wordI 12 (a.val % 16) (baseOf 8 imm))
  | .bFalse g a imm => mkFields g 0 0 (a.val / 16) 0 0 0 (imxOf 8 ((imxNeeded 8 imm).getD 0) imm) (wordI 13 (a.val % 16) (baseOf 8 imm))
  | .jal g a imm => mkFields g 0 (selOf a noOp noOp) a.hi 0 0 0 (imxOf 8 ((imxNeeded 8 imm).getD 0) imm) (wordI 14 a.lo (baseOf 8 imm))
  | .mul g a b c => mkFields g 1 (0 + (selOf a b c)) a.hi b.hi c.hi 0 [] (word4 0 a.lo b.lo c.lo)
  | .mulh g a b c => mkFields g 1 (0 + (selOf a b c)) a.hi b.hi c.hi 0 [] (word4 1 a.lo b.lo c.lo)
  | .mulhu g a b c => mkFields g 1 (0 + (selOf a b c)) a.hi b.hi c.hi 0 [] (word4 2 a.lo b.lo c.lo)
  | .div g a b c => mkFields g 1 (0 + (selOf a b c)) a.hi b.hi c.hi 0 [] (word4 3 a.lo b.lo c.lo)
  | .divu g a b c => mkFields g 1 (0 + (selOf a b c)) a.hi b.hi c.hi 0 [] (word4 4 a.lo b.lo c.lo)
  | .rem g a b c => mkFields g 1 (0 + (selOf a b c)) a.hi b.hi c.hi 0 [] (word4 5 a.lo b.lo c.lo)
  | .remu g a b c => mkFields g 1 (0 + (selOf a b c)) a.hi b.hi c.hi 0 [] (word4 6 a.lo b.lo c.lo)
  | .min g a b c => mkFields g 1 (0 + (selOf a b c)) a.hi b.hi c.hi 0 [] (word4 7 a.lo b.lo c.lo)
  | .max g a b c => mkFields g 1 (0 + (selOf a b c)) a.hi b.hi c.hi 0 [] (word4 8 a.lo b.lo c.lo)
  | .minu g a b c => mkFields g 1 (0 + (selOf a b c)) a.hi b.hi c.hi 0 [] (word4 9 a.lo b.lo c.lo)
  | .maxu g a b c => mkFields g 1 (0 + (selOf a b c)) a.hi b.hi c.hi 0 [] (word4 10 a.lo b.lo c.lo)
  | .rol g a b c => mkFields g 1 (4 + (selOf a b c)) a.hi b.hi c.hi 0 [] (word4 0 a.lo b.lo c.lo)
  | .ror g a b c => mkFields g 1 (4 + (selOf a b c)) a.hi b.hi c.hi 0 [] (word4 1 a.lo b.lo c.lo)
  | .clmul g a b c => mkFields g 1 (4 + (selOf a b c)) a.hi b.hi c.hi 0 [] (word4 2 a.lo b.lo c.lo)
  | .clmulh g a b c => mkFields g 1 (4 + (selOf a b c)) a.hi b.hi c.hi 0 [] (word4 3 a.lo b.lo c.lo)
  | .bext g a b c => mkFields g 1 (4 + (selOf a b c)) a.hi b.hi c.hi 0 [] (word4 4 a.lo b.lo c.lo)
  | .bins g a b c => mkFields g 1 (4 + (selOf noOp b c)) (a.val / 16) b.hi c.hi 0 [] (word4 5 (a.val % 16) b.lo c.lo)
  | .clz g a b => mkFields g 1 (4 + (selOf a b noOp)) a.hi b.hi 0 0 [] (word4 6 0 a.lo b.lo)
  | .ctz g a b => mkFields g 1 (4 + (selOf a b noOp)) a.hi b.hi 0 0 [] (word4 6 1 a.lo b.lo)
  | .popc g a b => mkFields g 1 (4 + (selOf a b noOp)) a.hi b.hi 0 0 [] (word4 6 2 a.lo b.lo)
  | .brev g a b => mkFields g 1 (4 + (selOf a b noOp)) a.hi b.hi 0 0 [] (word4 6 3 a.lo b.lo)
  | .bswap g a b => mkFields g 1 (4 + (selOf a b noOp)) a.hi b.hi 0 0 [] (word4 6 4 a.lo b.lo)
  | .sextB g a b => mkFields g 1 (4 + (selOf a b noOp)) a.hi b.hi 0 0 [] (word4 6 5 a.lo b.lo)
  | .sextH g a b => mkFields g 1 (4 + (selOf a b noOp)) a.hi b.hi 0 0 [] (word4 6 6 a.lo b.lo)
  | .sextW g a b => mkFields g 1 (4 + (selOf a b noOp)) a.hi b.hi 0 0 [] (word4 6 7 a.lo b.lo)
  | .zextB g a b => mkFields g 1 (4 + (selOf a b noOp)) a.hi b.hi 0 0 [] (word4 6 8 a.lo b.lo)
  | .zextH g a b => mkFields g 1 (4 + (selOf a b noOp)) a.hi b.hi 0 0 [] (word4 6 9 a.lo b.lo)
  | .zextW g a b => mkFields g 1 (4 + (selOf a b noOp)) a.hi b.hi 0 0 [] (word4 6 10 a.lo b.lo)
  | .mfp g a => mkFields g 1 (4 + (selOf a noOp noOp)) a.hi 0 0 0 [] (word4 6 11 a.lo 0)
  | .mtp g a => mkFields g 1 (4 + (selOf a noOp noOp)) a.hi 0 0 0 [] (word4 6 12 a.lo 0)
  | .fadd g a b c => mkFields g 1 (8 + (selOf a b c)) a.hi b.hi c.hi 0 [] (word4 0 a.lo b.lo c.lo)
  | .fsub g a b c => mkFields g 1 (8 + (selOf a b c)) a.hi b.hi c.hi 0 [] (word4 1 a.lo b.lo c.lo)
  | .fmul g a b c => mkFields g 1 (8 + (selOf a b c)) a.hi b.hi c.hi 0 [] (word4 2 a.lo b.lo c.lo)
  | .fdiv g a b c => mkFields g 1 (8 + (selOf a b c)) a.hi b.hi c.hi 0 [] (word4 3 a.lo b.lo c.lo)
  | .fmin g a b c => mkFields g 1 (8 + (selOf a b c)) a.hi b.hi c.hi 0 [] (word4 4 a.lo b.lo c.lo)
  | .fmax g a b c => mkFields g 1 (8 + (selOf a b c)) a.hi b.hi c.hi 0 [] (word4 5 a.lo b.lo c.lo)
  | .ffma g a b c => mkFields g 1 (8 + (selOf noOp b c)) (a.val / 16) b.hi c.hi 0 [] (word4 6 (a.val % 16) b.lo c.lo)
  | .fcmp g a b c k => mkFields g 1 (8 + (selOf noOp b c)) (a.val / 16) b.hi c.hi k.code [] (word4 7 (a.val % 16) b.lo c.lo)
  | .fcvtF32S64 g a b => mkFields g 1 (8 + (selOf a b noOp)) a.hi b.hi 0 0 [] (word4 8 0 a.lo b.lo)
  | .fcvtS64F32 g a b => mkFields g 1 (8 + (selOf a b noOp)) a.hi b.hi 0 0 [] (word4 8 1 a.lo b.lo)
  | .fcvtF32U64 g a b => mkFields g 1 (8 + (selOf a b noOp)) a.hi b.hi 0 0 [] (word4 8 2 a.lo b.lo)
  | .fcvtU64F32 g a b => mkFields g 1 (8 + (selOf a b noOp)) a.hi b.hi 0 0 [] (word4 8 3 a.lo b.lo)
  | .fcvtF32Bf16 g a b => mkFields g 1 (8 + (selOf a b noOp)) a.hi b.hi 0 0 [] (word4 8 4 a.lo b.lo)
  | .fcvtBf16F32 g a b => mkFields g 1 (8 + (selOf a b noOp)) a.hi b.hi 0 0 [] (word4 8 5 a.lo b.lo)
  | .vAdd g a b c => mkFields g 2 0 0 0 0 0 [] (word4 0 a.val b.val c.val)
  | .vSub g a b c => mkFields g 2 0 0 0 0 0 [] (word4 1 a.val b.val c.val)
  | .vMul g a b c => mkFields g 2 0 0 0 0 0 [] (word4 2 a.val b.val c.val)
  | .vFma g a b c => mkFields g 2 0 0 0 0 0 [] (word4 3 a.val b.val c.val)
  | .vMin g a b c => mkFields g 2 0 0 0 0 0 [] (word4 4 a.val b.val c.val)
  | .vMax g a b c => mkFields g 2 0 0 0 0 0 [] (word4 5 a.val b.val c.val)
  | .vAnd g a b c => mkFields g 2 0 0 0 0 0 [] (word4 6 a.val b.val c.val)
  | .vOr g a b c => mkFields g 2 0 0 0 0 0 [] (word4 7 a.val b.val c.val)
  | .vXor g a b c => mkFields g 2 0 0 0 0 0 [] (word4 8 a.val b.val c.val)
  | .vShl g a b c => mkFields g 2 0 0 0 0 0 [] (word4 9 a.val b.val c.val)
  | .vShr g a b c => mkFields g 2 0 0 0 0 0 [] (word4 10 a.val b.val c.val)
  | .vCmp g a b c k => mkFields g 2 0 0 0 0 k.code [] (word4 11 a.val b.val c.val)
  | .vSel g a b c => mkFields g 2 0 0 0 0 0 [] (word4 12 a.val b.val c.val)
  | .vClmul g a b c => mkFields g 2 0 0 0 0 0 [] (word4 13 a.val b.val c.val)
  | .vAbs g a b => mkFields g 2 0 0 0 0 0 [] (word4 14 0 a.val b.val)
  | .vNeg g a b => mkFields g 2 0 0 0 0 0 [] (word4 14 1 a.val b.val)
  | .vPopc g a b => mkFields g 2 0 0 0 0 0 [] (word4 14 2 a.val b.val)
  | .vAddF g a b c => mkFields g 2 4 0 0 0 0 [] (word4 0 a.val b.val c.val)
  | .vSubF g a b c => mkFields g 2 4 0 0 0 0 [] (word4 1 a.val b.val c.val)
  | .vMulF g a b c => mkFields g 2 4 0 0 0 0 [] (word4 2 a.val b.val c.val)
  | .vFmaF g a b c => mkFields g 2 4 0 0 0 0 [] (word4 3 a.val b.val c.val)
  | .vMinF g a b c => mkFields g 2 4 0 0 0 0 [] (word4 4 a.val b.val c.val)
  | .vMaxF g a b c => mkFields g 2 4 0 0 0 0 [] (word4 5 a.val b.val c.val)
  | .vCmpF g a b c k => mkFields g 2 4 0 0 0 k.code [] (word4 6 a.val b.val c.val)
  | .vAbsF g a b => mkFields g 2 4 0 0 0 0 [] (word4 7 0 a.val b.val)
  | .vNegF g a b => mkFields g 2 4 0 0 0 0 [] (word4 7 1 a.val b.val)
  | .vExp2 g a b => mkFields g 2 4 0 0 0 0 [] (word4 7 2 a.val b.val)
  | .vLog2 g a b => mkFields g 2 4 0 0 0 0 [] (word4 7 3 a.val b.val)
  | .vRcp g a b => mkFields g 2 4 0 0 0 0 [] (word4 7 4 a.val b.val)
  | .vRsq g a b => mkFields g 2 4 0 0 0 0 [] (word4 7 5 a.val b.val)
  | .vTanh g a b => mkFields g 2 4 0 0 0 0 [] (word4 7 6 a.val b.val)
  | .vShape g lrows esz => mkFields g 2 8 0 0 0 0 [] (wordI 0 0 (lrows.val * 16 + esz.val))
  | .vLd g a b c => mkFields g 2 8 0 (b.val / 16) (c.val / 16) 0 [] (word4 1 a.val (b.val % 16) (c.val % 16))
  | .vSt g a b c => mkFields g 2 8 0 (b.val / 16) (c.val / 16) 0 [] (word4 2 a.val (b.val % 16) (c.val % 16))
  | .vBcast g a b => mkFields g 2 8 0 (b.val / 16) 0 0 [] (word4 3 0 a.val (b.val % 16))
  | .vTrn g a b => mkFields g 2 8 0 0 0 0 [] (word4 3 1 a.val b.val)
  | .vMovxToScalar g a b c => mkFields g 2 8 (a.val / 16) 0 (c.val / 16) 0 [] (word4 4 (a.val % 16) b.val (c.val % 16))
  | .vMovxToElement g a b c => mkFields g 2 8 0 (b.val / 16) (c.val / 16) 0 [] (word4 5 a.val (b.val % 16) (c.val % 16))
  | .vCvt g dst src a b => mkFields g 2 8 0 0 0 src.code [] (word4 6 dst.code a.val b.val)
  | .vRedr g op a b => mkFields g 2 8 0 0 0 0 [] (word4 7 op.code a.val b.val)
  | .vRedc g op a b => mkFields g 2 8 0 0 0 0 [] (word4 8 op.code a.val b.val)
  | .vScan g op a b => mkFields g 2 8 0 0 0 0 [] (word4 9 op.code a.val b.val)
  | .vPerm g a b c => mkFields g 2 8 0 0 0 0 [] (word4 10 a.val b.val c.val)
  | .vMaskb g a b c row => mkFields g 2 8 (a.val / 16) 0 (c.val / 16) row.val [] (word4 11 (a.val % 16) b.val (c.val % 16))
  | .lrw g sc a b => mkFields g 3 (0 + sc.code) (a.val / 16) (b.val / 16) 0 0 [] (word4 0 0 (a.val % 16) (b.val % 16))
  | .sch g sc a b => mkFields g 3 (0 + sc.code) (a.val / 16) (b.val / 16) 0 0 [] (word4 0 1 (a.val % 16) (b.val % 16))
  | .rls g sc b => mkFields g 3 (0 + sc.code) 0 (b.val / 16) 0 0 [] (word4 0 2 0 (b.val % 16))
  | .amoD g o sc op a b c => mkFields g 3 (4 * o.code + sc.code) (a.val / 16) (b.val / 16) (c.val / 16) op.code [] (word4 1 (a.val % 16) (b.val % 16) (c.val % 16))
  | .amoW g o sc op a b c => mkFields g 3 (4 * o.code + sc.code) (a.val / 16) (b.val / 16) (c.val / 16) op.code [] (word4 2 (a.val % 16) (b.val % 16) (c.val % 16))
  | .amoH g o sc op a b c => mkFields g 3 (4 * o.code + sc.code) (a.val / 16) (b.val / 16) (c.val / 16) op.code [] (word4 3 (a.val % 16) (b.val % 16) (c.val % 16))
  | .casD g o sc a b c => mkFields g 3 (4 * o.code + sc.code) (a.val / 16) (b.val / 16) (c.val / 16) 0 [] (word4 4 (a.val % 16) (b.val % 16) (c.val % 16))
  | .casQ g o sc a b c => mkFields g 3 (4 * o.code + sc.code) (a.val / 16) (b.val / 16) (c.val / 16) 0 [] (word4 5 (a.val % 16) (b.val % 16) (c.val % 16))
  | .red g o sc w op b c => mkFields g 3 (4 * o.code + sc.code) 0 (b.val / 16) (c.val / 16) op.code [] (word4 6 w.code (b.val % 16) (c.val % 16))
  | .fence g sc => mkFields g 3 (0 + sc.code) 0 0 0 0 [] (word4 7 0 0 0)
  | .fenceS g sc => mkFields g 3 (0 + sc.code) 0 0 0 0 [] (word4 7 0 0 1)
  | .fenceX g sc k1 k2 => mkFields g 3 (0 + sc.code) 0 0 0 0 [] (word4 7 1 k1.code k2.code)
  | .clkmax g a => mkFields g 3 0 (a.val / 16) 0 0 0 [] (word4 7 2 (a.val % 16) 0)
  | .rdtck g a => mkFields g 3 0 (a.val / 16) 0 0 0 [] (word4 7 3 (a.val % 16) 0)
  | .mwait g => mkFields g 3 0 0 0 0 0 [] (word4 7 4 0 0)
  | .poll g sc a b => mkFields g 3 (0 + sc.code) (a.val / 16) (b.val / 16) 0 0 [] (word4 8 0 (a.val % 16) (b.val % 16))
  | .mon g sc b => mkFields g 3 (0 + sc.code) 0 (b.val / 16) 0 0 [] (word4 8 1 0 (b.val % 16))
  | .bari g sc a b => mkFields g 3 (0 + sc.code) (a.val / 16) (b.val / 16) 0 0 [] (word4 9 0 (a.val % 16) (b.val % 16))
  | .bara g sc a b => mkFields g 3 (0 + sc.code) (a.val / 16) (b.val / 16) 0 0 [] (word4 9 1 (a.val % 16) (b.val % 16))
  | .barx g sc a b => mkFields g 3 (0 + sc.code) (a.val / 16) (b.val / 16) 0 0 [] (word4 9 2 (a.val % 16) (b.val % 16))
  | .barw g sc a b => mkFields g 3 (0 + sc.code) (a.val / 16) (b.val / 16) 0 0 [] (word4 9 3 (a.val % 16) (b.val % 16))
  | .sdef g a b => mkFields g 4 0 (a.val / 16) (b.val / 16) 0 0 [] (word4 0 0 (a.val % 16) (b.val % 16))
  | .sbind g a b => mkFields g 4 0 0 (b.val / 16) 0 0 [] (word4 0 1 a.val (b.val % 16))
  | .sgo g b => mkFields g 4 0 0 (b.val / 16) 0 0 [] (word4 0 2 0 (b.val % 16))
  | .srecall g b => mkFields g 4 0 0 (b.val / 16) 0 0 [] (word4 0 3 0 (b.val % 16))
  | .sstat g a b => mkFields g 4 0 (a.val / 16) (b.val / 16) 0 0 [] (word4 0 4 (a.val % 16) (b.val % 16))
  | .swait g b => mkFields g 4 0 0 (b.val / 16) 0 0 [] (word4 0 5 0 (b.val % 16))
  | .sfree g b => mkFields g 4 0 0 (b.val / 16) 0 0 [] (word4 0 6 0 (b.val % 16))
  | .tseal g b => mkFields g 5 0 0 (b.val / 16) 0 0 [] (word4 0 0 0 (b.val % 16))
  | .tpref g b => mkFields g 5 0 0 (b.val / 16) 0 0 [] (word4 0 1 0 (b.val % 16))
  | .tstat g a b => mkFields g 5 0 (a.val / 16) (b.val / 16) 0 0 [] (word4 0 2 (a.val % 16) (b.val % 16))
  | .tcopySp g a b c => mkFields g 5 0 (a.val / 16) (b.val / 16) (c.val / 16) 0 [] (word4 1 (a.val % 16) (b.val % 16) (c.val % 16))
  | .tcopySlot g a b c => mkFields g 5 0 (a.val / 16) (b.val / 16) (c.val / 16) 1 [] (word4 1 (a.val % 16) (b.val % 16) (c.val % 16))
  | .tcopyWs g a b c => mkFields g 5 0 (a.val / 16) (b.val / 16) (c.val / 16) 2 [] (word4 1 (a.val % 16) (b.val % 16) (c.val % 16))
  | .tcopyMem g a b c => mkFields g 5 0 (a.val / 16) (b.val / 16) (c.val / 16) 3 [] (word4 1 (a.val % 16) (b.val % 16) (c.val % 16))
  | .tcopym g a b c => mkFields g 5 0 (a.val / 16) (b.val / 16) (c.val / 16) 0 [] (word4 2 (a.val % 16) (b.val % 16) (c.val % 16))
  | .tred g op a b c => mkFields g 5 0 (a.val / 16) (b.val / 16) (c.val / 16) op.code [] (word4 3 (a.val % 16) (b.val % 16) (c.val % 16))
  | .mma g a b c => mkFields g 6 0 0 0 0 0 [] (word4 0 a.val b.val c.val)
  | .mclmSlot g a => mkFields g 6 0 0 0 0 0 [] (word4 1 0 a.val 0)
  | .mclmAcc g a => mkFields g 6 0 0 0 0 0 [] (word4 1 1 a.val 0)
  | .mrelSlot g a => mkFields g 6 0 0 0 0 0 [] (word4 1 2 a.val 0)
  | .mrelAcc g a => mkFields g 6 0 0 0 0 0 [] (word4 1 3 a.val 0)
  | .mzero g a => mkFields g 6 0 0 0 0 0 [] (word4 1 4 a.val 0)
  | .mstat g a => mkFields g 6 0 (a.val / 16) 0 0 0 [] (word4 1 5 (a.val % 16) 0)
  | .mfill g a b c => mkFields g 6 0 0 (b.val / 16) (c.val / 16) 0 [] (word4 2 a.val (b.val % 16) (c.val % 16))
  | .mfillV g a b => mkFields g 6 0 0 0 0 1 [] (word4 2 a.val b.val 0)
  | .mldw g a b => mkFields g 6 0 0 (b.val / 16) 0 0 [] (word4 3 0 a.val (b.val % 16))
  | .mscl g a b => mkFields g 6 0 0 (b.val / 16) 0 0 [] (word4 3 1 a.val (b.val % 16))
  | .mstc g a b c => mkFields g 6 0 0 (b.val / 16) (c.val / 16) 0 [] (word4 4 a.val (b.val % 16) (c.val % 16))
  | .mstcV g a b => mkFields g 6 0 0 0 0 1 [] (word4 4 a.val b.val 0)
  | .mig g b => mkFields g 7 0 0 (b.val / 16) 0 0 [] (word4 0 0 0 (b.val % 16))
  | .migBank g b => mkFields g 7 0 0 (b.val / 16) 0 1 [] (word4 0 0 0 (b.val % 16))
  | .mbwait g => mkFields g 7 0 0 0 0 0 [] (word4 0 1 0 0)
  | .mbrecv g a b => mkFields g 7 0 (a.val / 16) (b.val / 16) 0 0 [] (word4 0 2 (a.val % 16) (b.val % 16))
  | .mbsend g a b => mkFields g 7 0 (a.val / 16) (b.val / 16) 0 0 [] (word4 0 3 (a.val % 16) (b.val % 16))
  | .qstat g a b => mkFields g 7 0 (a.val / 16) 0 0 0 [] (word4 0 4 (a.val % 16) b.val)
  | .bkseq g b => mkFields g 7 0 0 (b.val / 16) 0 0 [] (word4 0 5 0 (b.val % 16))
  | .bkstat g a b => mkFields g 7 0 (a.val / 16) (b.val / 16) 0 0 [] (word4 0 6 (a.val % 16) (b.val % 16))
  | .drzero g a b => mkFields g 7 0 (a.val / 16) (b.val / 16) 0 0 [] (word4 0 7 (a.val % 16) (b.val % 16))
  | .amsg g a b c => mkFields g 7 0 (a.val / 16) (b.val / 16) (c.val / 16) 0 [] (word4 1 (a.val % 16) (b.val % 16) (c.val % 16))
  | .bkadd g a b c => mkFields g 7 0 (a.val / 16) (b.val / 16) (c.val / 16) 0 [] (word4 2 (a.val % 16) (b.val % 16) (c.val % 16))
  | .bkmul g a b c => mkFields g 7 0 (a.val / 16) (b.val / 16) (c.val / 16) 0 [] (word4 3 (a.val % 16) (b.val % 16) (c.val % 16))
  | .bkfma g a b c => mkFields g 7 0 (a.val / 16) (b.val / 16) (c.val / 16) 0 [] (word4 4 (a.val % 16) (b.val % 16) (c.val % 16))
  | .drcpy g a b => mkFields g 7 0 (a.val / 16) (b.val / 16) 0 0 [] (word4 5 (a.val % 16) (b.val % 16) 0)
  | .retire g => mkFields g 8 0 0 0 0 0 [] (word4 0 0 0 0)
  | .tret => mkFields .always 8 0 0 0 0 0 [] (word4 0 1 0 0)
  | .gret => mkFields .always 8 0 0 0 0 0 [] (word4 0 2 0 0)
  | .gsync g => mkFields g 8 0 0 0 0 0 [] (word4 0 3 0 0)
  | .repart g m => mkFields g 8 0 0 0 0 0 [] (word4 0 4 m.code 0)
  | .rdgtc g a => mkFields g 8 0 (a.val / 16) 0 0 0 [] (word4 0 5 (a.val % 16) 0)
  | .rdcal g a n => mkFields g 8 0 (a.val / 16) 0 0 0 [] (word4 0 6 (a.val % 16) n.val)
  | .slotset g b => mkFields g 8 0 0 (b.val / 16) 0 0 [] (word4 0 7 0 (b.val % 16))
  | .step g b => mkFields g 8 0 0 (b.val / 16) 0 0 [] (word4 0 8 0 (b.val % 16))
  | .mfc g a cr => mkFields g 8 0 (a.val / 16) 0 0 0 [] (wordI 1 (a.val % 16) cr.code)
  | .mtc g cr a => mkFields g 8 0 (a.val / 16) 0 0 0 [] (wordI 2 (a.val % 16) cr.code)
  | .trap g imm => mkFields g 8 0 0 0 0 0 (imxOf 8 ((imxNeeded 8 imm).getD 0) imm) (wordI 3 0 (baseOf 8 imm))
  | .yield d => mkFields .always 8 0 0 0 0 0 [] (wordI 4 0 d.val)
  | .gate n => mkFields .always 8 0 0 0 0 0 [] (wordI 5 0 n.val)
  | .launch g a b c => mkFields g 8 0 (a.val / 16) (b.val / 16) (c.val / 16) 0 [] (word4 6 (a.val % 16) (b.val % 16) (c.val % 16))
  | .launchW g a b c => mkFields g 8 0 (a.val / 16) (b.val / 16) (c.val / 16) 1 [] (word4 6 (a.val % 16) (b.val % 16) (c.val % 16))
  | .launchi g a b c => mkFields g 8 0 (a.val / 16) (b.val / 16) (c.val / 16) 0 [] (word4 7 (a.val % 16) (b.val % 16) (c.val % 16))
  | .launchiW g a b c => mkFields g 8 0 (a.val / 16) (b.val / 16) (c.val / 16) 1 [] (word4 7 (a.val % 16) (b.val % 16) (c.val % 16))
  | .clnr g a b => mkFields g 8 0 (a.val / 16) (b.val / 16) 0 0 [] (word4 8 0 (a.val % 16) (b.val % 16))
  | .invr g a b => mkFields g 8 0 (a.val / 16) (b.val / 16) 0 0 [] (word4 8 1 (a.val % 16) (b.val % 16))
  | .flsr g a b => mkFields g 8 0 (a.val / 16) (b.val / 16) 0 0 [] (word4 8 2 (a.val % 16) (b.val % 16))
  | .pref g a b => mkFields g 8 0 (a.val / 16) (b.val / 16) 0 0 [] (word4 8 3 (a.val % 16) (b.val % 16))
  | .tlbi g a b => mkFields g 8 0 (a.val / 16) (b.val / 16) 0 0 [] (word4 8 4 (a.val % 16) (b.val % 16))
  | .tlbsd g a b => mkFields g 8 0 (a.val / 16) (b.val / 16) 0 0 [] (word4 8 5 (a.val % 16) (b.val % 16))
  | .asyncCauseDelivery => mkFields .always 0 0 0 0 0 0 [] 0xBF00
  | .yieldOverrun => mkFields .always 0 0 0 0 0 0 [] 0xBF00
  | .handlerOverrun => mkFields .always 0 0 0 0 0 0 [] 0xBF00
  | .bankReturnTrap => mkFields .always 0 0 0 0 0 0 [] 0xBF00
  | .loadCompletion _ => mkFields .always 0 0 0 0 0 0 [] 0xBF00
  | .storeHomePerform _ _ => mkFields .always 0 0 0 0 0 0 [] 0xBF00
  | .storeAcknowledgement _ _ => mkFields .always 0 0 0 0 0 0 [] 0xBF00
  | .redHomeStep _ _ => mkFields .always 0 0 0 0 0 0 [] 0xBF00
  | .prefetchFill => mkFields .always 0 0 0 0 0 0 [] 0xBF00
  | .shootdownHolderDrop _ => mkFields .always 0 0 0 0 0 0 [] 0xBF00
  | .remoteScratchpadAccess _ _ => mkFields .always 0 0 0 0 0 0 [] 0xBF00
  | .handlerStart _ => mkFields .always 0 0 0 0 0 0 [] 0xBF00
  | .amsgReply _ => mkFields .always 0 0 0 0 0 0 [] 0xBF00
  | .migrationRunqGrant _ => mkFields .always 0 0 0 0 0 0 [] 0xBF00
  | .migrationPacketArrival _ => mkFields .always 0 0 0 0 0 0 [] 0xBF00
  | .seatEntry _ _ => mkFields .always 0 0 0 0 0 0 [] 0xBF00
  | .maltsterDispatch _ => mkFields .always 0 0 0 0 0 0 [] 0xBF00
  | .launchWordWatch _ => mkFields .always 0 0 0 0 0 0 [] 0xBF00
  | .regionDependenceReread _ => mkFields .always 0 0 0 0 0 0 [] 0xBF00
  | .priorityAging _ => mkFields .always 0 0 0 0 0 0 [] 0xBF00
  | .launchiCountRead _ => mkFields .always 0 0 0 0 0 0 [] 0xBF00
  | .launchParkRelease _ => mkFields .always 0 0 0 0 0 0 [] 0xBF00
  | .gsyncComplete _ => mkFields .always 0 0 0 0 0 0 [] 0xBF00
  | .slotRotationHandover _ _ => mkFields .always 0 0 0 0 0 0 [] 0xBF00
  | .heldMessageDelivery _ _ => mkFields .always 0 0 0 0 0 0 [] 0xBF00
  | .mbwaitWake _ _ => mkFields .always 0 0 0 0 0 0 [] 0xBF00
  | .reservationGrant _ => mkFields .always 0 0 0 0 0 0 [] 0xBF00
  | .barwWake _ => mkFields .always 0 0 0 0 0 0 [] 0xBF00
  | .mwaitWake _ => mkFields .always 0 0 0 0 0 0 [] 0xBF00
  | .swaitWake _ => mkFields .always 0 0 0 0 0 0 [] 0xBF00
  | .minorSlotStart => mkFields .always 0 0 0 0 0 0 [] 0xBF00
  | .majorSlotStart => mkFields .always 0 0 0 0 0 0 [] 0xBF00
  | .drainDeadline => mkFields .always 0 0 0 0 0 0 [] 0xBF00
  | .intervalEnd => mkFields .always 0 0 0 0 0 0 [] 0xBF00
  | .streamElement _ _ _ => mkFields .always 0 0 0 0 0 0 [] 0xBF00
  | .streamRecallArrive _ _ => mkFields .always 0 0 0 0 0 0 [] 0xBF00
  | .streamWindowFill _ _ => mkFields .always 0 0 0 0 0 0 [] 0xBF00
  | .streamPushWrite _ _ => mkFields .always 0 0 0 0 0 0 [] 0xBF00
  | .copyBurst _ _ => mkFields .always 0 0 0 0 0 0 [] 0xBF00
  | .copyCompletion _ _ => mkFields .always 0 0 0 0 0 0 [] 0xBF00
  | .mmaCompletion _ => mkFields .always 0 0 0 0 0 0 [] 0xBF00
  | .matrixCommandCompletion _ => mkFields .always 0 0 0 0 0 0 [] 0xBF00
  | .bankRowOperation _ => mkFields .always 0 0 0 0 0 0 [] 0xBF00
  | .bankCommandEnd _ => mkFields .always 0 0 0 0 0 0 [] 0xBF00
  | .scratchpadBankHandover _ _ => mkFields .always 0 0 0 0 0 0 [] 0xBF00
  | .partitionReset _ => mkFields .always 0 0 0 0 0 0 [] 0xBF00
  | .fatalError _ => mkFields .always 0 0 0 0 0 0 [] 0xBF00
  | .partitionRegisterWrite _ _ => mkFields .always 0 0 0 0 0 0 [] 0xBF00
  | .slotownWrite _ _ _ => mkFields .always 0 0 0 0 0 0 [] 0xBF00
  | .spbankWrite _ _ _ => mkFields .always 0 0 0 0 0 0 [] 0xBF00
  | .wsgWrite _ _ _ => mkFields .always 0 0 0 0 0 0 [] 0xBF00
  | .frelm _ _ _ => mkFields .always 0 0 0 0 0 0 [] 0xBF00
  | .frelc _ _ _ => mkFields .always 0 0 0 0 0 0 [] 0xBF00
  | .mboxWrite _ _ _ => mkFields .always 0 0 0 0 0 0 [] 0xBF00
  | .strqWrite _ _ _ => mkFields .always 0 0 0 0 0 0 [] 0xBF00
  | .setRangeWrite _ _ _ => mkFields .always 0 0 0 0 0 0 [] 0xBF00
  | .schedWrite _ _ => mkFields .always 0 0 0 0 0 0 [] 0xBF00
  | .partitionResetRequest _ => mkFields .always 0 0 0 0 0 0 [] 0xBF00
  | .partitionCreate _ => mkFields .always 0 0 0 0 0 0 [] 0xBF00
  | .hportWrite _ _ => mkFields .always 0 0 0 0 0 0 [] 0xBF00
  | .healthWclr => mkFields .always 0 0 0 0 0 0 [] 0xBF00
  | .biasFlipRequest _ => mkFields .always 0 0 0 0 0 0 [] 0xBF00
  | .hostBiasFlipCommand _ _ _ => mkFields .always 0 0 0 0 0 0 [] 0xBF00
  | .hostWrite _ _ _ _ _ _ => mkFields .always 0 0 0 0 0 0 [] 0xBF00
  | .hostRead _ _ _ _ _ => mkFields .always 0 0 0 0 0 0 [] 0xBF00
  | .ldBind _ _ => mkFields .always 0 0 0 0 0 0 [] 0xBF00
  | .interruptRequest _ => mkFields .always 0 0 0 0 0 0 [] 0xBF00
  | .interruptCoalesceExpiry _ => mkFields .always 0 0 0 0 0 0 [] 0xBF00
  | .thaythFrameReceive _ _ => mkFields .always 0 0 0 0 0 0 [] 0xBF00
  | .thaythPortDown _ => mkFields .always 0 0 0 0 0 0 [] 0xBF00
  | .remoteMessageReceive _ => mkFields .always 0 0 0 0 0 0 [] 0xBF00
  | .packageReset _ => mkFields .always 0 0 0 0 0 0 [] 0xBF00
  | .attestationRequest _ => mkFields .always 0 0 0 0 0 0 [] 0xBF00
  | .clockThrottle _ => mkFields .always 0 0 0 0 0 0 [] 0xBF00
  | .illegalEncoding _ => mkFields .always 0 0 0 0 0 0 [] 0xBF00
  | .instructionFetchFault _ _ => mkFields .always 0 0 0 0 0 0 [] 0xBF00
  | .writebackReachesArrays _ => mkFields .always 0 0 0 0 0 0 [] 0xBF00
  | .hostPortLaneFailure _ _ => mkFields .always 0 0 0 0 0 0 [] 0xBF00
  | .virtualFunctionBind _ _ => mkFields .always 0 0 0 0 0 0 [] 0xBF00

/-- The prefix words and the base word of a chain, in the order GRD, PAG, REX, IMX (R67). -/
def Fields.words (x : Fields) : List Half :=
  (match x.guard with
   | .always => []
   | .when neg idx => [BitVec.ofNat 16 (0xFC00 + neg.toNat * 512 + idx.val * 16)]) ++
  (if x.page = 0 ∧ x.q = 0 then [] else [BitVec.ofNat 16 (0xF800 + x.page * 16 + x.q)]) ++
  (if x.rex then [BitVec.ofNat 16 (0xF400 + x.ah * 256 + x.bh * 64 + x.ch * 16 + x.rq)] else []) ++
  x.imx.map (fun p => BitVec.ofNat 16 (0xF000 + p)) ++ [BitVec.ofNat 16 x.base]

/-- The words of an instruction (R39 to R58), prefixes as R67 orders them. -/
def encode (i : Instr) : List Half := (fieldsOf i).words

end Sys2Proof
end

