-- ==== Sys2Proof/Machine/Turn.lean ====
section
/-! DEFINITION. What the package does next: the fetch of an instruction (R39, R60, R61), the calendar's events, and the order in which
strands and events take their turns. -/

namespace Sys2Proof.Machine

/-! ### Fetch -/

/-- What the fetch of one word gives: the word and the state after the fetch, a fault, or nothing while a maintenance interval lasts. -/
inductive WordRead where
  | ok (s : State) (w : Half)
  | fault (c : Cause) (tval : Word)
  | stall

/-- One word fetched for the strand in turn on the CORE path (R61, R63, R262, R266, R267, R276, R441, R453): from a leased copy of its core, else from its home with
the line's lease renewed, the strand's own stores seen. The clock rises to the time of what was read and does not creep. DEDUCED: log entry 23. -/
def fetchWord (s : State) (a : Word) : WordRead :=
  if !isTranslated a then .fault .xlate a
  else if stalls s a then .stall
  else match checkVa s (holderOf s.me) s.me.did a.toNat .fetch false with
    | .error (c, v) => .fault c v
    | .ok pa =>
      let s := tlbKeep s (holderOf s.me) s.me.did a.toNat
      let give (s : State) (w : Nat) (data : List Byte) : WordRead :=
        .ok (raiseClock s w) (BitVec.ofNat 16 (overlayOwn s.me pa 2 (leVal ((data.drop (pa % 64)).take 2))))
      match (l1Find s s.me.core s.me.did (pa / 64)).filter (fun cp => !onBank s && decide (s.me.tck ≤ cp.rts)) with
      | some cp => give s cp.wts cp.data
      | none =>
        if !homeReady s (pa / 64) then .stall
        else if poisonedAt s pa 2 then .fault .poison a
        else
          let (t, data, w) := fetchCopy s pa
          give t w data

/-- What a fetch gives: an instruction with the words of its chain and the state after the fetch, an illegal chain, a fault, or nothing yet. -/
inductive Fetched where
  | ok (s : State) (i : Instr) (chain : List Half)
  | illegal (tval : Word)
  | fault (c : Cause) (tval : Word)
  | stall

/-- Words fetched and decoded one at a time until the chain is complete or illegal (R60): five words at most. -/
def fetchFrom (s : State) (pc : Word) : Nat → ChainSt → Fetched
  | 0, c => .illegal (tvalWords c.words)
  | n + 1, c =>
    match fetchWord s (pc + w64 (2 * c.words.length)) with
    | .fault e v => .fault e v
    | .stall => .stall
    | .ok t w => match c.feed w with
      | .more c' => fetchFrom t pc n c'
      | .bad c' => .illegal (tvalWords c'.words)
      | .done i c' => .ok t i c'.words.reverse

/-- The instruction at the pc of the strand in turn; one in the middle of which it stands has been fetched already (R27, R28). DEDUCED: log entry 23. -/
def fetch (s : State) : Fetched :=
  match s.me.pre with
  | none => fetchFrom s s.me.pc 5 .empty
  | some p => match decode p.chain with
    | .ok i _ => .ok s i p.chain
    | .illegal _ => fetchFrom s s.me.pc 5 .empty
    | .short => fetchFrom s s.me.pc 5 .empty

/-- The state in which an instruction fetched runs: one tick later, NextPC and the words known. DESIGN CHOICE: log entry 10. -/
def issued (s : State) (ws : List Half) : State :=
  { s with gtc := s.gtc + 1, nextPc := s.me.pc + w64 (2 * ws.length), words := tvalWords ws.reverse, chain := ws }

/-! ### The turn -/

/-- What a step is: an instruction or event run in a state, or an outcome already reached. -/
inductive Pick where
  | run (i : Instr) (s : State)
  | ans (o : Host.Outcome State Fault Refusal)

/-- The strand may be given the turn and run: seated, in no waiting state but that of an instruction to be tried again. -/
def runnable (t : Strand) : Bool := seated t && (t.wait == .none || t.wait == .retry || t.wait == .again)

/-- The turn passes to a strand. -/
def giveTurn (s : State) (key : Nat) : State :=
  if s.live && s.me.key == key then s
  else match s.others.find? (fun t => t.key == key && seated t) with
    | none => s
    | some t =>
      let rest := s.others.filter (fun x => x.key != key)
      { s with me := t, live := true, others := if s.live then rest ++ [s.me] else rest }

/-- The turn passes on to the next strand that can run, the one in turn coming last; an instruction that waited is tried again by the strand that takes the turn,
which goes on standing in it until then. -/
def rotateTurn (s : State) : State :=
  let s := match s.others.find? runnable with
    | some t => giveTurn s t.key
    | none => s
  if s.live && s.me.wait == .retry then updMe s (fun t => { t with wait := .again }) else s

/-- The strand's task has failed, and the instruction in the middle of which it stood then has completed (R435). -/
def mustEnd (t : Strand) : Bool := t.ending.any (fun e => e != (t.pc, t.ydl, t.th))

/-- One step of the strand in turn at an instruction boundary, one tick later (R24, R28, R60, R61, R179, R194, R262, R435): its end with its task, a held cause, a
return from a bank core before an interval, a fetch that waits, faults or finds no instruction, an overrun, or the instruction fetched, which on a bank core may return the
strand before it overruns (R397). DEDUCED: log entry 71. -/
def strandStep (s : State) : Pick :=
  let later : State := { s with gtc := s.gtc + 1 }
  if mustEnd s.me then .ans (.next (removeStrand (chargeStrand later s.me) s.me.key))
  else if !s.me.async.isEmpty && !s.me.th && atBoundary s then .ans (execAsyncCauseDelivery later)
  else if onBank s && calState s.gtc != 0 then .ans (.next (bankLeave later))
  else match fetch s with
    | .stall => .ans (.next (updMe later (fun t => { t with wait := .retry })))
    | .fault c v => .ans (execInstructionFetchFault c v later)
    | .illegal w => .ans (execIllegalEncoding w later)
    | .ok t i ws =>
      if s.me.ydl = 0 && !onBank s then
        (if s.me.seat == .handler then .ans (execHandlerOverrun later) else .ans (execYieldOverrun later))
      else .run i (issued t ws)

/-! ### What the rest of the package does while no strand runs -/

/-- The state with its energy counters left out. -/
def apartFromEnergy (s : State) : State :=
  { s with
    fresh := 0
    doms := s.doms.map (fun e => (e.1, { e.2 with energy := PkgDom.reset.energy })) }

/-- The first of some steps that changes the state: a look that finds nothing new is none, though its read costs energy (R468). -/
def firstChange (s : State) : List (State → State) → Option State
  | [] => none
  | f :: fs => let t := f s; if apartFromEnergy t = apartFromEnergy s then firstChange s fs else some t

/-- Steps of a strand's posted writes, loads and waits. -/
def strandTries (t : Strand) : List (State → State) :=
  t.posted.flatMap (fun p => [fun s => if isRemote p then remoteAccess s t.key p.id else performPosted s t.key p.id, fun s => ackPosted s t.key p.id])
    ++ (if t.load.isSome || t.vload.isSome then [fun s => remoteAccess s t.key 0, fun s => asStrand s t.key (fun s => if s.me.load.isSome then loadArrive s else vloadArrive s)] else [])
    ++ (match t.wait with
      | .none => []
      | .retry => []
      | .again => []
      | .load => []
      | .gsync => [fun s => gsyncComplete s t.gid]
      | .lrw => [fun s => asStrand s t.key (fun s => receiveGrant s t.wkey)]
      | .barw => [fun s => asStrand s t.key wakeBarw]
      | .mwait => [fun s => asStrand s t.key wakeMwait]
      | .mbwait => [fun s => wakeMbox s t.core t.did]
      | .launch => [fun s => parkRelease s t.key]
      | .swait => [fun s => asStrand s t.key wakeSwait]
      | .reply => [fun s => asStrand s t.key takeReply]
      | .grant => [fun s => match t.dest with
        | some (c, _) => grantEntry s c
        | none => s]
      | .mma => [])
    ++ (match t.seat with
      | .bank _ _ => [fun s => if calState s.gtc = 0 then s else asStrand s t.key bankLeave]
      | .none => []
      | .slot _ => []
      | .handler => [])

/-- Steps of a core: handlers, held messages, engines, contexts, banks to hand over, slots in rotation, seating. -/
def coreTries (c : Nat) (cs : CoreSt) : List (State → State) :=
  [fun s => handlerStart s c, fun s => matStep s c false, fun s => matStep s c true]
    ++ cs.held.map (fun h => fun s => if h.2.isEmpty then s else deliverHeld s c h.1)
    ++ cs.copies.flatMap (fun k => [fun s => copyBurst s c k.id, fun s => copyComplete s c k.id])
    ++ cs.ctxs.flatMap (fun x => [fun s => recallArrive s c x.1, fun s => streamStep s c x.1 (x.2.lock != 0), fun s => windowFill s c x.1, fun s => pushWrite s c x.1])
    ++ cs.handover.map (fun h => fun s => bankHandover s c h.1)
    ++ (List.range 32).map (fun n => fun s => handSlot s c n)
    ++ (if cs.asking.isEmpty then [] else [fun s => grantEntry s c])
    ++ (if cs.runq.isEmpty then [] else (List.range 21).map (fun d => fun s => seatEntry s c d))

/-- Steps of a bank core. -/
def bankTries (ch : Nat) (b : BankSt) : List (State → State) :=
  (if b.asking.isEmpty then [] else [fun s => grantEntry s (4096 + ch)])
    ++ (if b.runq.isEmpty then [] else (List.range 21).map (fun d => fun s => if calState s.gtc = 0 then seatEntry s (4096 + ch) d else s))

/-- Steps of a bank command. -/
def commandTries (c : BankCmd) : List (State → State) :=
  c.chunks.map (fun k => fun s => bankRow s (channelOf k.dst)) ++ [fun s => bankEnd s c.id]

/-- What the rest of the package can do next, in one order of many: the agenda gives any other. -/
def background (s : State) : List (State → State) :=
  (strands s).flatMap strandTries
    ++ s.packets.map (fun p => fun s => packetArrive s p.1.key)
    ++ s.shoots.flatMap (fun x => x.holders.map (fun h => fun s => holderDrop s h))
    ++ s.cores.flatMap (fun e => coreTries e.1 e.2)
    ++ s.banks.flatMap (fun e => bankTries e.1 e.2)
    ++ s.bank.flatMap commandTries
    ++ (if s.prefq.isEmpty then [] else [prefetchFill])
    ++ s.wq.map (fun w => fun s => wbArrive s w.id)
    ++ s.regions.flatMap (fun r => [fun s => ageRegion s r.pa, fun s => rereadDeps s r.pa, fun s => countRead s r.pa])
    ++ s.resv.flatMap (fun e => [fun s => grantDue s e.1, fun s => peerGrant s e.1])
    ++ s.inbox.map (fun m => fun s => inboxTry s m)
    ++ (if s.host.queue.isEmpty then [] else [hostNext])
    ++ (List.range 21).map (fun d => fun s => if msiDue s d then msiDeliver s d else s)
    ++ (List.range 4).map (fun die => fun s => dispatch s die)

/-- No strand runs: a step of the rest of the package, else the turn goes on and a tick passes. DESIGN CHOICE: log entry 1. -/
def idleStep (s : State) : State :=
  match firstChange s (background s) with
  | some t => t
  | none => rotateTurn { s with gtc := s.gtc + 1 }

/-! ### The agenda -/

/-- The instruction is an event of the table. -/
def isEvent : Instr → Bool
  | .asyncCauseDelivery => true
  | .yieldOverrun => true
  | .handlerOverrun => true
  | .bankReturnTrap => true
  | .loadCompletion _ => true
  | .storeHomePerform _ _ => true
  | .storeAcknowledgement _ _ => true
  | .redHomeStep _ _ => true
  | .prefetchFill => true
  | .shootdownHolderDrop _ => true
  | .remoteScratchpadAccess _ _ => true
  | .handlerStart _ => true
  | .amsgReply _ => true
  | .migrationRunqGrant _ => true
  | .migrationPacketArrival _ => true
  | .seatEntry _ _ => true
  | .maltsterDispatch _ => true
  | .launchWordWatch _ => true
  | .regionDependenceReread _ => true
  | .priorityAging _ => true
  | .launchiCountRead _ => true
  | .launchParkRelease _ => true
  | .gsyncComplete _ => true
  | .slotRotationHandover _ _ => true
  | .heldMessageDelivery _ _ => true
  | .mbwaitWake _ _ => true
  | .reservationGrant _ => true
  | .barwWake _ => true
  | .mwaitWake _ => true
  | .swaitWake _ => true
  | .minorSlotStart => true
  | .majorSlotStart => true
  | .drainDeadline => true
  | .intervalEnd => true
  | .streamElement _ _ _ => true
  | .streamRecallArrive _ _ => true
  | .streamWindowFill _ _ => true
  | .streamPushWrite _ _ => true
  | .copyBurst _ _ => true
  | .copyCompletion _ _ => true
  | .mmaCompletion _ => true
  | .matrixCommandCompletion _ => true
  | .bankRowOperation _ => true
  | .bankCommandEnd _ => true
  | .scratchpadBankHandover _ _ => true
  | .partitionReset _ => true
  | .fatalError _ => true
  | .partitionRegisterWrite _ _ => true
  | .slotownWrite _ _ _ => true
  | .spbankWrite _ _ _ => true
  | .wsgWrite _ _ _ => true
  | .frelm _ _ _ => true
  | .frelc _ _ _ => true
  | .mboxWrite _ _ _ => true
  | .strqWrite _ _ _ => true
  | .setRangeWrite _ _ _ => true
  | .schedWrite _ _ => true
  | .partitionResetRequest _ => true
  | .partitionCreate _ => true
  | .hportWrite _ _ => true
  | .healthWclr => true
  | .biasFlipRequest _ => true
  | .hostBiasFlipCommand _ _ _ => true
  | .hostWrite _ _ _ _ _ _ => true
  | .hostRead _ _ _ _ _ => true
  | .ldBind _ _ => true
  | .interruptRequest _ => true
  | .interruptCoalesceExpiry _ => true
  | .thaythFrameReceive _ _ => true
  | .thaythPortDown _ => true
  | .remoteMessageReceive _ => true
  | .packageReset _ => true
  | .attestationRequest _ => true
  | .clockThrottle _ => true
  | .illegalEncoding _ => true
  | .instructionFetchFault _ _ => true
  | .writebackReachesArrays _ => true
  | .hostPortLaneFailure _ _ => true
  | .virtualFunctionBind _ _ => true
  | _ => false

/-- Uncorrectable data in storage, in an accumulator (R387), or in a register, which ends its strand, on its way in a migration packet too (R440). -/
def foundError (s : State) (k adid : Nat) : State :=
  if k < 2 ^ 51 then poisonMark s k adid
  else if k < 2 ^ 52 then accFound s k adid
  else
    let key := regErrOf k
    match (strandOf s key).filter (fun t => !t.dead) with
    | none => s
    | some x =>
      let (d, t, o, src, u) := rasPlace s k
      let s := rasPost (updDom s d (fun b => { b with uecnt := b.uecnt + 1 })) d t o src 1 adid u
      if (travellers s).any (fun t => t.key == key) then taskLeave (removeStrand s key) x (some (causeCode .poison))
      else asStrand s key (fun s => if s.me.seat == .handler then endHandler s 0 (causeCode .poison) 0 else endMe s (some .poison))

/-- An error in an L1 copy (R440): the copy is dropped, to be fetched again, and the error counts as a corrected one of its line. -/
def l1Error (s : State) (c ln : Nat) : State :=
  match (coreOf s c).l1.find? (fun l => l.line == ln) with
  | none => s
  | some l => l1Drop (correctedMark s (64 * ln) l.did) c ln

/-- The other end of a message has acknowledged it (R457): it is kept no longer; none arrives in a major slot (R262). -/
def linkAck (s : State) (pkg seq : Nat) : State :=
  if inMajor s.gtc then s
  else { s with
    outbox := s.outbox.filter (fun m => !(m.dst == pkg && m.msg.seq == seq))
    replies := s.replies.filter (fun r => !(r.pkg == pkg && r.own == seq)) }

/-- One entry of the agenda, when it is no event. DESIGN CHOICE: log entry 57. -/
def doAct (s : State) : Act → State
  | .event _ => s
  | .turn k => giveTurn s k
  | .pass n => { s with gtc := s.gtc + n }
  | .drop h d va => { s with tlb := s.tlb.filter (fun t => !(t.holder == h && t.did == d && t.va == va)) }
  | .dropL1 c ln => l1Error s c ln
  | .poison k d => foundError s k d
  | .corrected k d => correctedMark s k d
  | .overrun u => { s with health := { s.health with overrun := kset s.health.overrun u (kget s.health.overrun u 0 / 2 * 2 + 1) } }
  | .far pa n v =>
    if isFar pa then
      wroteTimes { s with mem := memPut s.mem pa (leBytes n v) } (pa / 64) ((timesOf s (pa / 64)).rts + 1)
    else s
  | .linkAck pkg seq => linkAck s pkg seq
  | .mask fn vec on => msiMask s (fn, vec) on

/-- The calendar's event that is due, as an outcome. -/
def calStep (s : State) : CalEvent → Host.Outcome State Fault Refusal
  | .minor => execMinorSlotStart s
  | .major => execMajorSlotStart s
  | .drain => execDrainDeadline s
  | .done => execIntervalEnd s

/-- The last tick of every 32: the turn of a strand that runs ends, and the rest of the package works. -/
def turnEnds (s : State) : Bool := s.gtc % 32 == 31

/-- What happens next: the head of the agenda; in recovery nothing (R466); an event of the calendar that is due; a partition reset asked for; the strand in turn;
or, while it cannot run and at the last tick of every 32, the rest of the package. DESIGN CHOICE: log entry 1. DESIGN CHOICE: log entry 10. DESIGN CHOICE: log entry 86. -/
def pick (s : State) : Pick :=
  match s.agenda with
  | a :: rest =>
    let t := { s with agenda := rest }
    match a with
    | .event i => if isEvent i then .run i t else .ans (.next t)
    | a => if s.boot.recovery then .ans (.fault .recovery) else .ans (.next (doAct t a))
  | [] =>
    if s.boot.recovery then .ans (.fault .recovery)
    else match calDue s with
    | some e => .ans (calStep s e)
    | none => match s.resets with
      | r :: _ => .ans (execPartitionReset r.did s)
      | [] => if s.live && (s.me.wait == .none || s.me.wait == .again) && !turnEnds s then strandStep s else .ans (.next (idleStep s))

/-! ### A program placed where the next step fetches -/

/-- Bytes of a list of words in fetch order, each low byte first. -/
def wordBytes : List Half → List Byte
  | [] => []
  | h :: hs => BitVec.ofNat 8 h.toNat :: BitVec.ofNat 8 (h.toNat / 256) :: wordBytes hs

/-- The text page of a placed program. -/
def textVa : Nat := 0x1000

/-- A strand of its DID seated with the pc at a text page that holds the words, followed by words of zeros: a translation of the page with all permissions is held, the
DID's memory range 0 covers it, its line is in its home slice, and nothing else is due before the strand's next instruction. DESIGN CHOICE: log entry 8. -/
def placeWords (s : State) (ws : List Half) : State :=
  let t : Strand := { s.me with
    key := if s.live then s.me.key else 1
    pc := w64 textVa
    seat := if s.live && s.me.seat != .none then s.me.seat else .slot 0
    wait := .none
    async := []
    ydl := max s.me.ydl 64
    posted := s.me.posted.filter (fun p => p.key / 64 != textVa / 64)
    stale := []
    ending := none
    pre := none
    dead := false }
  let h := holderOf t
  let g := if turnEnds s then s.gtc + 1 else s.gtc
  let s := { s with
    me := t
    live := true
    gtc := g
    others := s.others.filter (fun x => x.key != t.key)
    agenda := []
    resets := []
    calMark := g
    boot := { s.boot with recovery := false }
    poison := s.poison.filter (fun g => g != textVa / 64)
    doms := (s.doms.map (fun e => (e.1, { e.2 with ranges := e.2.ranges.map (fun r => if inRange textVa r then (0, 0) else r) })))
    tlb := ⟨h, t.did, (domOf s t.did).gen, textVa, 4096, textVa, 0x1D⟩ :: s.tlb.filter (fun x => !(x.holder == h && x.did == t.did && decide (x.va ≤ textVa ∧ textVa < x.va + x.size))) }
  let s := updDom s t.did (fun b => { b with ranges := (0, 1) :: b.ranges.drop 1 })
  let s := l1Drop s t.core (textVa / 64)
  let s := if inL2 s (textVa / 64) then s else { s with l2 := s.l2 ++ [⟨textVa / 64, t.did, 0, true, none, homeLine s (textVa / 64)⟩] }
  homePut s textVa (wordBytes ws ++ List.replicate 10 0)

end Sys2Proof.Machine
end

