-- ==== Sys2Proof/Machine/Step.lean ====
section
/-! DEFINITION. One step of the package, and a program placed where the next step fetches. -/

namespace Sys2Proof.Machine

/-- One step: what `pick` chooses, run. -/
def step (s : State) : Host.Outcome State Fault Refusal :=
  match pick s with
  | .run i t => exec i t
  | .ans o => o

/-- The state with an instruction of `nbits` bits placed where the next step fetches. DESIGN CHOICE: log entry 8. -/
def State.withFetchWord (s : State) (nbits w : Nat) : State := placeWords s (tableWords nbits w)

end Sys2Proof.Machine
end

