-- ==== Sys2Proof/Safety.lean ====
section
/-! DEFINITION. The terms in which claims are stated: an invariant of the machine, when an instruction issues, when an operand can be read or
written, and what a step leaves unchanged. -/

namespace Sys2Proof.Machine

/-- The memory is in its canonical form. -/
def memOk (s : State) : Prop := memWf s.mem = true

/-- P[31] of a strand reads 1 (R15). -/
def predOk (t : Strand) : Bool := t.p.getLsbD 31

/-! ### When an instruction issues -/

/-- Nothing keeps an instruction of issue `x` from its own effect, and `u` is the state in which its effect begins: the package runs (R466), every
register it names exists in the mode of the core (R14) and waits for no token (R354) or result (R153), its guard passes (R42), it is no
instruction barred from handlers (R193) or bank cores (R397), the obligations of FENCE.X for the paths it begins work on are met (R275), and on a bank core, where
the return trap comes before it, no overrun stands (R24, R397). -/
structure Issues (x : Issue) (s u : State) : Prop where
  runs    : s.boot.recovery = false
  named   : (x.rd ++ x.wr).all (fun r => decide (r < modeS (modeOfStrand s s.me))) = true
  vnamed  : x.vregs.all (fun r => decide (r < modeV (modeOfStrand s s.me))) = true
  tokens  : (x.rd ++ x.wr).all (fun r => !s.me.pend.contains r || x.noTok.contains r) = true
  results : x.vregs.all (fun r => !s.me.vpend.contains r) = true
  guard   : guardOk s x.g = true
  handler : s.me.seat = .handler → x.handler = true
  bank    : onBank s = true → x.bank = .run
  begins  : (meetFences s x.begins).map (fun t => mergeTokens t x.rd) = some u
  ydl     : onBank s = true → s.me.ydl ≠ 0

/-! ### Operands -/

/-- What a queue register holds for the strand in turn: its DID owns the queue (R195), none waits before it (R196), and the head is `x` with its clock `t`. -/
def QueueHead (s : State) (q : QReg) (x : Word) (t : Nat) (rest : List (Word × Nat)) : Prop :=
  bit (domCore s s.me.core s.me.did).qmask q.val = true ∧ queueTurn s q.val = true
    ∧ (coreOf s s.me.core).queues.getD q.val [] = (x, t) :: rest

/-- An operand is read (R46, R78): a register; the head of a queue, popped, its clock joining the reader's (R196); or the element at the head of a
stream's window, popped, its read time joining the clock (R312 to R316), folded into PART under an attached operation (R309). -/
inductive Reads (s : State) : SOp → Word → State → Prop where
  | reg (r : SReg) : Reads s (.s r) (s.me.s.getD r.val 0) s
  | queue (q : QReg) (x : Word) (t : Nat) (rest : List (Word × Nat)) (h : QueueHead s q x t rest) :
      Reads s (.q q) x (raiseClock (updCore s s.me.core (fun cs => { cs with
        queues := cs.queues.setIfInBounds q.val rest
        qwait := kset cs.qwait q.val ((kget cs.qwait q.val []).filter (· != s.me.key)) })) t)
  | stream (z : ZReg) (i : Nat) (e tl pa : Nat) (rest : List (Nat × Nat × Nat))
      (bound : s.me.z.getD z.val none = some i)
      (dir : (ctxOf s s.me.core i).srec.write = false)
      (inside : (ctxOf s s.me.core i).eidx < streamLen (ctxOf s s.me.core i).srec)
      (head : (ctxOf s s.me.core i).window = (e, tl, pa) :: rest)
      (fresh : kget s.me.floors 3 0 ≤ tl) :
      Reads s (.z z)
        (w64 (if (ctxOf s s.me.core i).srec.op = 0 then elemExt (ctxOf s s.me.core i).srec e
          else foldElem (ctxOf s s.me.core i).srec (ctxOf s s.me.core i).rnd (ctxOf s s.me.core i).part e))
        (raiseClock (updCtx s s.me.core i (fun t => { t with
          window := rest
          eidx := t.eidx + 1
          part := foldElem t.srec t.rnd t.part e })) tl)

/-- A destination can be written (R78): a register; a queue of the DID with room and no strand waiting before it (R196); or a bound write stream with
an element left whose walk can be served (R262) and that its checks pass, and room for another push (R315, R316). -/
inductive Accepts (s : State) : SOp → Prop where
  | reg (r : SReg) : Accepts s (.s r)
  | queue (q : QReg) (own : bit (domCore s s.me.core s.me.did).qmask q.val = true) (turn : queueTurn s (8 + q.val) = true)
      (room : ((coreOf s s.me.core).queues.getD q.val []).length < 8) : Accepts s (.q q)
  | stream (z : ZReg) (i pa : Nat)
      (bound : s.me.z.getD z.val none = some i)
      (dir : (ctxOf s s.me.core i).srec.write = true)
      (inside : (ctxOf s s.me.core i).eidx < streamLen (ctxOf s s.me.core i).srec)
      (served : walkReady s (ctxHolder s.me.core (ctxOf s s.me.core i)) (ctxOf s s.me.core i).did
        (elemAddr (ctxOf s s.me.core i).srec (ctxOf s s.me.core i).eidx).toNat = true)
      (checks : elemCheck s s.me.core (ctxOf s s.me.core i) (ctxOf s s.me.core i).eidx .write = .ok pa)
      (room : (ctxOf s s.me.core i).pushes.length < 64) : Accepts s (.z z)

/-- An instruction that reads two operands and writes one: `u` is the state before the write, `x` and `y` the operands. -/
def Op3Ready (g : Guard) (a b c : SOp) (s u : State) (x y : Word) : Prop :=
  ∃ v w, Issues (opIssue g [b, c] [a] [] []) s v ∧ Reads v b x w ∧ Reads w c y u ∧ Accepts u a

/-- An instruction that reads one operand and writes one. -/
def Op2Ready (g : Guard) (a b : SOp) (s u : State) (x : Word) : Prop :=
  ∃ v, Issues (opIssue g [b] [a] [] []) s v ∧ Reads v b x u ∧ Accepts u a

/-- An instruction that writes one operand. -/
def Op1Ready (g : Guard) (a : SOp) (s u : State) : Prop :=
  Issues (opIssue g [] [a] [] []) s u ∧ Accepts u a

/-- An instruction that reads one operand, and a register that it reads or writes. -/
def Rmw2Ready (g : Guard) (a : SReg) (b : SOp) (s u : State) (x : Word) : Prop :=
  ∃ v, Issues (opIssue g [b] [] [a.val] [a.val]) s v ∧ Reads v b x u

/-- An instruction that reads two operands, and a register that it reads and writes. -/
def Rmw3Ready (g : Guard) (a : SReg) (b c : SOp) (s u : State) (x y : Word) : Prop :=
  ∃ v w, Issues (opIssue g [b, c] [] [a.val] [a.val]) s v ∧ Reads v b x w ∧ Reads w c y u

/-- An instruction that reads two operands and writes no register. -/
def Cmp2Ready (g : Guard) (b c : SOp) (s u : State) (x y : Word) : Prop :=
  ∃ v w, Issues (opIssue g [b, c] [] [] []) s v ∧ Reads v b x w ∧ Reads w c y u

/-- An instruction that reads one operand and writes no register. -/
def Cmp1Ready (g : Guard) (b : SOp) (s u : State) (x : Word) : Prop :=
  ∃ v, Issues (opIssue g [b] [] [] []) s v ∧ Reads v b x u

/-- A load that writes an operand: `v` is the state in which it begins, `x` the base, `u` the state after the base is read, in which its access begins. -/
def LoadReady (g : Guard) (a b : SOp) (s v u : State) (x : Word) : Prop :=
  Issues (memIssue (onBank s) g [b] [a] [] []) s v ∧ Reads v b x u ∧ Accepts u a

/-- A store of an operand: `y` is the data, `x` the base. -/
def StoreReady (g : Guard) (a b : SOp) (s u : State) (y x : Word) : Prop :=
  ∃ v w, Issues (memIssue (onBank s) g [a, b] [] [] []) s v ∧ Reads v a y w ∧ Reads w b x u

/-- An access of `n` bytes at `a` lies aligned in the local scratchpad of a core, at offset `o` (R25), in banks the DID holds (R26) that are not
waiting to be zeroed (R421). -/
def InScratchpad (s : State) (a : Word) (n o : Nat) : Prop :=
  onBank s = false ∧ 0xFFFFFFFFFFFC0000 ≤ a.toNat ∧ o = a.toNat % 2 ^ 18 ∧ a.toNat % n = 0
    ∧ checkSpad s s.me.core s.me.did o n = none ∧ spadBusy s s.me.core o n s.me.did = false

/-- An access of `n` bytes at `a` lies aligned in translated memory (R25), its walk does not stall (R262), and its translation, permission and range checks (R93)
give `pa`, which no bank core's own channel holds. -/
def InMemory (s : State) (a : Word) (n : Nat) (need : Need) (pa : Nat) : Prop :=
  stalls s a = false ∧ a.toNat < 2 ^ 56 ∧ a.toNat % n = 0 ∧ checkVa s (holderOf s.me) s.me.did a.toNat need true = .ok pa ∧ bankOwn s pa = false

/-- A release at a scope (R202, R273): every write it waits for is acknowledged, and the clock stands at the store horizon; without release nothing changes. -/
def Released (u w : State) (rel : Bool) (sc : Scope) : Prop :=
  (rel = true → acked u sc = true) ∧ w = if rel then raiseClock u u.me.h else u

/-- A page-3 step of `n` bytes at `va` is performed now, at `pa` of the package: its checks pass (R201), its release is done, the strand's earlier writes to the
line are in place (R206), the home can serve it and holds good data. -/
structure StepAt (u w : State) (va : Word) (n : Nat) (need : Need) (rel : Bool) (sc : Scope) (pa : Nat) : Prop where
  place    : InMemory u va n need pa
  near     : pa < 2 ^ 40
  inside   : pa % 64 + n ≤ 64
  released : Released u w rel sc
  ready    : stepReady w pa = true
  good     : poisonedAt w pa n = false
  line     : (homeLine w (pa / 64)).length = 64
  memory   : memOk w

/-- The step wrote `v` at its home at ta = max(Clock + 1, rts + 1): value, line times, one write more of the line, clock and store horizon (R202); what the strand still
holds of earlier writes to the bytes is superseded (R267). Where the form has no acquire order the clock takes the line's old wts. DEDUCED: log entry 73. -/
def Wrote (w t : State) (pa n v : Nat) (acq : Bool) : Prop :=
  let ta := max (w.me.tck + 1) ((timesOf w (pa / 64)).rts + 1)
  homeVal t pa n = v % 256 ^ n ∧ timesOf t (pa / 64) = ⟨ta, ta, (timesOf w (pa / 64)).n + 1⟩
    ∧ t.me = supersede { w.me with tck := max w.me.tck (if acq then ta else (timesOf w (pa / 64)).wts), h := max w.me.h ta } (fun _ => true) pa n

/-- The step only read its home, at ta = max(Clock, wts): line times and clock (R202). -/
def Renewed (w t : State) (pa n : Nat) : Prop :=
  let ta := max w.me.tck (timesOf w (pa / 64)).wts
  homeVal t pa n = homeVal w pa n ∧ timesOf t (pa / 64) = ⟨(timesOf w (pa / 64)).wts, max (timesOf w (pa / 64)).rts ta, (timesOf w (pa / 64)).n⟩
    ∧ t.me = { w.me with tck := ta }

/-! ### How an instruction ends -/

/-- What a strand that goes on waiting in its instruction keeps of its issue, for a trap of it (R27). -/
def snapshot (s : State) : Pre := s.me.pre.getD ⟨s.me.tck, s.me.fencex, s.me.floors, s.chain⟩

/-- The strand goes on at NextPC of the instruction in flight in `s`, in state `u`, with one instruction less to its YIELD (R24, R38). -/
def goesOn (s u : State) : State := retireTo u s.nextPc

/-- A result is written to an operand and the strand goes on. -/
def writes (s u : State) (a : SOp) (v : Word) : State := goesOn s (putOp u a v)

/-- The strand in turn stands at an instruction boundary, with its turn to run and nothing else due (R28, R262). -/
structure AtTurn (s : State) : Prop where
  agenda : s.agenda = []
  runs   : s.boot.recovery = false
  calm   : calDue s = none
  resets : s.resets = []
  live   : s.live = true
  going  : s.me.wait = .none ∨ s.me.wait = .again
  turn   : turnEnds s = false
  async  : s.me.async = [] ∨ s.me.th = true
  bank   : onBank s = true → calState s.gtc = 0

/-! ### What an instruction leaves unchanged -/

/-- Everything of a strand but its scalar, predicate and vector registers, its pc, YDL and waiting state, with what it keeps while it waits, is unchanged: control registers, exception
registers, clocks, streams, monitor, reservation, tokens, writes on their way. -/
def SameStrand (m t : Strand) : Prop :=
  t = { m with s := t.s, p := t.p, v := t.v, pc := t.pc, ydl := t.ydl, wait := t.wait, tc := t.tc, pre := t.pre }

/-- Every byte of storage, every line's value at its home, every accumulator and every package register reads as before: nothing but the strand in turn
and the bookkeeping of its core's queues and contexts may change. -/
structure SameStore (s t : State) : Prop where
  bytes : ∀ k, anyVal t k 1 = anyVal s k 1
  mem   : t.mem = s.mem
  accs  : ∀ c, (coreOf t c).acc = (coreOf s c).acc
  rest  : t = { s with me := t.me, cores := t.cores }

/-! ### Shapes of instruction, as claims about every operand form and every state -/

/-- `mk g a b c` writes `f u x y` to a, x and y being the operands b and c and u the state after they are read. -/
def Gives3 (mk : Guard → SOp → SOp → SOp → Instr) (f : State → Word → Word → Word) : Prop :=
  ∀ g a b c s u x y, Op3Ready g a b c s u x y → exec (mk g a b c) s = .next (writes s u a (f u x y))

/-- `mk g a b` writes `f u x` to a. -/
def Gives2 (mk : Guard → SOp → SOp → Instr) (f : State → Word → Word) : Prop :=
  ∀ g a b s u x, Op2Ready g a b s u x → exec (mk g a b) s = .next (writes s u a (f u x))

/-- `mk g a b` writes to register a a value that `P` relates to the operand. -/
def Gives2P (mk : Guard → SOp → SOp → Instr) (P : Word → Word → Prop) : Prop :=
  ∀ g a b s u x, Op2Ready g a b s u x → ∃ v, exec (mk g a b) s = .next (writes s u a v) ∧ P x v

/-- `mk g a b` writes `f z x` to register a, z being what a held. -/
def GivesRmw (mk : Guard → SReg → SOp → Instr) (f : State → Word → Word → Word) : Prop :=
  ∀ g a b s u x, Rmw2Ready g a b s u x → exec (mk g a b) s = .next (goesOn s (setSreg u a.val (f u (sreg u a.val) x)))

/-- `mk g a b c` writes `f z x y` to register a, z being what a held. -/
def GivesRmw3 (mk : Guard → SReg → SOp → SOp → Instr) (f : State → Word → Word → Word → Word) : Prop :=
  ∀ g a b c s u x y, Rmw3Ready g a b c s u x y → exec (mk g a b c) s = .next (goesOn s (setSreg u a.val (f u (sreg u a.val) x y)))

/-- `mk g a b` writes `f P[a] P[b]` to predicate bit a. -/
def GivesPred (mk : Guard → PBit → PBit → Instr) (f : Bool → Bool → Bool) : Prop :=
  ∀ g a b s u, Issues (scalar g [] []) s u → exec (mk g a b) s = .next (goesOn s (setPbit u a.val (f (pbit u a.val) (pbit u b.val))))
/-- Element k of a vector register of elements of `es` bytes (R130). -/
def elemBits (es : Nat) (v : VWord) (k : Nat) : BitVec (8 * es) := v.extractLsb' (8 * es * k) (8 * es)

/-- `mk g a b c` writes to each element of v[a] the value `f` of the elements of v[b], v[c] and v[a]; `f` takes the width. -/
def VecGives3 (mk : Guard → VReg → VReg → VReg → Instr) (f : (n : Nat) → BitVec n → BitVec n → BitVec n → BitVec n) : Prop :=
  ∀ g a b c s u, Issues (vecIssue g [] [] [a.val, b.val, c.val]) s u →
    ∃ r, exec (mk g a b c) s = .next (goesOn s (setVreg u a.val r))
      ∧ ∀ k < 1024 / esOf u, elemBits (esOf u) r k = f (8 * esOf u) (elemBits (esOf u) (u.me.v.getD b.val 0) k)
          (elemBits (esOf u) (u.me.v.getD c.val 0) k) (elemBits (esOf u) (u.me.v.getD a.val 0) k)

/-- `mk g a b` writes to each element of v[a] the value `f` of the element of v[b]. -/
def VecGives2 (mk : Guard → VReg → VReg → Instr) (f : (n : Nat) → BitVec n → BitVec n) : Prop :=
  ∀ g a b s u, Issues (vecIssue g [] [] [a.val, b.val]) s u →
    ∃ r, exec (mk g a b) s = .next (goesOn s (setVreg u a.val r))
      ∧ ∀ k < 1024 / esOf u, elemBits (esOf u) r k = f (8 * esOf u) (elemBits (esOf u) (u.me.v.getD b.val 0) k)

/-- The element format of the floating class under VSH.ESZ (R132). -/
def FloatShape (u : State) (f : Fmt) : Prop := (u.me.vsh.toNat % 4 = 1 ∧ f = .bf16) ∨ (u.me.vsh.toNat % 4 = 2 ∧ f = .f32)

/-- As VecGives3, over the codes of a floating format. -/
def VecFloat3 (mk : Guard → VReg → VReg → VReg → Instr) (f : State → Fmt → Nat → Nat → Nat → Nat) : Prop :=
  ∀ g a b c s u m, Issues (vecIssue g [] [] [a.val, b.val, c.val]) s u → FloatShape u m →
    ∃ r, exec (mk g a b c) s = .next (goesOn s (setVreg u a.val r))
      ∧ ∀ k < 1024 / esOf u, (elemBits (esOf u) r k).toNat = f u m (elemBits (esOf u) (u.me.v.getD b.val 0) k).toNat
          (elemBits (esOf u) (u.me.v.getD c.val 0) k).toNat (elemBits (esOf u) (u.me.v.getD a.val 0) k).toNat % 2 ^ (8 * esOf u)

/-- As VecGives2, over the codes of a floating format. -/
def VecFloat2 (mk : Guard → VReg → VReg → Instr) (f : State → Fmt → Nat → Nat) : Prop :=
  ∀ g a b s u m, Issues (vecIssue g [] [] [a.val, b.val]) s u → FloatShape u m →
    ∃ r, exec (mk g a b) s = .next (goesOn s (setVreg u a.val r))
      ∧ ∀ k < 1024 / esOf u, (elemBits (esOf u) r k).toNat = f u m (elemBits (esOf u) (u.me.v.getD b.val 0) k).toNat % 2 ^ (8 * esOf u)

/-- A special function completes; a NaN gives the canonical NaN, and each listed code its listed result, whatever RND holds (R152). -/
def SpecialIs (mk : Guard → VReg → VReg → Instr) (table : Fmt → List (Nat × Nat)) : Prop :=
  ∀ g a b s u m, Issues (vecIssue g [] [] [a.val, b.val]) s u → FloatShape u m →
    ∃ r, exec (mk g a b) s = .next (goesOn s (setVreg u a.val r))
      ∧ ∀ k < 1024 / esOf u,
          (isNan (decodeNum m (elemBits (esOf u) (u.me.v.getD b.val 0) k).toNat) = true → (elemBits (esOf u) r k).toNat = nanCode m)
          ∧ (∀ e ∈ table m, (elemBits (esOf u) (u.me.v.getD b.val 0) k).toNat = e.1 → (elemBits (esOf u) r k).toNat = e.2)

/-- A special function is one fixed function of an FP32 code and of RND.SAT, of which `P` holds: applied to FP32 elements, and to BF16 elements widened, its result then
rounded to BF16 under RND (R151). -/
def SpecialFun (mk : Guard → VReg → VReg → Instr) (P : (Bool → Nat → Nat) → Prop) : Prop :=
  ∃ F : Bool → Nat → Nat, P F
    ∧ ∀ g a b s u m, Issues (vecIssue g [] [] [a.val, b.val]) s u → FloatShape u m →
      ∃ r, exec (mk g a b) s = .next (goesOn s (setVreg u a.val r))
        ∧ ∀ k < 1024 / esOf u,
          (let x := (elemBits (esOf u) (u.me.v.getD b.val 0) k).toNat
           let sat := u.me.rnd.getLsbD 3
           (elemBits (esOf u) r k).toNat =
            (if m = .f32 then F sat x else roundTo .bf16 (u.me.rnd.toNat % 8) sat (decodeNum .f32 (F sat (x * 2 ^ 16)))) % 2 ^ (8 * esOf u))

/-- The address of element k of VLD and VST (R135): base + row × stride + column × element size. -/
def elemVa (u : State) (base stride : Word) (k : Nat) : Word :=
  base + BitVec.ofNat 64 (k / colsOf u) * stride + BitVec.ofNat 64 (k % colsOf u * esOf u)

/-- A claim about each AMO: its size in bytes (R203). -/
def EachAmo (P : (Guard → Order → Scope → AmoOp → SReg → SReg → SReg → Instr) → Nat → Prop) : Prop := P .amoD 8 ∧ P .amoW 4 ∧ P .amoH 2

/-- A claim about each scalar load: its size and whether it extends the sign (R94). -/
def EachLoad (P : (Guard → SOp → SOp → Int → Instr) → Nat → Bool → Prop) : Prop :=
  P .ldB 1 true ∧ P .ldBu 1 false ∧ P .ldH 2 true ∧ P .ldHu 2 false ∧ P .ldW 4 true ∧ P .ldWu 4 false ∧ P .ldD 8 false

/-- A claim about each scalar store: its size (R94). -/
def EachStore (P : (Guard → SOp → SOp → Int → Instr) → Nat → Prop) : Prop := P .stB 1 ∧ P .stH 2 ∧ P .stW 4 ∧ P .stD 8

/-- The carry-less product of R92 over the bits of y below n. -/
def clmulUpTo (x y : Word) : Nat → BitVec 128
  | 0 => 0
  | n + 1 => clmulUpTo x y n ^^^ (if y.getLsbD n then x.zeroExtend 128 <<< n else 0)

/-- A clean line in the L2 holds what its home would hold without it (R234, R238): the latest write-back still queued, else the arrays. -/
def L2Agrees (s : State) : Prop :=
  ∀ l ∈ s.l2, l.dirty = false → l.data = (match s.wq.reverse.find? (fun w => w.line == l.line) with
    | some w => w.data
    | none => memBytes s.mem (64 * l.line) 64)

/-! ### Engines -/

/-- `h` is the handle of context x of the strand's core, defined or in use under its DID (R310, R325). -/
structure Names (s : State) (h : Word) (x : Nat) : Prop where
  index  : x < 64
  core   : s.me.core < 4096
  serial : (ctxOf s s.me.core x).ser < 2 ^ 16
  handle : h.toNat = 2 ^ 63 + (ctxOf s s.me.core x).ser * 2 ^ 18 + s.me.core * 2 ^ 6 + x
  used   : (ctxOf s s.me.core x).state ≠ 0
  owned  : (ctxOf s s.me.core x).did = s.me.did

/-- The strand in turn stands between two instructions: it waits for nothing, or before an instruction that has not begun (R28). -/
def Between (s : State) : Prop := s.live = true ∧ (s.me.wait = .none ∨ ((s.me.wait = .retry ∨ s.me.wait = .again) ∧ s.me.pre = none))

/-- The strand in turn, in a waiting state `w`, when an event may meet it. -/
structure Waits (s : State) (w : Wait) : Prop where
  runs   : s.boot.recovery = false
  live   : s.live = true
  seat   : s.me.seat ≠ .none
  alive  : s.me.dead = false
  state  : s.me.wait = w

/-- A copy command's or TPREF's record and descriptor are read and pass every check (R343 to R353, R360): the descriptor `d` at `dp`, in the local scratchpad, the record
`r` at `rp`, read with time `w`, and the state `v` after its lines are read. -/
structure CopyReady (u : State) (kind : Option CopyKind) (dp rp : Word) (v : State) (r d w : Nat) : Prop where
  window  : 0xFFFFFFFFFFFC0000 ≤ dp.toNat
  aligned : dp.toNat % 64 = 0
  held    : checkSpad u u.me.core u.me.did (dp.toNat % 2 ^ 18) 64 = none
  free    : spadBusy u u.me.core (dp.toNat % 2 ^ 18) 64 u.me.did = false
  good    : poisonedAt u (spadKey u.me.core (dp.toNat % 2 ^ 18)) 64 = false
  box     : d = memVal u.mem (spadKey u.me.core (dp.toNat % 2 ^ 18)) 64
  place   : rp.toNat % 128 = 0
  read    : readShape u rp = .ok (v, r, w)
  ready   : shapeReady u rp = true
  isSealed : sealed r = true
  formed  : boxFormed kind r d = true
  locals  : ∀ k, kind = some k → ∀ x ∈ localTrap u k r d, x = none
  steady  : stalls u rp = false ∧ stalls u (rp + 64) = false
  bar     : kind.isSome = true → bxBar d % 32 = 0 ∧ (bxBar d ≠ 0 → stalls u (BitVec.ofNat 64 (bxBar d)) = false) ∧ ∃ b, barPlace u d = .ok b
  span    : ∀ lo hi, boxSpan r d = some (lo, hi) → 0 ≤ lo ∧ hi + fmtSize (shFmt r) ≤ 2 ^ 56
  inside  : kind.isSome = true → boxInside r d = true ∨ (bit r 106 = true ∧ shFill r ≠ 0)

/-- A claim about each copy form. -/
def EachCopy (P : (Guard → SReg → SReg → SReg → Instr) → CopyKind → Prop) : Prop :=
  P .tcopySp .sp ∧ P .tcopySlot .slot ∧ P .tcopyWs .ws ∧ P .tcopyMem .mem ∧ P .tcopym .multi ∧ ∀ op, P (fun g a b c => .tred g op a b c) (.tred op)

/-- Copy command `k` of core c is the one an event names, its strand has the turn, and the engine works on it (R262, R352). -/
structure Copying (s : State) (c id : Nat) (k : CopyCmd) : Prop where
  runs   : s.boot.recovery = false
  found  : (coreOf s c).copies.find? (fun x => x.id == id) = some k
  going  : k.parked = false
  calm   : calState s.gtc = 0
  good   : k.fail = none
  more   : k.next < boxLen k.box
  handed : ∀ e ∈ s.cores, e.2.handover = []
  turn   : copyDue s c = some k.key

/-- The queues have room for a command of the strand other than an MMA (R372): fewer than 16 of the core, and 8 of the strand on any core, wait. -/
def MatRoom (s : State) : Prop :=
  ((coreOf s s.me.core).matq.filter (fun k => !isMma k.op)).length < 16
    ∧ ((s.cores.flatMap (fun e => e.2.matq.filter (fun k => k.key == s.me.key))).filter (fun k => !isMma k.op)).length < 8

/-- A matrix command `op` has joined the order of the strand's core with what it captures at issue (R371, R374); storage and accumulators are as they were. -/
structure Queued (u t : State) (op : MatOp) : Prop where
  joins : ∃ k, (coreOf t u.me.core).matq = (coreOf u u.me.core).matq ++ [k] ∧ k.op = op ∧ k.key = u.me.key ∧ k.did = u.me.did ∧ k.rnd = u.me.rnd
    ∧ k.fa = u.me.fmta.toNat % 16 ∧ k.fb = u.me.fmtb.toNat % 16 ∧ k.fc = u.me.fmtc.toNat % 16
    ∧ k.offa = u.me.scla.toNat % 512 ∧ k.offb = u.me.sclb.toNat % 512
  mem   : t.mem = u.mem
  acc   : (coreOf t u.me.core).acc = (coreOf u u.me.core).acc

/-- A form that sends a matrix command: with room it is queued and the strand goes on, without it waits (R371, R372). -/
def Sends (i : Instr) (s u : State) (op : MatOp) : Prop :=
  (MatRoom u → ∃ t, exec i s = .next (goesOn s t) ∧ t.me = u.me ∧ Queued u t op)
    ∧ (¬ MatRoom u → exec i s = .next { s with me := { s.me with wait := .retry } })

/-- Command `k` stands at the head of the order of core c, and nothing keeps it (R371, R388). -/
structure AtHead (s : State) (c : Nat) (k : MatCmd) (rest : List MatCmd) : Prop where
  runs    : s.boot.recovery = false
  head    : (coreOf s c).matq = k :: rest
  free    : matBlocked s c k = false
  memory  : memOk s
  core    : c < 4096

/-- A strand may migrate (R186): its core is in M16, no stream register is bound, TH is 0, and it runs neither in a handler nor inside a gate. -/
def MayMigrate (s : State) : Prop :=
  modeOfStrand s s.me = .m16 ∧ (∀ z : Fin 8, s.me.z.getD z.val none = none) ∧ s.me.th = false ∧ s.me.seat ≠ .handler ∧ s.me.gates = []

/-- The strand in turn has left as the packet `m` for `dest`, past its instruction (R187, R188, R265): what it carries, and what starts anew at its destination. -/
structure Departs (u t : State) (m : Strand) (dest : Nat) : Prop where
  gone    : t.live = false
  sent    : t.packets = u.packets ++ [(m, dest)]
  place   : m.pc = u.nextPc ∧ m.key = u.me.key ∧ m.seat = .none ∧ m.dest = none
  carried : m.s = u.me.s ∧ m.p = u.me.p ∧ m.rnd = u.me.rnd ∧ m.migp = u.me.migp ∧ m.sid = u.me.sid ∧ m.gid = u.me.gid
  clocks  : m.tck = max u.me.tck u.me.h ∧ m.h = m.tck ∧ m.sf = m.tck
  anew    : m.tcause = 0 ∧ m.tval = 0 ∧ m.tpc = 0 ∧ m.mon = none ∧ m.v = Vector.replicate 16 0
  counted : m.ydl = u.me.ydl - 1

/-- Nothing of the strand is on its way: no token, no vector result, no write (R187). -/
def Quiet (s : State) : Prop := s.me.pend = [] ∧ s.me.vpend = [] ∧ s.me.posted = []

/-- A descriptor, a pair and a record of a bank command are read and pass every check (R403): `v` is the state after the descriptor `d` at `dp` is read, `cs` the chunks as they
translate, `cpa` and `rec?` the places of the pair and of the record. -/
structure BankReady (u : State) (op : BankOp) (dp : Word) (v : State) (d cpa : Nat) (rec? : Option Nat)
    (cs : List (List (Word × Except (Word × Cause × Word) Nat))) : Prop where
  place   : ∃ dpa, dp.toNat % 64 = 0 ∧ dp.toNat < 2 ^ 56 ∧ checkVa u (holderOf u.me) u.me.did dp.toNat .read false = .ok dpa
    ∧ stalls u dp = false ∧ coreReady u dpa = true ∧ corePoisoned u dpa 64 = false ∧ coreRead (tlbKeep u (holderOf u.me) u.me.did dp.toNat) dpa 64 = (v, d)
  formed  : bankFormed op d = true
  aligned : bits d 63 0 % 2048 = 0 ∧ (op ≠ .zero → bits d 127 64 % 2048 = 0) ∧ (op ≠ .zero → op ≠ .copy → bits d 191 128 % 2048 = 0)
    ∧ bits d 383 320 % 16 = 0 ∧ bits d 319 256 % 64 = 0
  chunks  : cs = chunkPlaces v (op != .zero) ((op != .zero) && op != .copy && bits d 191 128 != 0) d
  maps    : chunkFault cs = none ∧ chunkSplit cs = none
  steady  : ∀ a ∈ cs.flatten.map Prod.fst ++ [BitVec.ofNat 64 (bits d 383 320), BitVec.ofNat 64 (bits d 319 256)], stalls v a = false
  pair    : pairPlace v (BitVec.ofNat 64 (bits d 383 320)) .write = .ok cpa
  record  : recPlace v (bits d 319 256) = .ok rec?
  ready   : stepReady v cpa = true
  good    : poisonedAt v cpa 16 = false
  near    : cpa < 2 ^ 40
  line    : cpa % 16 = 0 ∧ (homeLine v (cpa / 64)).length = 64 ∧ memOk v

/-- A strand that can take a trap (R27, R30, R426): it runs in no handler, TH is 0, and its DID has a trap vector. -/
def CanTrap (s : State) : Prop := s.me.seat ≠ .handler ∧ s.me.th = false ∧ (domOf s s.me.did).tvec ≠ 0

/-- The state after trap entry (R27): TPC, TCAUSE with ASYNC in bit 8, and TVAL written, TH set, the pc at TVEC; what an instruction that had begun to wait has changed of the
strand is as it was at its issue; nothing else changes. -/
def entered (s : State) (tpc : Word) (code : Nat) (asy : Bool) (tval : Word) : State :=
  { s with me := { (undoPre s).me with
      tpc := tpc
      tcause := BitVec.ofNat 64 (code + if asy then 2 ^ 8 else 0)
      tval := tval
      th := true
      wait := .none
      pc := (domOf s s.me.did).tvec } }

/-- A claim about each form of LAUNCH: whether its count is in memory, and whether it waits for room (R173). -/
def EachLaunch (P : (Guard → SReg → SReg → SReg → Instr) → Bool → Bool → Prop) : Prop :=
  P .launch false false ∧ P .launchW false true ∧ P .launchi true false ∧ P .launchiW true true

/-- The region whose RCB stands at `va` is well formed under the DID that reads it, and under the one by which the Maltsters know it (R164); clean lines of the L2 agree with
the arrays, so that no read of the Maltsters changes what stands there. -/
structure SoundRegion (s : State) (d : Nat) (va : Word) : Prop where
  formed : ∀ ri, regionInfo s d va = .ok ri → ri.malformed = false
  known  : ∀ ri, regionInfo s d va = .ok ri → ∀ x, regionRec s ri.pa = some x → ∀ q, regionInfo s x.did x.addr = .ok q → q.malformed = false
  agrees : L2Agrees s

/-- The issue of a LAUNCH form (R173, R193). -/
def launchIssue (g : Guard) (a b c : SReg) (park : Bool) : Issue := { msgIssue g [b.val, c.val] [a.val] .run [.core] with handler := !park }

/-! ### The monitor and the host -/

/-- What DID d holds on core c fits its record and clashes with no other DID (R420, R421, R423, R335). -/
structure SharesOk (s : State) (c d : Nat) : Prop where
  core   : c < 4096
  did    : d < 21
  banks  : (domCore s c d).spbank < 2 ^ 16 ∧ (domCore s c d).wsg < 2 ^ 16
  sets   : (domCore s c d).l1base + (domCore s c d).l1n ≤ 64 ∧ (domCore s c d).l1base < 64
  quotas : (List.range 21).foldl (fun a e => a + (domCore s c e).strq) 0 ≤ 64
  shares : (List.range 21).foldl (fun a e => a + (domCore s c e).mbox) 0 ≤ 64
  used   : (kget (coreOf s c).mbox d []).length ≤ (domCore s c d).mbox
  apart  : ∀ e < 21, e ≠ d → (domCore s c e).spbank &&& (domCore s c d).spbank = 0 ∧ (domCore s c e).wsg &&& (domCore s c d).wsg = 0
    ∧ ((domCore s c e).l1n = 0 ∨ (domCore s c d).l1n = 0 ∨ (domCore s c d).l1base + (domCore s c d).l1n ≤ (domCore s c e).l1base
        ∨ (domCore s c e).l1base + (domCore s c e).l1n ≤ (domCore s c d).l1base)

/-- The slot owners of a core are DIDs or 0x1F, and the handler slot has none (R420, R430). -/
def OwnersOk (s : State) (c : Nat) : Prop :=
  (coreOf s c).slotown.length = 32 ∧ (coreOf s c).curown.length = 32
    ∧ (∀ i < 32, (coreOf s c).slotown.getD i 0x1F ≤ 20 ∨ (coreOf s c).slotown.getD i 0x1F = 0x1F)
    ∧ (coreOf s c).slotown.getD (modeSlots (coreOf s c).mode - 1) 0x1F = 0x1F

/-- A host access of `n` bytes at `addr` of a logical device lies in one line, at `pa` of the HDM of the DID bound to it (R459). -/
structure HostAt (s : State) (port ld addr n d pa : Nat) : Prop where
  runs   : s.boot.recovery = false
  bound  : ldDid s port ld = some d
  place  : hdmPa addr (domOf s d).ranges = some pa
  some'  : 0 < n
  inside : addr % 64 + n ≤ 64
  line   : pa % 64 + n ≤ 64
  ready  : homeReady s (pa / 64) = true

/-- No write without the relaxed-ordering attribute of a function at a port waits, or the write itself has the attribute (R460, R462). -/
def NoneAhead (s : State) (fn port : Nat) (ro : Bool) : Prop :=
  ro = true ∨ ∀ b ∈ s.host.queue, b.data.isSome = true → b.relaxed = false → b.fn = fn → b.port ≠ port

/-- A message of another package that has not come before (R457). -/
def NewMessage (s : State) (m : RemoteMsg) : Prop :=
  s.seen.contains (m.src, m.seq) = false ∧ ∀ x ∈ s.inbox, x.src = m.src → x.seq ≠ m.seq

/-- A message of another package has been taken in (R457): it is known, and so is every other that can still come again. -/
def Heard (s t : State) (m : RemoteMsg) : Prop := t.seen = s.seen.filter (mayRepeat m) ++ [(m.src, m.seq)]

/-- A message of another package has been answered (R286, R454, R457): the answer, in the era of its sender, takes the next sequence number to that package. -/
def Replied (s t : State) (m : RemoteMsg) (v time cause : Nat) : Prop :=
  t.seqs = kset s.seqs m.src ((kget s.seqs m.src 0 + 1) % 2 ^ 32)
    ∧ ∃ d p, t.replies = s.replies ++ [⟨m.src, kget s.seqs m.src 0, d, m.era, m.pa / 64, m.seq, v, clockOut s m.era time, cause, answerVa m.op, p⟩]

/-- The byte of a DID's bias bitmap that holds the bit of a page, and the place of the bit (R461). -/
def biasPlace (s : State) (d page : Nat) : Nat × Nat :=
  let i := hdmOffset page (domOf s d).ranges 0 / 4096
  ((domOf s d).biastab + i / 8, i % 8)

/-- A page of DID d whose bias can be flipped: the bitmap's byte lies outside it, in a line that reads whole and without poison (R441, R461). -/
structure CanFlip (s : State) (d page : Nat) : Prop where
  runs    : s.boot.recovery = false
  aligned : page % 4096 = 0
  owner   : rangeOf s page = some d
  did     : d < 21
  table   : (domOf s d).biastab ≠ 0 ∧ namesDram (biasPlace s d page).1 = true
  apart   : (biasPlace s d page).1 / 4096 ≠ page / 4096
  line    : (homeLine s ((biasPlace s d page).1 / 64)).length = 64
  memory  : memOk s
  good    : poisonedAt s (biasPlace s d page).1 1 = false

/-- What a bias flip leaves (R461): the new bias, no line of the page in its slice, times above every lease of the page; the line of the bitmap takes a time above its
earlier reads (R270). -/
def Flipped (s t : State) (d page : Nat) (host : Bool) : Prop :=
  hostBias t page = host ∧ t.me = s.me
    ∧ (∀ l < 64, inL2 t (page / 64 + l) = false ∧ ∀ k < 64, (timesOf s (page / 64 + k)).rts < (timesOf t (page / 64 + l)).wts)
    ∧ (let x := timesOf s ((biasPlace s d page).1 / 64)
       timesOf t ((biasPlace s d page).1 / 64) = ⟨x.rts + 1, x.rts + 1, x.n + 1⟩)

/-! ### The issue of every instruction -/

/-- What every instruction is checked against before its own checks: its guard, the registers it reads, writes and names, whether a handler and a bank core
may run it, and the paths on which it begins work (R14, R42, R193, R275, R397). On a bank core an access by LD or ST belongs to a
path that its address names (R276, R398). An event has none. -/
def issueOf (s : State) : Instr → Option Issue
  | .add g a b c => some (opIssue g [b, c] [a] [] [])
  | .sub g a b c => some (opIssue g [b, c] [a] [] [])
  | .and g a b c => some (opIssue g [b, c] [a] [] [])
  | .or g a b c => some (opIssue g [b, c] [a] [] [])
  | .xor g a b c => some (opIssue g [b, c] [a] [] [])
  | .sel g a b c _ => some (opIssue g [b, c] [a] [] [])
  | .cmpReg g _ b c _ => some (opIssue g [b, c] [] [] [])
  | .cmpImm g _ b _ _ => some (opIssue g [b] [] [] [])
  | .li g a _ => some (opIssue g [] [a] [] [])
  | .j g _ => some (scalar g [] [])
  | .ldB g a b _ => some (memIssue (onBank s) g [b] [a] [] [])
  | .ldBu g a b _ => some (memIssue (onBank s) g [b] [a] [] [])
  | .ldH g a b _ => some (memIssue (onBank s) g [b] [a] [] [])
  | .ldHu g a b _ => some (memIssue (onBank s) g [b] [a] [] [])
  | .ldW g a b _ => some (memIssue (onBank s) g [b] [a] [] [])
  | .ldWu g a b _ => some (memIssue (onBank s) g [b] [a] [] [])
  | .ldD g a b _ => some (memIssue (onBank s) g [b] [a] [] [])
  | .lea g a b _ => some (opIssue g [b] [a] [] [])
  | .stB g a b _ => some (memIssue (onBank s) g [a, b] [] [] [])
  | .stH g a b _ => some (memIssue (onBank s) g [a, b] [] [] [])
  | .stW g a b _ => some (memIssue (onBank s) g [a, b] [] [] [])
  | .stD g a b _ => some (memIssue (onBank s) g [a, b] [] [] [])
  | .ldq g a b _ => some (memIssue (onBank s) g [b] [] [] [a.val, a.val + 1])
  | .stq g a b _ => some (memIssue (onBank s) g [b] [] [a.val, a.val + 1] [])
  | .mov g a b => some (opIssue g [b] [a] [] [])
  | .andn g a b => some (opIssue g [b] [] [a.val] [a.val])
  | .shlReg g a b => some (opIssue g [b] [] [a.val] [a.val])
  | .shrReg g a b => some (opIssue g [b] [] [a.val] [a.val])
  | .sraReg g a b => some (opIssue g [b] [] [a.val] [a.val])
  | .shlImm g a _ => some (opIssue g [] [] [a.val] [a.val])
  | .shrImm g a _ => some (opIssue g [] [] [a.val] [a.val])
  | .sraImm g a _ => some (opIssue g [] [] [a.val] [a.val])
  | .psetAnd g _ _ => some (scalar g [] [])
  | .psetOr g _ _ => some (scalar g [] [])
  | .psetXor g _ _ => some (scalar g [] [])
  | .psetAndn g _ _ => some (scalar g [] [])
  | .psetMov g _ _ => some (scalar g [] [])
  | .psetNot g _ _ => some (scalar g [] [])
  | .jr g a => some (opIssue g [a] [] [] [])
  | .nop g => some (scalar g [] [])
  | .bTrue g _ _ => some (scalar g [] [])
  | .bFalse g _ _ => some (scalar g [] [])
  | .jal g a _ => some (opIssue g [] [a] [] [])
  | .mul g a b c => some (opIssue g [b, c] [a] [] [])
  | .mulh g a b c => some (opIssue g [b, c] [a] [] [])
  | .mulhu g a b c => some (opIssue g [b, c] [a] [] [])
  | .div g a b c => some (opIssue g [b, c] [a] [] [])
  | .divu g a b c => some (opIssue g [b, c] [a] [] [])
  | .rem g a b c => some (opIssue g [b, c] [a] [] [])
  | .remu g a b c => some (opIssue g [b, c] [a] [] [])
  | .min g a b c => some (opIssue g [b, c] [a] [] [])
  | .max g a b c => some (opIssue g [b, c] [a] [] [])
  | .minu g a b c => some (opIssue g [b, c] [a] [] [])
  | .maxu g a b c => some (opIssue g [b, c] [a] [] [])
  | .rol g a b c => some (opIssue g [b, c] [a] [] [])
  | .ror g a b c => some (opIssue g [b, c] [a] [] [])
  | .clmul g a b c => some (opIssue g [b, c] [a] [] [])
  | .clmulh g a b c => some (opIssue g [b, c] [a] [] [])
  | .bext g a b c => some (opIssue g [b, c] [a] [] [])
  | .bins g a b c => some (opIssue g [b, c] [] [a.val] [a.val])
  | .clz g a b => some (opIssue g [b] [a] [] [])
  | .ctz g a b => some (opIssue g [b] [a] [] [])
  | .popc g a b => some (opIssue g [b] [a] [] [])
  | .brev g a b => some (opIssue g [b] [a] [] [])
  | .bswap g a b => some (opIssue g [b] [a] [] [])
  | .sextB g a b => some (opIssue g [b] [a] [] [])
  | .sextH g a b => some (opIssue g [b] [a] [] [])
  | .sextW g a b => some (opIssue g [b] [a] [] [])
  | .zextB g a b => some (opIssue g [b] [a] [] [])
  | .zextH g a b => some (opIssue g [b] [a] [] [])
  | .zextW g a b => some (opIssue g [b] [a] [] [])
  | .mfp g a => some (opIssue g [] [a] [] [])
  | .mtp g a => some (opIssue g [a] [] [] [])
  | .fadd g a b c => some (opIssue g [b, c] [a] [] [])
  | .fsub g a b c => some (opIssue g [b, c] [a] [] [])
  | .fmul g a b c => some (opIssue g [b, c] [a] [] [])
  | .fdiv g a b c => some (opIssue g [b, c] [a] [] [])
  | .fmin g a b c => some (opIssue g [b, c] [a] [] [])
  | .fmax g a b c => some (opIssue g [b, c] [a] [] [])
  | .ffma g a b c => some (opIssue g [b, c] [] [a.val] [a.val])
  | .fcmp g _ b c _ => some (opIssue g [b, c] [] [] [])
  | .fcvtF32S64 g a b => some (opIssue g [b] [a] [] [])
  | .fcvtS64F32 g a b => some (opIssue g [b] [a] [] [])
  | .fcvtF32U64 g a b => some (opIssue g [b] [a] [] [])
  | .fcvtU64F32 g a b => some (opIssue g [b] [a] [] [])
  | .fcvtF32Bf16 g a b => some (opIssue g [b] [a] [] [])
  | .fcvtBf16F32 g a b => some (opIssue g [b] [a] [] [])
  | .vAdd g a b c => some (vecIssue g [] [] [a.val, b.val, c.val])
  | .vSub g a b c => some (vecIssue g [] [] [a.val, b.val, c.val])
  | .vMul g a b c => some (vecIssue g [] [] [a.val, b.val, c.val])
  | .vFma g a b c => some (vecIssue g [] [] [a.val, b.val, c.val])
  | .vMin g a b c => some (vecIssue g [] [] [a.val, b.val, c.val])
  | .vMax g a b c => some (vecIssue g [] [] [a.val, b.val, c.val])
  | .vAnd g a b c => some (vecIssue g [] [] [a.val, b.val, c.val])
  | .vOr g a b c => some (vecIssue g [] [] [a.val, b.val, c.val])
  | .vXor g a b c => some (vecIssue g [] [] [a.val, b.val, c.val])
  | .vShl g a b c => some (vecIssue g [] [] [a.val, b.val, c.val])
  | .vShr g a b c => some (vecIssue g [] [] [a.val, b.val, c.val])
  | .vCmp g a b c _ => some (vecIssue g [] [] [a.val, b.val, c.val])
  | .vSel g a b c => some (vecIssue g [] [] [a.val, b.val, c.val])
  | .vClmul g a b c => some (vecIssue g [] [] [a.val, b.val, c.val])
  | .vAbs g a b => some (vecIssue g [] [] [a.val, b.val])
  | .vNeg g a b => some (vecIssue g [] [] [a.val, b.val])
  | .vPopc g a b => some (vecIssue g [] [] [a.val, b.val])
  | .vAddF g a b c => some (vecIssue g [] [] [a.val, b.val, c.val])
  | .vSubF g a b c => some (vecIssue g [] [] [a.val, b.val, c.val])
  | .vMulF g a b c => some (vecIssue g [] [] [a.val, b.val, c.val])
  | .vFmaF g a b c => some (vecIssue g [] [] [a.val, b.val, c.val])
  | .vMinF g a b c => some (vecIssue g [] [] [a.val, b.val, c.val])
  | .vMaxF g a b c => some (vecIssue g [] [] [a.val, b.val, c.val])
  | .vCmpF g a b c _ => some (vecIssue g [] [] [a.val, b.val, c.val])
  | .vAbsF g a b => some (vecIssue g [] [] [a.val, b.val])
  | .vNegF g a b => some (vecIssue g [] [] [a.val, b.val])
  | .vExp2 g a b => some (vecIssue g [] [] [a.val, b.val])
  | .vLog2 g a b => some (vecIssue g [] [] [a.val, b.val])
  | .vRcp g a b => some (vecIssue g [] [] [a.val, b.val])
  | .vRsq g a b => some (vecIssue g [] [] [a.val, b.val])
  | .vTanh g a b => some (vecIssue g [] [] [a.val, b.val])
  | .vShape g _ _ => some (vecIssue g [] [] [])
  | .vLd g a b c => some ({ vecIssue g [b.val, c.val] [] [a.val] with begins := [.core] })
  | .vSt g a b c => some ({ vecIssue g [b.val, c.val] [] [a.val] with begins := [.core] })
  | .vBcast g a b => some (vecIssue g [b.val] [] [a.val])
  | .vTrn g a b => some (vecIssue g [] [] [a.val, b.val])
  | .vMovxToScalar g a b c => some (vecIssue g [c.val] [a.val] [b.val])
  | .vMovxToElement g a b c => some (vecIssue g [b.val, c.val] [] [a.val])
  | .vCvt g _ _ a b => some (vecIssue g [] [] [a.val, b.val])
  | .vRedr g _ a b => some (vecIssue g [] [] [a.val, b.val])
  | .vRedc g _ a b => some (vecIssue g [] [] [a.val, b.val])
  | .vScan g _ a b => some (vecIssue g [] [] [a.val, b.val])
  | .vPerm g a b c => some (vecIssue g [] [] [a.val, b.val, c.val])
  | .vMaskb g a b c _ => some (vecIssue g [c.val] [a.val] [b.val])
  | .lrw g _ a b => some (syncIssue g [b.val] [a.val] false [.core])
  | .sch g _ a b => some (syncIssue g [a.val, b.val] [] true [.core])
  | .rls g _ b => some (syncIssue g [b.val] [] true [.core])
  | .amoD g _ _ _ a b c => some (syncIssue g [b.val, c.val] [a.val] true [.core])
  | .amoW g _ _ _ a b c => some (syncIssue g [b.val, c.val] [a.val] true [.core])
  | .amoH g _ _ _ a b c => some (syncIssue g [b.val, c.val] [a.val] true [.core])
  | .casD g _ _ a b c => some (syncIssue g [a.val, b.val, c.val] [a.val] true [.core])
  | .casQ g _ _ a b c => some (syncIssue g [a.val, a.val + 1, b.val, c.val, c.val + 1] [a.val, a.val + 1] true [.core])
  | .red g _ _ _ _ b c => some (syncIssue g [b.val, c.val] [] true [.core])
  | .fence g _ => some (syncIssue g [] [] true [])
  | .fenceS g _ => some (syncIssue g [] [] true [])
  | .fenceX g _ _ _ => some (syncIssue g [] [] true [])
  | .clkmax g a => some (syncIssue g [a.val] [] true [])
  | .rdtck g a => some (syncIssue g [] [a.val] true [])
  | .mwait g => some (syncIssue g [] [] false [])
  | .poll g _ a b => some (syncIssue g [b.val] [a.val] true [.core])
  | .mon g _ b => some (syncIssue g [b.val] [] true [.core])
  | .bari g _ a b => some (syncIssue g [a.val, b.val] [] true [.core])
  | .bara g _ a b => some (syncIssue g [b.val] [a.val] true [.core])
  | .barx g _ a b => some (syncIssue g [a.val, b.val] [] true [.core])
  | .barw g _ a b => some (syncIssue g [a.val, b.val] [] true [.core])
  | .sdef g a b => some (engineIssue g [b.val] [a.val] [.core])
  | .sbind g _ b => some (engineIssue g [b.val] [] [.stream])
  | .sgo g b => some (engineIssue g [b.val] [] [.stream])
  | .srecall g b => some (engineIssue g [b.val] [] [])
  | .sstat g a b => some (engineIssue g [b.val, a.val] [a.val] [])
  | .swait g b => some (engineIssue g [b.val] [] [])
  | .sfree g b => some (engineIssue g [b.val] [] [])
  | .tseal g b => some (engineIssue g [b.val] [] [.core])
  | .tpref g b => some (engineIssue g [b.val] [] [.core, .copy])
  | .tstat g a b => some ({ engineIssue g [b.val] [a.val] [] with noTok := [a.val, b.val] })
  | .tcopySp g a b c => some (engineIssue g [b.val, c.val] [a.val] [.core, .copy])
  | .tcopySlot g a b c => some (engineIssue g [b.val, c.val] [a.val] [.core, .copy])
  | .tcopyWs g a b c => some (engineIssue g [b.val, c.val] [a.val] [.core, .copy])
  | .tcopyMem g a b c => some (engineIssue g [b.val, c.val] [a.val] [.core, .copy])
  | .tcopym g a b c => some (engineIssue g [b.val, c.val] [a.val] [.core, .copy])
  | .tred g _ a b c => some (engineIssue g [b.val, c.val] [a.val] [.core, .copy])
  | .mma g _ _ _ => some (matIssue g [] [] [] true)
  | .mclmSlot g _ => some (matIssue g [] [] [] false)
  | .mclmAcc g _ => some (matIssue g [] [] [] false)
  | .mrelSlot g _ => some (matIssue g [] [] [] false)
  | .mrelAcc g _ => some (matIssue g [] [] [] false)
  | .mzero g _ => some (matIssue g [] [] [] false)
  | .mstat g a => some (matIssue g [] [a.val] [] false)
  | .mfill g _ b c => some (matIssue g [b.val, c.val] [] [] true)
  | .mfillV g _ b => some (matIssue g [] [] [b.val] true)
  | .mldw g _ b => some (matIssue g [b.val] [] [] true)
  | .mscl g _ b => some (matIssue g [b.val] [] [] true)
  | .mstc g _ b c => some (matIssue g [b.val, c.val] [] [] true)
  | .mstcV g _ b => some (matIssue g [] [] (upto b.val (storeRegs (wbits s.me.fmtc 3 0))) true)
  | .mig g b => some (msgIssue g [b.val] [] .run [])
  | .migBank g b => some (msgIssue g [b.val] [] .run [])
  | .mbwait g => some (msgIssue g [] [] .ret [])
  | .mbrecv g a b => some (msgIssue g [b.val] [a.val] .ret [.core])
  | .mbsend g a b => some (msgIssue g [a.val, b.val] [a.val] .ret [.core])
  | .qstat g a _ => some (msgIssue g [] [a.val] .ret [])
  | .bkseq g b => some (msgIssue g [b.val] [] .run [.core])
  | .bkstat g a b => some (msgIssue g [b.val] [a.val] .run [.core])
  | .drzero g a b => some (msgIssue g [b.val] [a.val] .run [.core, .bank])
  | .amsg g a b c => some (msgIssue g [a.val, b.val, c.val] [a.val] .run [])
  | .bkadd g a b c => some (msgIssue g [b.val, c.val] [a.val] .run [.core, .bank])
  | .bkmul g a b c => some (msgIssue g [b.val, c.val] [a.val] .run [.core, .bank])
  | .bkfma g a b c => some (msgIssue g [b.val, c.val] [a.val] .run [.core, .bank])
  | .drcpy g a b => some (msgIssue g [b.val] [a.val] .run [.core, .bank])
  | .retire g => some ({ sysIssue g [] [] .run [] with handler := true })
  | .tret => some (sysIssue .always [] [] .run [])
  | .gret => some (sysIssue .always [] [] .ret [])
  | .gsync g => some (sysIssue g [] [] .run [])
  | .repart g _ => some (sysIssue g [] [] .ill [])
  | .rdgtc g a => some (sysIssue g [] [a.val] .run [])
  | .rdcal g a _ => some (sysIssue g [] [a.val] .run [])
  | .slotset g b => some (sysIssue g [b.val] [] .ill [.core])
  | .step g b => some (sysIssue g [b.val] [] .run [])
  | .mfc g a _ => some (scalar g [] [a.val])
  | .mtc g _ a => some (scalar g [a.val] [])
  | .trap g _ => some (scalar g [] [])
  | .yield _ => some (sysIssue .always [] [] .run [])
  | .gate _ => some (sysIssue .always [] [] .ret [])
  | .launch g a b c => some ({ msgIssue g [b.val, c.val] [a.val] .run [.core] with handler := true })
  | .launchW g a b c => some ({ msgIssue g [b.val, c.val] [a.val] .run [.core] with handler := false })
  | .launchi g a b c => some ({ msgIssue g [b.val, c.val] [a.val] .run [.core] with handler := true })
  | .launchiW g a b c => some ({ msgIssue g [b.val, c.val] [a.val] .run [.core] with handler := false })
  | .clnr g a b => some (sysIssue g [a.val, b.val] [] .run [.core])
  | .invr g a b => some (sysIssue g [a.val, b.val] [] .run [.core])
  | .flsr g a b => some (sysIssue g [a.val, b.val] [] .run [.core])
  | .pref g a b => some (sysIssue g [a.val, b.val] [] .run [])
  | .tlbi g a b => some (sysIssue g [a.val, b.val] [] .ret [])
  | .tlbsd g a b => some (sysIssue g [a.val, b.val] [] .ret [])
  | _ => none

/-! ### The instructions that touch registers only -/

/-- The instructions of pages 0 to 2 that reach no memory and write no control register. -/
def registerOnly : Instr → Bool
  | .add _ _ _ _ => true
  | .sub _ _ _ _ => true
  | .and _ _ _ _ => true
  | .or _ _ _ _ => true
  | .xor _ _ _ _ => true
  | .sel _ _ _ _ _ => true
  | .cmpReg _ _ _ _ _ => true
  | .cmpImm _ _ _ _ _ => true
  | .li _ _ _ => true
  | .j _ _ => true
  | .lea _ _ _ _ => true
  | .mov _ _ _ => true
  | .andn _ _ _ => true
  | .shlReg _ _ _ => true
  | .shrReg _ _ _ => true
  | .sraReg _ _ _ => true
  | .shlImm _ _ _ => true
  | .shrImm _ _ _ => true
  | .sraImm _ _ _ => true
  | .psetAnd _ _ _ => true
  | .psetOr _ _ _ => true
  | .psetXor _ _ _ => true
  | .psetAndn _ _ _ => true
  | .psetMov _ _ _ => true
  | .psetNot _ _ _ => true
  | .jr _ _ => true
  | .nop _ => true
  | .bTrue _ _ _ => true
  | .bFalse _ _ _ => true
  | .jal _ _ _ => true
  | .mul _ _ _ _ => true
  | .mulh _ _ _ _ => true
  | .mulhu _ _ _ _ => true
  | .div _ _ _ _ => true
  | .divu _ _ _ _ => true
  | .rem _ _ _ _ => true
  | .remu _ _ _ _ => true
  | .min _ _ _ _ => true
  | .max _ _ _ _ => true
  | .minu _ _ _ _ => true
  | .maxu _ _ _ _ => true
  | .rol _ _ _ _ => true
  | .ror _ _ _ _ => true
  | .clmul _ _ _ _ => true
  | .clmulh _ _ _ _ => true
  | .bext _ _ _ _ => true
  | .bins _ _ _ _ => true
  | .clz _ _ _ => true
  | .ctz _ _ _ => true
  | .popc _ _ _ => true
  | .brev _ _ _ => true
  | .bswap _ _ _ => true
  | .sextB _ _ _ => true
  | .sextH _ _ _ => true
  | .sextW _ _ _ => true
  | .zextB _ _ _ => true
  | .zextH _ _ _ => true
  | .zextW _ _ _ => true
  | .mfp _ _ => true
  | .mtp _ _ => true
  | .fadd _ _ _ _ => true
  | .fsub _ _ _ _ => true
  | .fmul _ _ _ _ => true
  | .fdiv _ _ _ _ => true
  | .fmin _ _ _ _ => true
  | .fmax _ _ _ _ => true
  | .ffma _ _ _ _ => true
  | .fcmp _ _ _ _ _ => true
  | .fcvtF32S64 _ _ _ => true
  | .fcvtS64F32 _ _ _ => true
  | .fcvtF32U64 _ _ _ => true
  | .fcvtU64F32 _ _ _ => true
  | .fcvtF32Bf16 _ _ _ => true
  | .fcvtBf16F32 _ _ _ => true
  | .vAdd _ _ _ _ => true
  | .vSub _ _ _ _ => true
  | .vMul _ _ _ _ => true
  | .vFma _ _ _ _ => true
  | .vMin _ _ _ _ => true
  | .vMax _ _ _ _ => true
  | .vAnd _ _ _ _ => true
  | .vOr _ _ _ _ => true
  | .vXor _ _ _ _ => true
  | .vShl _ _ _ _ => true
  | .vShr _ _ _ _ => true
  | .vCmp _ _ _ _ _ => true
  | .vSel _ _ _ _ => true
  | .vClmul _ _ _ _ => true
  | .vAbs _ _ _ => true
  | .vNeg _ _ _ => true
  | .vPopc _ _ _ => true
  | .vAddF _ _ _ _ => true
  | .vSubF _ _ _ _ => true
  | .vMulF _ _ _ _ => true
  | .vFmaF _ _ _ _ => true
  | .vMinF _ _ _ _ => true
  | .vMaxF _ _ _ _ => true
  | .vCmpF _ _ _ _ _ => true
  | .vAbsF _ _ _ => true
  | .vNegF _ _ _ => true
  | .vExp2 _ _ _ => true
  | .vLog2 _ _ _ => true
  | .vRcp _ _ _ => true
  | .vRsq _ _ _ => true
  | .vTanh _ _ _ => true
  | .vBcast _ _ _ => true
  | .vTrn _ _ _ => true
  | .vMovxToScalar _ _ _ _ => true
  | .vMovxToElement _ _ _ _ => true
  | .vCvt _ _ _ _ _ => true
  | .vRedr _ _ _ _ => true
  | .vRedc _ _ _ _ => true
  | .vScan _ _ _ _ => true
  | .vPerm _ _ _ _ => true
  | .vMaskb _ _ _ _ _ => true
  | _ => false

/-- The vector registers an instruction of page 2 writes. -/
def vecDest : Instr → List Nat
  | .vAdd _ a _ _ => [a.val]
  | .vSub _ a _ _ => [a.val]
  | .vMul _ a _ _ => [a.val]
  | .vFma _ a _ _ => [a.val]
  | .vMin _ a _ _ => [a.val]
  | .vMax _ a _ _ => [a.val]
  | .vAnd _ a _ _ => [a.val]
  | .vOr _ a _ _ => [a.val]
  | .vXor _ a _ _ => [a.val]
  | .vShl _ a _ _ => [a.val]
  | .vShr _ a _ _ => [a.val]
  | .vCmp _ a _ _ _ => [a.val]
  | .vSel _ a _ _ => [a.val]
  | .vClmul _ a _ _ => [a.val]
  | .vAbs _ a _ => [a.val]
  | .vNeg _ a _ => [a.val]
  | .vPopc _ a _ => [a.val]
  | .vAddF _ a _ _ => [a.val]
  | .vSubF _ a _ _ => [a.val]
  | .vMulF _ a _ _ => [a.val]
  | .vFmaF _ a _ _ => [a.val]
  | .vMinF _ a _ _ => [a.val]
  | .vMaxF _ a _ _ => [a.val]
  | .vCmpF _ a _ _ _ => [a.val]
  | .vAbsF _ a _ => [a.val]
  | .vNegF _ a _ => [a.val]
  | .vExp2 _ a _ => [a.val]
  | .vLog2 _ a _ => [a.val]
  | .vRcp _ a _ => [a.val]
  | .vRsq _ a _ => [a.val]
  | .vTanh _ a _ => [a.val]
  | .vBcast _ a _ => [a.val]
  | .vTrn _ a _ => [a.val]
  | .vMovxToElement _ a _ _ => [a.val]
  | .vCvt _ _ _ a _ => [a.val]
  | .vRedr _ _ a _ => [a.val]
  | .vRedc _ _ a _ => [a.val]
  | .vScan _ _ a _ => [a.val]
  | .vPerm _ a _ _ => [a.val]
  | _ => []

/-- The predicate bits an instruction writes. -/
def predDest : Instr → List Nat
  | .cmpReg _ a _ _ _ => [a.val]
  | .cmpImm _ a _ _ _ => [a.val]
  | .psetAnd _ a _ => [a.val]
  | .psetOr _ a _ => [a.val]
  | .psetXor _ a _ => [a.val]
  | .psetAndn _ a _ => [a.val]
  | .psetMov _ a _ => [a.val]
  | .psetNot _ a _ => [a.val]
  | .fcmp _ a _ _ _ => [a.val]
  | .mtp _ _ => List.range 31
  | _ => []

/-- Of the strand, only registers, predicates, the pc, YDL, waiting state, the clock with what a token or a FENCE.X brings it, may differ. -/
def OnlyRegisters (m t : Strand) : Prop :=
  t = { m with s := t.s, p := t.p, v := t.v, pc := t.pc, ydl := t.ydl, wait := t.wait, tc := t.tc, tck := t.tck, fencex := t.fencex, floors := t.floors, pre := t.pre }

end Sys2Proof.Machine
end

