-- ==== Sys2Proof/Certificates/Slice0/Obligations.lean ====
section
/-! DEFINITION. The statements about this machine, for its provers: each docstring names the rules of the spec it formalises. -/

open Sys2Proof Sys2Proof.Machine

/-! ### Scalar instructions -/

/-- R80, R84, R86 to R89: the three-operand integer forms, over registers, queues and streams. R87: no operand value traps; a quotient by zero is all ones, a remainder by zero the dividend, and −2^63 by −1 gives −2^63 and 0; else the signed
quotient is truncated toward zero, and `x = q × y + r` holds. -/
def Obligations.IntegerForms : Prop :=
  (Gives3 .add (fun _ x y => x + y) ∧ Gives3 .sub (fun _ x y => x - y) ∧ Gives3 .and (fun _ x y => x &&& y) ∧ Gives3 .or (fun _ x y => x ||| y)
     ∧ Gives3 .xor (fun _ x y => x ^^^ y)
     ∧ (∀ n : Fin 16, Gives3 (fun g a b c => .sel g a b c n) (fun u x y => if pbit u n.val then x else y))
     ∧ Gives3 .mul (fun _ x y => BitVec.ofNat 64 (x.toNat * y.toNat))
     ∧ Gives3 .mulh (fun _ x y => BitVec.ofInt 64 (x.toInt * y.toInt / 2 ^ 64))
     ∧ Gives3 .mulhu (fun _ x y => BitVec.ofNat 64 (x.toNat * y.toNat / 2 ^ 64))
     ∧ Gives3 .min (fun _ x y => if x.toInt < y.toInt then x else y) ∧ Gives3 .max (fun _ x y => if x.toInt < y.toInt then y else x)
     ∧ Gives3 .minu (fun _ x y => if x.toNat < y.toNat then x else y) ∧ Gives3 .maxu (fun _ x y => if x.toNat < y.toNat then y else x)
     ∧ Gives3 .rol (fun _ x y => x.rotateLeft (y.toNat % 64)) ∧ Gives3 .ror (fun _ x y => x.rotateRight (y.toNat % 64)))
    ∧ ((∀ g a b c s u x y, Op3Ready g a b c s u x y →
     ∃ q r : Word, exec (.div g a b c) s = .next (writes s u a q) ∧ exec (.rem g a b c) s = .next (writes s u a r) ∧ x = q * y + r
       ∧ (y = 0 → q = BitVec.allOnes 64 ∧ r = x)
       ∧ (x = BitVec.ofInt 64 (-(2 ^ 63)) → y = BitVec.allOnes 64 → q = x ∧ r = 0)
       ∧ (y ≠ 0 → ¬ (x = BitVec.ofInt 64 (-(2 ^ 63)) ∧ y = BitVec.allOnes 64) →
           q.toInt = x.toInt.tdiv y.toInt ∧ r.toInt = x.toInt - x.toInt.tdiv y.toInt * y.toInt))
     ∧ Gives3 .divu (fun _ x y => if y.toNat = 0 then BitVec.allOnes 64 else BitVec.ofNat 64 (x.toNat / y.toNat))
     ∧ Gives3 .remu (fun _ x y => if y.toNat = 0 then x else BitVec.ofNat 64 (x.toNat % y.toNat)))

/-- R90: the one-operand bit forms, by the bits of their results. R91, R92: bit fields extracted and inserted, and the two halves of the carry-less product. -/
def Obligations.BitForms : Prop :=
  (Gives2P .clz (fun x v => ∃ n, v = BitVec.ofNat 64 n ∧ n ≤ 64 ∧ x.toNat < 2 ^ (64 - n) ∧ (n < 64 → 2 ^ (63 - n) ≤ x.toNat))
     ∧ Gives2P .ctz (fun x v => ∃ n, v = BitVec.ofNat 64 n ∧ n ≤ 64 ∧ (∀ i < n, x.getLsbD i = false) ∧ (n < 64 → x.getLsbD n = true))
     ∧ Gives2P .popc (fun x v => v = BitVec.ofNat 64 ((List.range 64).filter (fun i => x.getLsbD i)).length)
     ∧ Gives2P .brev (fun x v => ∀ i < 64, v.getLsbD i = x.getLsbD (63 - i))
     ∧ Gives2P .bswap (fun x v => ∀ i < 8, v.extractLsb' (8 * i) 8 = x.extractLsb' (8 * (7 - i)) 8)
     ∧ Gives2P .sextB (fun x v => v = (x.truncate 8).signExtend 64) ∧ Gives2P .sextH (fun x v => v = (x.truncate 16).signExtend 64)
     ∧ Gives2P .sextW (fun x v => v = (x.truncate 32).signExtend 64)
     ∧ Gives2P .zextB (fun x v => v = (x.truncate 8).zeroExtend 64) ∧ Gives2P .zextH (fun x v => v = (x.truncate 16).zeroExtend 64)
     ∧ Gives2P .zextW (fun x v => v = (x.truncate 32).zeroExtend 64))
    ∧ (Gives3 .bext (fun _ x y =>
       let pos := y.toNat % 64
       let w := min (min (y.toNat / 2 ^ 8 % 2 ^ 7) 64) (64 - pos)
       (x >>> pos) &&& BitVec.ofNat 64 (2 ^ w - 1))
     ∧ GivesRmw3 .bins (fun _ z x y =>
       let pos := y.toNat % 64
       let w := min (min (y.toNat / 2 ^ 8 % 2 ^ 7) 64) (64 - pos)
       let m := BitVec.ofNat 64 (2 ^ w - 1) <<< pos
       (z &&& ~~~m) ||| ((x <<< pos) &&& m))
     ∧ Gives3 .clmul (fun _ x y => (clmulUpTo x y 64).truncate 64)
     ∧ Gives3 .clmulh (fun _ x y => (clmulUpTo x y 64 >>> 64).truncate 64))

/-- R80, R81: copies, immediates and addresses; the forms that change their own register. -/
def Obligations.MovesAndShifts : Prop :=
  Gives2 .mov (fun _ x => x)
    ∧ (∀ off, Gives2 (fun g a b => .lea g a b off) (fun _ x => BitVec.ofInt 64 (x.toNat + off)))
    ∧ (∀ g a imm s u, Op1Ready g a s u → exec (.li g a imm) s = .next (writes s u a (BitVec.ofInt 64 imm)))
    ∧ GivesRmw .andn (fun _ z x => z &&& ~~~x)
    ∧ GivesRmw .shlReg (fun _ z x => z <<< (x.toNat % 64)) ∧ GivesRmw .shrReg (fun _ z x => z >>> (x.toNat % 64))
    ∧ GivesRmw .sraReg (fun _ z x => z.sshiftRight (x.toNat % 64))
    ∧ (∀ g (a : SReg) k s u, Issues (scalar g [a.val] [a.val]) s u →
        exec (.shlImm g a k) s = .next (goesOn s (setSreg u a.val (sreg u a.val <<< k)))
        ∧ exec (.shrImm g a k) s = .next (goesOn s (setSreg u a.val (sreg u a.val >>> k)))
        ∧ exec (.sraImm g a k) s = .next (goesOn s (setSreg u a.val ((sreg u a.val).sshiftRight k))))

/-- R103 to R105: scalar FP32 arithmetic forms the exact result and rounds it once under RND; RND.SAT also bounds the infinity of a division of finite
operands. R106: FMIN and FMAX return an operand without rounding: the other operand of one NaN, the canonical NaN of two, −0 below +0. -/
def Obligations.FloatForms : Prop :=
  ((let lo (x : Word) : Machine.Num := decodeNum .f32 (x.toNat % 2 ^ 32)
    let rd (u : State) (v : Machine.Num) : Word := BitVec.ofNat 64 (roundTo .f32 (u.me.rnd.toNat % 8) (u.me.rnd.getLsbD 3) v)
    let down (u : State) : Bool := u.me.rnd.toNat % 8 == 2
    Gives3 .fadd (fun u x y => rd u (addNum (down u) (lo x) (lo y)))
     ∧ Gives3 .fsub (fun u x y => rd u (addNum (down u) (lo x) (negNum (lo y))))
     ∧ Gives3 .fmul (fun u x y => rd u (mulNum (lo x) (lo y)))
     ∧ GivesRmw3 .ffma (fun u z x y => rd u (addNum (down u) (mulNum (lo x) (lo y)) (lo z)))
     ∧ (∀ g a b c s u x y, Op3Ready g a b c s u x y → ∃ v : Nat, exec (.fdiv g a b c) s = .next (writes s u a (BitVec.ofNat 64 v))
         ∧ (u.me.rnd.getLsbD 3 = false → BitVec.ofNat 64 v = rd u (divNum (lo x) (lo y)))
         ∧ ((∀ p n d q e, lo x = .fin p n d → lo y = .fin q 0 e → n = 0) → BitVec.ofNat 64 v = rd u (divNum (lo x) (lo y)))
         ∧ (u.me.rnd.getLsbD 3 = true → ∀ p n d q m e, lo x = .fin p n d → lo y = .fin q m e → n ≠ 0 → m = 0 →
             v = if p = q then 0x7F7FFFFF else 0xFF7FFFFF))))
    ∧ (∀ g a b c s u x y, Op3Ready g a b c s u x y →
     ∃ v w : Nat, exec (.fmin g a b c) s = .next (writes s u a (BitVec.ofNat 64 v)) ∧ exec (.fmax g a b c) s = .next (writes s u a (BitVec.ofNat 64 w))
       ∧ (let X := x.toNat % 2 ^ 32
          let Y := y.toNat % 2 ^ 32
          let p := decodeNum .f32 X
          let q := decodeNum .f32 Y
          (isNan p = true → isNan q = true → v = 0x7FC00000 ∧ w = 0x7FC00000)
           ∧ (isNan p = true → isNan q = false → v = Y ∧ w = Y)
           ∧ (isNan p = false → isNan q = true → v = X ∧ w = X)
           ∧ (X = Y → isNan p = false → v = X ∧ w = X)
           ∧ (ltNum p q = true → v = X ∧ w = Y) ∧ (ltNum q p = true → v = Y ∧ w = X)
           ∧ (X = 0x80000000 → Y = 0 → v = X ∧ w = Y) ∧ (X = 0 → Y = 0x80000000 → v = Y ∧ w = X)))

/-- R108: conversions; toward an integer the result is rounded, clamped, and NaN gives 0, and a BF16 code that is no NaN widens to FP32 by 16 zero bits. -/
def Obligations.Conversions : Prop :=
  (let lo (x : Word) : Machine.Num := decodeNum .f32 (x.toNat % 2 ^ 32)
   let mode (u : State) : Nat := u.me.rnd.toNat % 8
   Gives2 .fcvtF32S64 (fun u x => BitVec.ofNat 64 (roundTo .f32 (mode u) (u.me.rnd.getLsbD 3) (.fin (decide (x.toInt < 0)) x.toInt.natAbs 1)))
    ∧ Gives2 .fcvtF32U64 (fun u x => BitVec.ofNat 64 (roundTo .f32 (mode u) (u.me.rnd.getLsbD 3) (.fin false x.toNat 1)))
    ∧ Gives2 .fcvtBf16F32 (fun u x => BitVec.ofNat 64 (roundTo .bf16 (mode u) (u.me.rnd.getLsbD 3) (lo x)))
    ∧ (∀ g a b s u x, Op2Ready g a b s u x → ∃ p q : Int,
        exec (.fcvtS64F32 g a b) s = .next (writes s u a (BitVec.ofInt 64 p)) ∧ exec (.fcvtU64F32 g a b) s = .next (writes s u a (BitVec.ofInt 64 q))
        ∧ (-(2 ^ 63) ≤ p ∧ p < 2 ^ 63) ∧ (0 ≤ q ∧ q < 2 ^ 64) ∧ (lo x = .nan → p = 0 ∧ q = 0)
        ∧ (∀ neg, lo x = .inf neg → (p = if neg then -(2 ^ 63) else 2 ^ 63 - 1) ∧ (q = if neg then 0 else 2 ^ 64 - 1))
        ∧ (∀ neg n d, lo x = .fin neg n d → p = clampInt (-(2 ^ 63)) (2 ^ 63 - 1) (roundInt (mode u) neg n d)
            ∧ q = clampInt 0 (2 ^ 64 - 1) (roundInt (mode u) neg n d)))
    ∧ Gives2P .fcvtF32Bf16 (fun x v => let c := x.toNat % 2 ^ 16
        if isNan (decodeNum .bf16 c) then v = 0x7FC00000 else v = BitVec.ofNat 64 (c * 2 ^ 16)))

/-- R82, R83, R85, R107: compares and predicate logic write one predicate bit; MFP reads the predicate word and MTP writes P[30:0]. R15: a predicate bit written reads back, P[31] always reads 1, and no other bit changes. -/
def Obligations.Predicates : Prop :=
  ((∀ g (a : PBit) b c s u x y, Cmp2Ready g b c s u x y →
       exec (.cmpReg g a b c .eq) s = .next (goesOn s (setPbit u a.val (decide (x = y))))
       ∧ exec (.cmpReg g a b c .ne) s = .next (goesOn s (setPbit u a.val (decide (x ≠ y))))
       ∧ exec (.cmpReg g a b c .lt) s = .next (goesOn s (setPbit u a.val (decide (x.toInt < y.toInt))))
       ∧ exec (.cmpReg g a b c .ltu) s = .next (goesOn s (setPbit u a.val (decide (x.toNat < y.toNat))))
       ∧ exec (.cmpReg g a b c .ge) s = .next (goesOn s (setPbit u a.val (decide (y.toInt ≤ x.toInt))))
       ∧ exec (.cmpReg g a b c .geu) s = .next (goesOn s (setPbit u a.val (decide (y.toNat ≤ x.toNat)))))
     ∧ (∀ g (a : PBit) b imm s u x, Cmp1Ready g b s u x → ∀ y : Word, y = BitVec.ofInt 64 imm →
       exec (.cmpImm g a b imm .eq) s = .next (goesOn s (setPbit u a.val (decide (x = y))))
       ∧ exec (.cmpImm g a b imm .ne) s = .next (goesOn s (setPbit u a.val (decide (x ≠ y))))
       ∧ exec (.cmpImm g a b imm .lt) s = .next (goesOn s (setPbit u a.val (decide (x.toInt < y.toInt))))
       ∧ exec (.cmpImm g a b imm .ltu) s = .next (goesOn s (setPbit u a.val (decide (x.toNat < y.toNat))))
       ∧ exec (.cmpImm g a b imm .ge) s = .next (goesOn s (setPbit u a.val (decide (y.toInt ≤ x.toInt))))
       ∧ exec (.cmpImm g a b imm .geu) s = .next (goesOn s (setPbit u a.val (decide (y.toNat ≤ x.toNat)))))
     ∧ (∀ g (a : PBit) b c s u x y, Cmp2Ready g b c s u x y →
       let p := decodeNum .f32 (x.toNat % 2 ^ 32)
       let q := decodeNum .f32 (y.toNat % 2 ^ 32)
       exec (.fcmp g a b c .eq) s = .next (goesOn s (setPbit u a.val (eqNum p q)))
       ∧ exec (.fcmp g a b c .lt) s = .next (goesOn s (setPbit u a.val (ltNum p q)))
       ∧ exec (.fcmp g a b c .le) s = .next (goesOn s (setPbit u a.val (ltNum p q || eqNum p q)))
       ∧ exec (.fcmp g a b c .un) s = .next (goesOn s (setPbit u a.val (isNan p || isNan q))))
     ∧ GivesPred .psetAnd (fun x y => x && y) ∧ GivesPred .psetOr (fun x y => x || y) ∧ GivesPred .psetXor (fun x y => x != y)
     ∧ GivesPred .psetAndn (fun x y => x && !y) ∧ GivesPred .psetMov (fun _ y => y) ∧ GivesPred .psetNot (fun _ y => !y)
     ∧ (∀ g a s u, Op1Ready g a s u → ∃ v : Word, exec (.mfp g a) s = .next (writes s u a v)
         ∧ ∀ i < 64, v.getLsbD i = (decide (i < 32) && pbit u i))
     ∧ (∀ g a s u x, Cmp1Ready g a s u x → ∃ p : BitVec 32, exec (.mtp g a) s = .next (goesOn s { u with me := { u.me with p := p } })
         ∧ p.getLsbD 31 = true ∧ ∀ i < 31, p.getLsbD i = x.getLsbD i))
    ∧ (∀ (s : State) (n m : Fin 32) (b : Bool), pbit s 31 = true ∧ pbit (setPbit s n.val b) m.val = (if m = n ∧ n ≠ 31 then b else pbit s m.val)
     ∧ (setPbit s n.val b).me.s = s.me.s ∧ (setPbit s n.val b).mem = s.mem)

/-- R98 to R102: J, B and JAL go to PC + 2 × imm, B falls through to NextPC, JAL writes or pushes NextPC, JR goes to an even address, NOP only goes on. -/
def Obligations.ControlFlow : Prop :=
  (∀ g imm s u, Issues (scalar g [] []) s u → exec (.j g imm) s = .next (retireTo u (BitVec.ofInt 64 (u.me.pc.toNat + 2 * imm))))
    ∧ (∀ g (a : PBit) imm s u, Issues (scalar g [] []) s u →
        exec (.bTrue g a imm) s = .next (if pbit u a.val = true then retireTo u (BitVec.ofInt 64 (u.me.pc.toNat + 2 * imm)) else goesOn s u)
        ∧ exec (.bFalse g a imm) s = .next (if pbit u a.val = false then retireTo u (BitVec.ofInt 64 (u.me.pc.toNat + 2 * imm)) else goesOn s u))
    ∧ (∀ g a imm s u, Op1Ready g a s u →
        exec (.jal g a imm) s = .next (retireTo (putOp u a u.nextPc) (BitVec.ofInt 64 (u.me.pc.toNat + 2 * imm))))
    ∧ (∀ g a s u x, Cmp1Ready g a s u x → x.getLsbD 0 = false → exec (.jr g a) s = .next (retireTo u x))
    ∧ (∀ g s u, Issues (scalar g [] []) s u → exec (.nop g) s = .next (goesOn s u))


/-! ### Number formats -/

/-- R111 to R117, R122, R123: a value that a format represents exactly is rounded to its own code, whatever RND holds.
R122: within the range of a format the rounded magnitude is one of the two neighbours of the exact one; RTZ never exceeds it, RNE takes the nearer,
and at equal distance the even code. Whatever the magnitude, the mode chooses between the neighbour at or below it and the next code, which above Max stands for V, as the
rule says; V gives Max under SAT and in E2M1, else the infinity or the NaN of the format; zero keeps its sign where the format has −0; NaN and the infinities give those of
the format, NaN where it has no infinity. -/
def Obligations.Rounding : Prop :=
  (∀ (f : Fmt) (mode : Nat) (sat : Bool) (c : Nat), c < (if f = .e5m3 then 2 ^ 8 else 2 ^ (magW f + 1)) →
    (∃ neg n d, decodeNum f c = .fin neg n d) → roundTo f mode sat (decodeNum f c) = c)
  ∧ (∀ (f : Fmt) (mode : Nat) (neg : Bool) (n d : Nat), 0 < d → n * 2 ^ unitExp f < magUnits f (maxCode f + 1) * d →
    (let x := n * 2 ^ unitExp f
     let m := roundMag f mode neg n d
     m ≤ maxCode f + 1 ∧ (0 < m → magUnits f (m - 1) * d < x) ∧ (m ≤ maxCode f → x < magUnits f (m + 1) * d)
      ∧ (mode = 1 → magUnits f m * d ≤ x)
      ∧ (mode = 0 → (0 < m → (magUnits f (m - 1) + magUnits f m) * d ≤ 2 * x ∧ ((magUnits f (m - 1) + magUnits f m) * d = 2 * x → m % 2 = 0))
          ∧ (m ≤ maxCode f → 2 * x ≤ (magUnits f m + magUnits f (m + 1)) * d ∧ (2 * x = (magUnits f m + magUnits f (m + 1)) * d → m % 2 = 0)))))
  ∧ (∀ (f : Fmt) (mode : Nat) (neg : Bool) (n d : Nat), 0 < d →
    ∃ lo, lo ≤ maxCode f ∧ (let x := n * 2 ^ unitExp f
     let m := roundMag f mode neg n d
     let a := magUnits f lo * d
     let b := magUnits f (lo + 1) * d
     a ≤ x ∧ (lo < maxCode f → x < b) ∧ (x = a → m = lo)
      ∧ (a < x → (mode = 0 → m = if 2 * x < a + b ∨ (2 * x = a + b ∧ lo % 2 = 0) then lo else lo + 1) ∧ (mode = 1 → m = lo)
          ∧ (mode = 2 → m = if neg then lo + 1 else lo) ∧ (mode = 3 → m = if neg then lo else lo + 1)
          ∧ (mode = 4 → m = if 2 * x < a + b then lo else lo + 1) ∧ (mode = 5 → m = if lo % 2 = 0 ∧ lo ≠ maxCode f then lo + 1 else lo))))
  ∧ (∀ (f : Fmt) (mode : Nat) (sat neg : Bool) (n d : Nat), (f = .e5m3 → neg = false) →
    (let m := roundMag f mode neg n d
     let sign := if neg then 2 ^ magW f else 0
     (maxCode f < m → roundTo f mode sat (.fin neg n d) = (if sat then sign + maxCode f else match f with
        | .f32 => sign + 0x7F800000 | .bf16 => sign + 0x7F80 | .e4m3 => 0x7F | .t8 => 0x80 | .t6 => 0x20 | .e5m3 => 0xFF | .e2m1 => sign + 7))
      ∧ (0 < m → m ≤ maxCode f → roundTo f mode sat (.fin neg n d) = sign + m)
      ∧ (m = 0 → roundTo f mode sat (.fin neg n d) = if f = .t8 ∨ f = .t6 then 0 else sign)))
  ∧ (∀ (f : Fmt) (mode : Nat) (sat neg : Bool), f ≠ .e2m1 →
    roundTo f mode sat .nan = nanCode f ∧ (f ≠ .f32 → f ≠ .bf16 → roundTo f mode sat (.inf neg) = nanCode f))
  ∧ (∀ (mode : Nat) (sat neg : Bool), roundTo .f32 mode sat (.inf neg) = (if neg then 0xFF800000 else 0x7F800000)
    ∧ roundTo .bf16 mode sat (.inf neg) = (if neg then 0xFF80 else 0x7F80))


/-! ### Loads and stores -/

/-- R25, R26, R93 to R97: a load whose address lies in the local scratchpad, aligned, in banks its DID holds, without poison, writes its extended value at
once and goes on; LDQ writes a pair. -/
def Obligations.LoadsFromScratchpad : Prop :=
  EachLoad (fun mk n signed => ∀ g a b off s v u x, LoadReady g a b s v u x → ∀ o, InScratchpad u (x + BitVec.ofInt 64 off) n o →
      poisonedAt u (spadKey u.me.core o) n = false →
      ∃ t, loadWrite u (loadDest a) signed n (memVal u.mem (spadKey u.me.core o) n) = some t ∧ exec (mk g a b off) s = .next (goesOn s t))
    ∧ (∀ g (a : SReg) b off s v u x, Issues (memIssue (onBank s) g [b] [] [] [a.val, a.val + 1]) s v → Reads v b x u → ∀ o,
        InScratchpad u (x + BitVec.ofInt 64 off) 16 o → poisonedAt u (spadKey u.me.core o) 16 = false →
        exec (.ldq g a b off) s = .next (goesOn s (setSreg (setSreg u a.val (BitVec.ofNat 64 (memVal u.mem (spadKey u.me.core o) 8)))
          (a.val + 1) (BitVec.ofNat 64 (memVal u.mem (spadKey u.me.core o + 8) 8)))))

/-- R94, R96, R97, R266, R267: a load of memory that a leased copy covers takes the copy's bytes with the strand's own stores laid over them, and the clock
creeps: max(Clock, wts) + 1. Without such a copy the request leaves and the strand waits, nothing else of the load done: an element that gave its address is
popped only when the load completes (R78), and what a trap then takes back is kept (R27).
R97, R266, R267: the data of an outstanding load arrives from the home of its line, or from the core's copy where that has the line's wts: the register takes it with the strand's own
stores laid over it, the clock becomes max(t, wts) + 1 for t the clock with which the load was sent, the line's lease is renewed, and the strand goes on after the load. -/
def Obligations.LoadsFromMemory : Prop :=
  (EachLoad (fun mk n signed => ∀ g a b off s v u x, LoadReady g a b s v u x → ∀ pa, InMemory u (x + BitVec.ofInt 64 off) n .read pa →
      (∀ cp, l1Find (tlbKeep u (holderOf u.me) u.me.did (x + BitVec.ofInt 64 off).toNat) u.me.core u.me.did (pa / 64) = some cp → u.me.tck ≤ cp.rts → onBank u = false →
        ∃ t w, exec (mk g a b off) s = .next (goesOn s t) ∧ w.me = { u.me with tck := max u.me.tck cp.wts + 1 }
          ∧ loadWrite w (loadDest a) signed n (overlayOwn u.me pa n (leVal ((cp.data.drop (pa % 64)).take n))) = some t)
      ∧ (l1Find (tlbKeep u (holderOf u.me) u.me.did (x + BitVec.ofInt 64 off).toNat) u.me.core u.me.did (pa / 64) = none → pathBegun u (.mem pa) = some u → s.live = true →
        ∃ t l, exec (mk g a b off) s = .next t ∧ t.me = { v.me with wait := .load, load := some l, pre := some (snapshot s) } ∧ l.key = pa ∧ l.n = n ∧ l.signed = signed
          ∧ l.dest = loadDest a ∧ l.next = s.nextPc ∧ l.clock = u.me.tck ∧ l.pop = popOf b ∧ t.mem = u.mem
          ∧ (∀ c, (coreOf t c).queues = (coreOf v c).queues ∧ (coreOf t c).ctxs = (coreOf v c).ctxs))))
  ∧ (∀ s l r, s.boot.recovery = false → s.live = true → s.me.load = some l → l.remote = false → isFar l.key = false → homeReady s (l.key / 64) = true →
    poisonedAt s l.key l.n = false → l.dest = .reg r → r < 64 →
    ∃ t, exec (.loadCompletion s.me.key) s = .next t
      ∧ (let data := match (if onBank s then none else l1Find s s.me.core s.me.did (l.key / 64)).filter (fun cp => cp.wts == (timesOf s (l.key / 64)).wts) with
           | some cp => cp.data
           | none => homeLine s (l.key / 64)
         t.me.s.getD r 0 = loadExt l.signed l.n (overlayOwn s.me l.key l.n (leVal ((data.drop (l.key % 64)).take l.n))))
      ∧ t.me.tck = max (max s.me.tck l.clock) (timesOf s (l.key / 64)).wts + 1
      ∧ timesOf t (l.key / 64) = ⟨(timesOf s (l.key / 64)).wts,
          max (timesOf s (l.key / 64)).rts (max (max s.me.tck l.clock) (timesOf s (l.key / 64)).wts + leaseOf s s.me.did), (timesOf s (l.key / 64)).n⟩
      ∧ t.me.pc = l.next ∧ t.me.load = none ∧ t.me.wait = .none ∧ ∀ i, i ≠ r → t.me.s.getD i 0 = s.me.s.getD i 0)

/-- R25, R26, R93 to R95: a store to the local scratchpad writes the low bytes of its register there, low byte first, and no other byte of any storage. R97, R205, R268: a store to memory goes on its way with the strand's clock and floor, and the strand goes on without an acknowledgement; nothing in memory
has changed yet. -/
def Obligations.Stores : Prop :=
  (EachStore (fun mk n => ∀ g a b off s u y x, StoreReady g a b s u y x → memOk u → ∀ o, InScratchpad u (x + BitVec.ofInt 64 off) n o →
       ∃ t, exec (mk g a b off) s = .next (goesOn s t) ∧ t.me = u.me
         ∧ (∀ i < n, memGet t.mem (spadKey u.me.core o + i) = y.extractLsb' (8 * i) 8)
         ∧ (∀ k, k < spadKey u.me.core o ∨ spadKey u.me.core o + n ≤ k → memGet t.mem k = memGet u.mem k)
         ∧ t = { u with mem := t.mem })
     ∧ (∀ g (a : SReg) b off s v u x, Issues (memIssue (onBank s) g [b] [] [a.val, a.val + 1] []) s v → Reads v b x u → memOk u → ∀ o,
         InScratchpad u (x + BitVec.ofInt 64 off) 16 o →
         ∃ t, exec (.stq g a b off) s = .next (goesOn s t)
           ∧ (∀ i < 8, memGet t.mem (spadKey u.me.core o + i) = (u.me.s.getD a.val 0).extractLsb' (8 * i) 8
               ∧ memGet t.mem (spadKey u.me.core o + 8 + i) = (u.me.s.getD (a.val + 1) 0).extractLsb' (8 * i) 8)
           ∧ (∀ k, k < spadKey u.me.core o ∨ spadKey u.me.core o + 16 ≤ k → memGet t.mem k = memGet u.mem k)
           ∧ t = { u with mem := t.mem }))
    ∧ (EachStore (fun mk n => ∀ g a b off s u y x, StoreReady g a b s u y x → ∀ pa, InMemory u (x + BitVec.ofInt 64 off) n .write pa → pathBegun u (.mem pa) = some u →
       heldFull (tlbKeep u (holderOf u.me) u.me.did (x + BitVec.ofInt 64 off).toNat) (heldBy (tlbKeep u (holderOf u.me) u.me.did (x + BitVec.ofInt 64 off).toNat) (x + BitVec.ofInt 64 off).toNat n) = false →
       ∃ t p, exec (mk g a b off) s = .next (goesOn s t) ∧ t.me.posted = u.me.posted ++ [p] ∧ p.op = .store ∧ p.key = pa ∧ p.n = n
         ∧ p.val = y.toNat % 256 ^ n ∧ p.clock = u.me.tck ∧ p.floor = u.me.sf ∧ p.done = none ∧ t.mem = u.mem ∧ t.l2 = u.l2 ∧ t.wq = u.wq ∧ t.me.tck = u.me.tck))

/-- R202, R212, R268: a posted store is performed at its line's home at max(Clock + 1, Floor + 1, rts + 1), which becomes the line's wts and rts; its bytes
are at the home then. R269: its acknowledgement raises the strand's store horizon to that time; from then on the strand sees its bytes at their home, and not those of its earlier stores
to them (R267), which is the model's reading (log entry 13). -/
def Obligations.StoresPerform : Prop :=
  (∀ s p, s.boot.recovery = false → s.live = true → s.me.posted.find? (fun q => q.id == p.id) = some p → p.op = .store → p.key < 2 ^ 40 → p.far = false → p.plain = false →
      p.key % 64 + p.n ≤ 64 → postReady s s.me p = true → (homeLine s (p.key / 64)).length = 64 → memOk s →
      ∃ t, exec (.storeHomePerform s.me.key p.id) s = .next t
        ∧ (let ws := max (max (p.clock + 1) (p.floor + 1)) ((timesOf s (p.key / 64)).rts + 1)
           timesOf t (p.key / 64) = ⟨ws, ws, (timesOf s (p.key / 64)).n + 1⟩ ∧ (t.me.posted.find? (fun q => q.id == p.id)).map (fun q => q.done) = some (some ws))
        ∧ homeVal t p.key p.n = p.val % 256 ^ p.n)
    ∧ (∀ s p w, s.boot.recovery = false → s.live = true → s.me.posted.find? (fun q => q.id == p.id) = some p → p.done = some w → p.key < 2 ^ 40 →
      ∃ t, exec (.storeAcknowledgement s.me.key p.id) s = .next t
        ∧ t.me.posted.map (fun q => { q with gone := [] }) = (s.me.posted.filter (fun q => q.id != p.id)).map (fun q => { q with gone := [] })
        ∧ (∀ q ∈ t.me.posted, q.id < p.id → ∀ i < q.n, p.key ≤ q.key + i → q.key + i < p.key + p.n → i ∈ q.gone)
        ∧ t.me.h = (if p.plain then s.me.h else max s.me.h w) ∧ t.mem = s.mem ∧ t.lines = s.lines)

/-- R29, R62, R93, R101: an address that is no multiple of the access's size takes MISALIGN with the address as TVAL, before any other check but that of R420; LDQ and STQ ask
for 16; a jump to an odd address takes it too, and its operand is not popped. R420: an access of a window of DID 0 from another DID takes PRIV, aligned or not. -/
def Obligations.MisalignedTraps : Prop :=
  (∀ g a s u x, Cmp1Ready g a s u x → x.getLsbD 0 = true → exec (.jr g a) s = .next (takeTrap s s.me.pc .misalign false x))
    ∧ EachLoad (fun mk n _ => ∀ g a b off s v u x, LoadReady g a b s v u x → onBank u = false → (x + BitVec.ofInt 64 off).toNat % n ≠ 0 →
        privAccess u (x + BitVec.ofInt 64 off) = false →
      exec (mk g a b off) s = .next (takeTrap s s.me.pc .misalign false (x + BitVec.ofInt 64 off)))
    ∧ EachStore (fun mk n => ∀ g a b off s u y x, StoreReady g a b s u y x → onBank u = false → (x + BitVec.ofInt 64 off).toNat % n ≠ 0 →
        privAccess u (x + BitVec.ofInt 64 off) = false →
      exec (mk g a b off) s = .next (takeTrap s s.me.pc .misalign false (x + BitVec.ofInt 64 off)))
    ∧ (∀ g (a : SReg) b off s v u x, Reads v b x u → onBank u = false → (x + BitVec.ofInt 64 off).toNat % 16 ≠ 0 →
        privAccess u (x + BitVec.ofInt 64 off) = false →
        (Issues (memIssue (onBank s) g [b] [] [] [a.val, a.val + 1]) s v → exec (.ldq g a b off) s = .next (takeTrap s s.me.pc .misalign false (x + BitVec.ofInt 64 off)))
        ∧ (Issues (memIssue (onBank s) g [b] [] [a.val, a.val + 1] []) s v → exec (.stq g a b off) s = .next (takeTrap s s.me.pc .misalign false (x + BitVec.ofInt 64 off))))
    ∧ EachLoad (fun mk _ _ => ∀ g a b off s v u x, LoadReady g a b s v u x → onBank u = false → privAccess u (x + BitVec.ofInt 64 off) = true →
      exec (mk g a b off) s = .next (takeTrap s s.me.pc .priv false (x + BitVec.ofInt 64 off)))
    ∧ EachStore (fun mk _ => ∀ g a b off s u y x, StoreReady g a b s u y x → onBank u = false → privAccess u (x + BitVec.ofInt 64 off) = true →
      exec (mk g a b off) s = .next (takeTrap s s.me.pc .priv false (x + BitVec.ofInt 64 off)))

/-! ### Vector instructions -/

/-- R130, R131, R138 to R140: the integer-class forms work on each element alone, wrapping at its width; a compare gives all ones or zero, a select takes the
old destination as its mask. -/
def Obligations.VectorIntegers : Prop :=
  VecGives3 .vAdd (fun _ x y _ => x + y) ∧ VecGives3 .vSub (fun _ x y _ => x - y) ∧ VecGives3 .vMul (fun _ x y _ => x * y)
    ∧ VecGives3 .vFma (fun _ x y z => x * y + z)
    ∧ VecGives3 .vMin (fun _ x y _ => if x.toInt < y.toInt then x else y) ∧ VecGives3 .vMax (fun _ x y _ => if x.toInt < y.toInt then y else x)
    ∧ VecGives3 .vAnd (fun _ x y _ => x &&& y) ∧ VecGives3 .vOr (fun _ x y _ => x ||| y) ∧ VecGives3 .vXor (fun _ x y _ => x ^^^ y)
    ∧ VecGives3 .vShl (fun n x y _ => x <<< (y.toNat % n)) ∧ VecGives3 .vShr (fun n x y _ => x >>> (y.toNat % n))
    ∧ VecGives3 .vSel (fun _ x y z => if z = 0 then y else x)
    ∧ VecGives3 .vClmul (fun n x y _ => ((List.range n).filter (fun i => y.getLsbD i)).foldl (fun acc i => acc ^^^ (x <<< i)) 0)
    ∧ VecGives3 (fun g a b c => .vCmp g a b c .eq) (fun n x y _ => if x = y then BitVec.allOnes n else 0)
    ∧ VecGives3 (fun g a b c => .vCmp g a b c .ne) (fun n x y _ => if x = y then 0 else BitVec.allOnes n)
    ∧ VecGives3 (fun g a b c => .vCmp g a b c .lt) (fun n x y _ => if x.toInt < y.toInt then BitVec.allOnes n else 0)
    ∧ VecGives3 (fun g a b c => .vCmp g a b c .ltu) (fun n x y _ => if x.toNat < y.toNat then BitVec.allOnes n else 0)
    ∧ VecGives3 (fun g a b c => .vCmp g a b c .ge) (fun n x y _ => if y.toInt ≤ x.toInt then BitVec.allOnes n else 0)
    ∧ VecGives3 (fun g a b c => .vCmp g a b c .geu) (fun n x y _ => if y.toNat ≤ x.toNat then BitVec.allOnes n else 0)
    ∧ VecGives2 .vAbs (fun _ x => if x.toInt < 0 then -x else x) ∧ VecGives2 .vNeg (fun _ x => -x)
    ∧ VecGives2 .vPopc (fun n x => BitVec.ofNat n ((List.range n).filter (fun i => x.getLsbD i)).length)

/-- R132, R141 to R143: the floating-class forms work on BF16 or FP32 elements as VSH.ESZ is 1 or 2, each with one rounding under RND. -/
def Obligations.VectorFloats : Prop :=
  (let rd (u : State) (f : Fmt) (v : Machine.Num) : Nat := roundTo f (u.me.rnd.toNat % 8) (u.me.rnd.getLsbD 3) v
   let down (u : State) : Bool := u.me.rnd.toNat % 8 == 2
   let all (f : Fmt) : Nat := 2 ^ (magW f + 1) - 1
   VecFloat3 .vAddF (fun u f x y _ => rd u f (addNum (down u) (decodeNum f x) (decodeNum f y)))
    ∧ VecFloat3 .vSubF (fun u f x y _ => rd u f (addNum (down u) (decodeNum f x) (negNum (decodeNum f y))))
    ∧ VecFloat3 .vMulF (fun u f x y _ => rd u f (mulNum (decodeNum f x) (decodeNum f y)))
    ∧ VecFloat3 .vFmaF (fun u f x y z => rd u f (addNum (down u) (mulNum (decodeNum f x) (decodeNum f y)) (decodeNum f z)))
    ∧ VecFloat3 .vMinF (fun _ f x y _ => minMaxCode f false x y) ∧ VecFloat3 .vMaxF (fun _ f x y _ => minMaxCode f true x y)
    ∧ VecFloat3 (fun g a b c => .vCmpF g a b c .eq) (fun _ f x y _ => if eqNum (decodeNum f x) (decodeNum f y) then all f else 0)
    ∧ VecFloat3 (fun g a b c => .vCmpF g a b c .lt) (fun _ f x y _ => if ltNum (decodeNum f x) (decodeNum f y) then all f else 0)
    ∧ VecFloat3 (fun g a b c => .vCmpF g a b c .le)
        (fun _ f x y _ => if ltNum (decodeNum f x) (decodeNum f y) || eqNum (decodeNum f x) (decodeNum f y) then all f else 0)
    ∧ VecFloat3 (fun g a b c => .vCmpF g a b c .un) (fun _ f x y _ => if isNan (decodeNum f x) || isNan (decodeNum f y) then all f else 0)
    ∧ VecFloat2 .vAbsF (fun _ f x => if isNan (decodeNum f x) then nanCode f else x % 2 ^ magW f)
    ∧ VecFloat2 .vNegF (fun _ f x => if isNan (decodeNum f x) then nanCode f else (x + 2 ^ magW f) % 2 ^ (magW f + 1)))

/-- R151, R152: each special function completes on BF16 and FP32 elements. On FP32 elements it is one fixed function of the element and of RND.SAT; on BF16 elements
the same function of the widened element, its result rounded to BF16 under RND. Its results on special inputs are those of R152's table: a NaN for a NaN, and for
every finite input below zero under VLOG2 and VRSQ. VRCP is the quotient rounded once, VRSQ takes the nearest FP32 value; VEXP2 of an integer and VLOG2 of a power of two
are exact; VTANH keeps the sign and never exceeds 1 in magnitude. -/
def Obligations.VectorSpecials : Prop :=
  (SpecialFun .vExp2 (fun F => ∀ sat x neg k d, x < 2 ^ 32 → decodeNum .f32 x = .fin neg (k * d) d →
      F sat x = roundTo .f32 0 sat (if neg then .fin false 1 (2 ^ k) else .fin false (2 ^ k) 1))
    ∧ SpecialFun .vLog2 (fun F => ∀ sat x n d, x < 2 ^ 32 →
      (decodeNum .f32 x = .fin true n d → 0 < n → F sat x = nanCode .f32)
      ∧ (∀ k, decodeNum .f32 x = .fin false n d → 0 < n → n = 2 ^ k * d → F sat x = roundTo .f32 0 sat (.fin false k 1))
      ∧ (∀ k, decodeNum .f32 x = .fin false n d → 0 < n → 2 ^ (k + 1) * n = d → F sat x = roundTo .f32 0 sat (.fin true (k + 1) 1)))
    ∧ SpecialFun .vRcp (fun F => ∀ sat x neg n d, x < 2 ^ 32 → decodeNum .f32 x = .fin neg n d → 0 < n →
      F sat x = roundTo .f32 0 sat (.fin neg d n))
    ∧ SpecialFun .vRsq (fun F => ∀ sat x n d, x < 2 ^ 32 →
      (decodeNum .f32 x = .fin true n d → 0 < n → F sat x = nanCode .f32)
      ∧ (decodeNum .f32 x = .fin false n d → 0 < n →
          (let c := F sat x
           0 < c ∧ c ≤ maxCode .f32
            ∧ (magUnits .f32 (c - 1) + magUnits .f32 c) ^ 2 * n ≤ 4 * (2 ^ unitExp .f32) ^ 2 * d
            ∧ 4 * (2 ^ unitExp .f32) ^ 2 * d ≤ (magUnits .f32 c + magUnits .f32 (c + 1)) ^ 2 * n)))
    ∧ SpecialFun .vTanh (fun F => ∀ sat x neg n d, x < 2 ^ 32 → decodeNum .f32 x = .fin neg n d →
      F sat x / 2 ^ 31 = (if neg then 1 else 0) ∧ F sat x % 2 ^ 31 ≤ 0x3F800000))
  ∧ (let one (f : Fmt) : Nat := if f = .f32 then 0x3F800000 else 0x3F80
   let sign (f : Fmt) : Nat := 2 ^ magW f
   SpecialIs .vExp2 (fun f => [(0, one f), (sign f, one f), (infCode f, infCode f), (sign f + infCode f, 0)])
    ∧ SpecialIs .vLog2 (fun f => [(0, sign f + infCode f), (sign f, sign f + infCode f), (infCode f, infCode f), (sign f + infCode f, nanCode f),
        (sign f + one f, nanCode f), (one f, 0)])
    ∧ SpecialIs .vRcp (fun f => [(0, infCode f), (sign f, sign f + infCode f), (infCode f, 0), (sign f + infCode f, sign f), (one f, one f)])
    ∧ SpecialIs .vRsq (fun f => [(0, infCode f), (sign f, sign f + infCode f), (infCode f, 0), (sign f + infCode f, nanCode f),
        (sign f + one f, nanCode f), (one f, one f)])
    ∧ SpecialIs .vTanh (fun f => [(0, 0), (sign f, sign f), (infCode f, one f), (sign f + infCode f, sign f + one f)]))

/-- R137, R144, R148 to R150: values moved between scalar registers and elements, a register transposed, gathered, converted and compared by bytes. R132, R133: under an ESZ of 0 or 3 a floating-class form raises ILLEGAL with the words, and nothing of it happens; R134: VSHAPE sets a shape that R131
allows and raises ILLEGAL for any other. -/
def Obligations.VectorStructure : Prop :=
  ((∀ g (a : VReg) (b : SReg) s u, Issues (vecIssue g [b.val] [] [a.val]) s u →
       ∃ r, exec (.vBcast g a b) s = .next (goesOn s (setVreg u a.val r))
         ∧ ∀ k < 1024 / esOf u, elemBits (esOf u) r k = (u.me.s.getD b.val 0).truncate (8 * esOf u))
     ∧ (∀ g (a : SReg) (b : VReg) (c : SReg) s u, Issues (vecIssue g [c.val] [a.val] [b.val]) s u → 0 < rowsOf u * colsOf u →
         exec (.vMovxToScalar g a b c) s = .next (goesOn s (setSreg u a.val
           ((elemBits (esOf u) (u.me.v.getD b.val 0) ((u.me.s.getD c.val 0).toNat % (rowsOf u * colsOf u))).zeroExtend 64))))
     ∧ (∀ g (a : VReg) (b c : SReg) s u, Issues (vecIssue g [b.val, c.val] [] [a.val]) s u → 0 < rowsOf u * colsOf u → rowsOf u * colsOf u ≤ 1024 / esOf u →
         ∃ r, exec (.vMovxToElement g a b c) s = .next (goesOn s (setVreg u a.val r))
           ∧ ∀ k < 1024 / esOf u, elemBits (esOf u) r k =
               if k = (u.me.s.getD c.val 0).toNat % (rowsOf u * colsOf u) then (u.me.s.getD b.val 0).truncate (8 * esOf u)
               else elemBits (esOf u) (u.me.v.getD a.val 0) k)
     ∧ (∀ g (a b : VReg) s u, Issues (vecIssue g [] [] [a.val, b.val]) s u →
         ∃ r, exec (.vTrn g a b) s = .next (goesOn s (setVreg u a.val r))
           ∧ ∀ i < rowsOf u, ∀ j < colsOf u, elemBits (esOf u) r (j * rowsOf u + i) = elemBits (esOf u) (u.me.v.getD b.val 0) (i * colsOf u + j))
     ∧ (∀ g (a b c : VReg) s u, Issues (vecIssue g [] [] [a.val, b.val, c.val]) s u →
         ∃ r, exec (.vPerm g a b c) s = .next (goesOn s (setVreg u a.val r))
           ∧ ∀ k < 1024 / esOf u, elemBits (esOf u) r k =
               elemBits (esOf u) (u.me.v.getD b.val 0) ((elemBits (esOf u) (u.me.v.getD c.val 0) k).toNat % (1024 / esOf u)))
     ∧ (∀ g (a : SReg) (b : VReg) (c : SReg) (q : Fin 16) s u, Issues (vecIssue g [c.val] [a.val] [b.val]) s u →
         ∃ r : Word, exec (.vMaskb g a b c q) s = .next (goesOn s (setSreg u a.val r))
           ∧ ∀ j < 64, r.getLsbD j = decide ((u.me.v.getD b.val 0).extractLsb' (8 * (64 * q.val + j)) 8 = (u.me.s.getD c.val 0).truncate 8))
     ∧ (∀ g (d f : VFmt) (a b : VReg) s u, Issues (vecIssue g [] [] [a.val, b.val]) s u →
         ∃ r, exec (.vCvt g d f a b) s = .next (goesOn s (setVreg u a.val r))
           ∧ ∀ k < 1024 / vfmtSize d, (elemBits (vfmtSize d) r k).toNat =
               if k < 1024 / max (vfmtSize f) (vfmtSize d) then
                 vfmtOut d u.me.rnd (vfmtIn f (elemBits (vfmtSize f) (u.me.v.getD b.val 0) k).toNat) % 2 ^ (8 * vfmtSize d)
               else 0))
    ∧ ((∀ mk, mk ∈ [Instr.vAddF, .vSubF, .vMulF, .vFmaF, .vMinF, .vMaxF, fun g a b c => .vCmpF g a b c .eq] → ∀ g (a b c : VReg) s u,
       Issues (vecIssue g [] [] [a.val, b.val, c.val]) s u → (u.me.vsh.toNat % 4 = 0 ∨ u.me.vsh.toNat % 4 = 3) →
       exec (mk g a b c) s = .next (takeTrap s s.me.pc .illegal false u.words))
     ∧ (∀ mk, mk ∈ [Instr.vAbsF, .vNegF, .vExp2, .vLog2, .vRcp, .vRsq, .vTanh] → ∀ g (a b : VReg) s u,
       Issues (vecIssue g [] [] [a.val, b.val]) s u → (u.me.vsh.toNat % 4 = 0 ∨ u.me.vsh.toNat % 4 = 3) →
       exec (mk g a b) s = .next (takeTrap s s.me.pc .illegal false u.words))
     ∧ (∀ g (lr : Fin 16) (es : Fin 4) s u, Issues (vecIssue g [] [] []) s u →
         (lr.val + es.val ≤ 10 → exec (.vShape g lr es) s = .next (goesOn s { u with me := { u.me with vsh := BitVec.ofNat 64 (16 * lr.val + es.val) } }))
         ∧ (10 < lr.val + es.val → exec (.vShape g lr es) s = .next (takeTrap s s.me.pc .illegal false u.words))))

/-- R145 to R147: VREDR and VREDC put the tree of R146 over each row, or column, in its first element and zero elsewhere; VSCAN's element j is the operation
of its element j − 1 and the source's element j. -/
def Obligations.VectorReductions : Prop :=
  ∀ g op (a b : VReg) s u f, Issues (vecIssue g [] [] [a.val, b.val]) s u → redOpOf u op = some f → u.me.vsh.toNat / 16 % 16 + u.me.vsh.toNat % 4 ≤ 10 →
    (∃ r, exec (.vRedr g op a b) s = .next (goesOn s (setVreg u a.val r))
      ∧ ∀ i < rowsOf u, ∀ j < colsOf u, (elemBits (esOf u) r (i * colsOf u + j)).toNat =
          if j = 0 then treeRed f 10 ((List.range (colsOf u)).map (fun c => (elemBits (esOf u) (u.me.v.getD b.val 0) (i * colsOf u + c)).toNat)) % 2 ^ (8 * esOf u) else 0)
    ∧ (∃ r, exec (.vRedc g op a b) s = .next (goesOn s (setVreg u a.val r))
      ∧ ∀ i < rowsOf u, ∀ j < colsOf u, (elemBits (esOf u) r (i * colsOf u + j)).toNat =
          if i = 0 then treeRed f 10 ((List.range (rowsOf u)).map (fun c => (elemBits (esOf u) (u.me.v.getD b.val 0) (c * colsOf u + j)).toNat)) % 2 ^ (8 * esOf u) else 0)
    ∧ (∃ r, exec (.vScan g op a b) s = .next (goesOn s (setVreg u a.val r))
      ∧ (∀ i < rowsOf u, elemBits (esOf u) r (i * colsOf u) = elemBits (esOf u) (u.me.v.getD b.val 0) (i * colsOf u))
      ∧ ((∀ x y, x < 2 ^ (8 * esOf u) → y < 2 ^ (8 * esOf u) → f x y < 2 ^ (8 * esOf u)) →
          ∀ i < rowsOf u, ∀ j, j + 1 < colsOf u → (elemBits (esOf u) r (i * colsOf u + j + 1)).toNat =
            f (elemBits (esOf u) r (i * colsOf u + j)).toNat (elemBits (esOf u) (u.me.v.getD b.val 0) (i * colsOf u + j + 1)).toNat))

/-- R135, R136: VLD and VST of a box that lies in the local scratchpad: every element at base + row × stride + column × size; the register, or the bytes of
every element that no later one covers, and no other byte. -/
def Obligations.VectorMemory : Prop :=
  ∀ g (a : VReg) (b c : SReg) s u,
    Issues { vecIssue g [b.val, c.val] [] [a.val] with begins := [.core] } s u →
    (∀ k < rowsOf u * colsOf u, InScratchpad u (elemVa u (u.me.s.getD b.val 0) (u.me.s.getD c.val 0) k) (esOf u)
      ((elemVa u (u.me.s.getD b.val 0) (u.me.s.getD c.val 0) k).toNat % 2 ^ 18)) →
    (let key (k : Nat) : Nat := spadKey u.me.core ((elemVa u (u.me.s.getD b.val 0) (u.me.s.getD c.val 0) k).toNat % 2 ^ 18)
     ((∀ k < rowsOf u * colsOf u, poisonedAt u (key k) (esOf u) = false) →
        ∃ r, exec (.vLd g a b c) s = .next (goesOn s (setVreg (updMe u (fun m => { m with vload := none })) a.val r))
          ∧ ∀ k < rowsOf u * colsOf u, (elemBits (esOf u) r k).toNat = memVal u.mem (key k) (esOf u))
      ∧ (memOk u → ∃ t, exec (.vSt g a b c) s = .next (goesOn s t) ∧ t = { u with mem := t.mem }
          ∧ (∀ x, (∀ k < rowsOf u * colsOf u, x < key k ∨ key k + esOf u ≤ x) → memGet t.mem x = memGet u.mem x)
          ∧ ∀ k < rowsOf u * colsOf u, (∀ k' < rowsOf u * colsOf u, k < k' → key k' + esOf u ≤ key k ∨ key k + esOf u ≤ key k') →
              memVal t.mem (key k) (esOf u) = (elemBits (esOf u) (u.me.v.getD a.val 0) k).toNat))

/-! ### Atomic steps, reservations, barriers, monitors, fences and clocks -/

/-- R202 to R204, R206: AMO and CAS at the home of a line of the package read the old value and write the new one in one step at
ta = max(Clock + 1, rts + 1); the register takes the old value, the clock rises to ta under acquire order and to the line's wts otherwise, and a release first
raises it to the store horizon. A CAS that does not match writes nothing and renews the line. That a form of release order alone raises the clock to the line's old wts, as R202 says of a
relaxed one, is the model's choice (log entry 73). -/
def Obligations.AtomicSteps : Prop :=
  EachAmo (fun mk n => ∀ g o sc op (a b c : SReg) s u w pa, Issues (syncIssue g [b.val, c.val] [a.val] true [.core]) s u →
      StepAt u w (u.me.s.getD b.val 0) n .both (releases o) sc pa →
      ∃ t, exec (mk g o sc op a b c) s = .next (goesOn s (setSreg t a.val (BitVec.ofNat 64 (homeVal w pa n))))
        ∧ Wrote w t pa n (amoApply op n (homeVal w pa n) ((u.me.s.getD c.val 0).toNat % 256 ^ n)) (acquires o))
    ∧ (∀ g o sc (a b c : SReg) s u w pa, Issues (syncIssue g [a.val, b.val, c.val] [a.val] true [.core]) s u →
      StepAt u w (u.me.s.getD b.val 0) 8 .both (releases o) sc pa →
      ∃ t, exec (.casD g o sc a b c) s = .next (goesOn s (setSreg t a.val (BitVec.ofNat 64 (homeVal w pa 8))))
        ∧ (homeVal w pa 8 = (u.me.s.getD a.val 0).toNat → Wrote w t pa 8 (u.me.s.getD c.val 0).toNat (acquires o))
        ∧ (homeVal w pa 8 ≠ (u.me.s.getD a.val 0).toNat → Renewed w t pa 8))
    ∧ (∀ g o sc (a b c : SReg) s u w pa, Issues (syncIssue g [a.val, a.val + 1, b.val, c.val, c.val + 1] [a.val, a.val + 1] true [.core]) s u →
      StepAt u w (u.me.s.getD b.val 0) 16 .both (releases o) sc pa →
      ∃ t, exec (.casQ g o sc a b c) s = .next (goesOn s (setSreg (setSreg t a.val (BitVec.ofNat 64 (homeVal w pa 16))) (a.val + 1)
          (BitVec.ofNat 64 (homeVal w pa 16 / 2 ^ 64))))
        ∧ (homeVal w pa 16 = pairVal u a.val → Wrote w t pa 16 (pairVal u c.val) (acquires o))
        ∧ (homeVal w pa 16 ≠ pairVal u a.val → Renewed w t pa 16))

/-- R201, R203, R205: AMO and RED in the local scratchpad read and write it in one step, without a logical time; the word becomes what R203 gives, and no other byte changes. -/
def Obligations.AtomicsInScratchpad : Prop :=
  EachAmo (fun mk n => ∀ g o sc op (a b c : SReg) s u w x, Issues (syncIssue g [b.val, c.val] [a.val] true [.core]) s u →
      InScratchpad u (u.me.s.getD b.val 0) n x → Released u w (releases o) sc → poisonedAt w (spadKey u.me.core x) n = false → memOk u →
      ∃ t, exec (mk g o sc op a b c) s = .next (goesOn s (setSreg t a.val (BitVec.ofNat 64 (memVal u.mem (spadKey u.me.core x) n))))
        ∧ t = { w with mem := t.mem }
        ∧ memVal t.mem (spadKey u.me.core x) n = amoApply op n (memVal u.mem (spadKey u.me.core x) n) ((u.me.s.getD c.val 0).toNat % 256 ^ n) % 256 ^ n
        ∧ ∀ k, k < spadKey u.me.core x ∨ spadKey u.me.core x + n ≤ k → memGet t.mem k = memGet u.mem k)
    ∧ (∀ g o sc wd op (b c : SReg) s u w x, Issues (syncIssue g [b.val, c.val] [] true [.core]) s u →
      InScratchpad u (u.me.s.getD b.val 0) (redBytes wd) x → Released u w (releases o) sc → memOk u →
      ∃ t, exec (.red g o sc wd op b c) s = .next (goesOn s t) ∧ t = { w with mem := t.mem }
        ∧ memVal t.mem (spadKey u.me.core x) (redBytes wd)
            = amoApply op (redBytes wd) (memVal u.mem (spadKey u.me.core x) (redBytes wd)) ((u.me.s.getD c.val 0).toNat % 256 ^ redBytes wd) % 256 ^ redBytes wd
        ∧ ∀ k, k < spadKey u.me.core x ∨ spadKey u.me.core x + redBytes wd ≤ k → memGet t.mem k = memGet u.mem k)

/-- R205, R213: RED, BARI and BARX send their step to the home and go on at once; nothing at the home has changed yet. R205, R212, R213, R268: a posted reduction is performed at its home at max(Clock + 1, rts + 1); BARI leaves EXPECTED as given and ARRIVED and PENDING zero;
BARX adds to PENDING and makes the completion test. -/
def Obligations.PostedSteps : Prop :=
  ((∀ g o sc wd op (b c : SReg) s u w pa, Issues (syncIssue g [b.val, c.val] [] true [.core]) s u →
       InMemory u (u.me.s.getD b.val 0) (redBytes wd) .write pa → Released u w (releases o) sc →
       ∃ t p, exec (.red g o sc wd op b c) s = .next (goesOn s t) ∧ t.me.posted = w.me.posted ++ [p] ∧ p.op = .red op ∧ p.key = pa ∧ p.n = redBytes wd
         ∧ p.val = (u.me.s.getD c.val 0).toNat % 256 ^ redBytes wd ∧ p.clock = w.me.tck ∧ p.done = none ∧ t.mem = u.mem ∧ t.lines = u.lines)
     ∧ (∀ g sc (a b : SReg) s u w pa, Issues (syncIssue g [a.val, b.val] [] true [.core]) s u →
       InMemory u (u.me.s.getD b.val 0) 32 .write pa → Released u w true sc →
       (∃ t p, exec (.bari g sc a b) s = .next (goesOn s t) ∧ t.me.posted = w.me.posted ++ [p] ∧ p.op = .bari ∧ p.key = pa
         ∧ p.val = (u.me.s.getD a.val 0).toNat % 2 ^ 32 ∧ p.clock = w.me.tck ∧ t.mem = u.mem)
       ∧ (∃ t p, exec (.barx g sc a b) s = .next (goesOn s t) ∧ t.me.posted = w.me.posted ++ [p] ∧ p.op = .barx ∧ p.key = pa
         ∧ p.val = (u.me.s.getD a.val 0).toNat ∧ p.clock = w.me.tck ∧ t.mem = u.mem)))
    ∧ (∀ s p, s.boot.recovery = false → s.live = true → s.me.posted.find? (fun q => q.id == p.id) = some p → p.key < 2 ^ 40 → p.far = false → p.plain = false →
     p.key % 64 + p.n ≤ 64 → postReady s s.me p = true → (homeLine s (p.key / 64)).length = 64 → memOk s →
     (let ws := max (p.clock + 1) ((timesOf s (p.key / 64)).rts + 1)
      let old := homeVal s p.key p.n
      (∀ op, p.op = .red op → ∃ t, exec (.redHomeStep s.me.key p.id) s = .next t ∧ timesOf t (p.key / 64) = ⟨ws, ws, (timesOf s (p.key / 64)).n + 1⟩
         ∧ homeVal t p.key p.n = amoApply op p.n old p.val % 256 ^ p.n)
       ∧ (p.op = .bari → p.n = 32 → ∃ t, exec (.storeHomePerform s.me.key p.id) s = .next t ∧ timesOf t (p.key / 64) = ⟨ws, ws, (timesOf s (p.key / 64)).n + 1⟩
         ∧ homeVal t p.key 4 = p.val % 2 ^ 32 ∧ bits (homeVal t p.key 32) 95 64 = 0 ∧ bits (homeVal t p.key 32) 183 128 = 0
         ∧ bits (homeVal t p.key 32) 63 32 = bits old 63 32)
       ∧ (p.op = .barx → p.n = 32 → ∃ t, exec (.storeHomePerform s.me.key p.id) s = .next t ∧ timesOf t (p.key / 64) = ⟨ws, ws, (timesOf s (p.key / 64)).n + 1⟩
         ∧ homeVal t p.key 32 = barrierTest (setBits old 183 128 (bits old 183 128 + p.val)) % 256 ^ 32)))

/-- R207 to R209: LRW of a free doubleword takes the reservation, its value and its time; of one that is held it waits at the tail of the queue. SCH, by the holder, stores to
the reserved doubleword at max(Clock + 1, rts + 1), which the clock takes, and hands the reservation with the value stored to the waiter at the head, if there is one; RLS hands it on with
the value there; both first raise the clock to the store horizon. R208 to R210: a holder that gives a reservation up otherwise passes it to the waiter at the head of the queue, at a
time of at least the given one, the doubleword's value then, once the home can read it (R262); host memory takes no time (R454). R207: the grant reaches the waiting strand, its register and its clock, and it goes on after its LRW. -/
def Obligations.Reservations : Prop :=
  ((∀ g sc (a b : SReg) s u pa, Issues (syncIssue g [b.val] [a.val] false [.core]) s u → InMemory u (u.me.s.getD b.val 0) 8 .both pa → pa < 2 ^ 40 →
       u.me.rsv = none → stepReady u pa = true → poisonedAt u pa 8 = false →
       (kget? u.resv pa = none → ∃ t, exec (.lrw g sc a b) s = .next (goesOn s t) ∧ t.me.rsv = some (pa, u.me.gates.length)
         ∧ t.me.s.getD a.val 0 = BitVec.ofNat 64 (homeVal u pa 8) ∧ t.me.tck = max u.me.tck (timesOf u (pa / 64)).wts
         ∧ kget? t.resv pa = some ⟨some u.me.key, [], none⟩ ∧ t.mem = u.mem
         ∧ timesOf t (pa / 64) = ⟨(timesOf u (pa / 64)).wts, max (timesOf u (pa / 64)).rts (max u.me.tck (timesOf u (pa / 64)).wts), (timesOf u (pa / 64)).n⟩)
       ∧ (∀ k ws gr, kget? u.resv pa = some ⟨some k, ws, gr⟩ → k ≠ u.me.key → ws.any (fun w => w.1 == u.me.key) = false →
         ∃ t, exec (.lrw g sc a b) s = .next t ∧ t.me.wait = .lrw ∧ t.me.wkey = pa ∧ t.me.wreg = a.val ∧ t.me.wnext = s.nextPc ∧ t.me.pc = s.me.pc
           ∧ kget? t.resv pa = some ⟨some k, ws ++ [(u.me.key, u.me.tck)], gr⟩))
     ∧ (∀ g sc (a b : SReg) s u pa d ws, Issues (syncIssue g [a.val, b.val] [] true [.core]) s u → InMemory u (u.me.s.getD b.val 0) 8 .both pa → pa < 2 ^ 40 →
       u.me.rsv = some (pa, d) → acked u sc = true → stepReady u pa = true → pa % 64 + 8 ≤ 64 → (homeLine u (pa / 64)).length = 64 → memOk u →
       kget? u.resv pa = some ⟨some u.me.key, ws, none⟩ →
       (let v := (u.me.s.getD a.val 0).toNat
        let w := max (max u.me.tck u.me.h + 1) ((timesOf u (pa / 64)).rts + 1)
        ∃ t, exec (.sch g sc a b) s = .next (goesOn s t) ∧ homeVal t pa 8 = v ∧ t.me.rsv = none ∧ t.me.tck = w
          ∧ (ws = [] → kget? t.resv pa = none ∧ timesOf t (pa / 64) = ⟨w, w, (timesOf u (pa / 64)).n + 1⟩)
          ∧ (∀ k c rest, ws = (k, c) :: rest → kget? t.resv pa = some ⟨some k, rest, some (v, max c w)⟩
              ∧ timesOf t (pa / 64) = ⟨w, max c w, (timesOf u (pa / 64)).n + 1⟩)))
     ∧ (∀ g sc (b : SReg) s u pa d ws, Issues (syncIssue g [b.val] [] true [.core]) s u → InMemory u (u.me.s.getD b.val 0) 8 .both pa → pa < 2 ^ 40 →
       u.me.rsv = some (pa, d) → acked u sc = true → stepReady u pa = true → kget? u.resv pa = some ⟨some u.me.key, ws, none⟩ →
       (let x := timesOf u (pa / 64)
        let clk := max u.me.tck u.me.h
        ∃ t, exec (.rls g sc b) s = .next (goesOn s t) ∧ t.me.rsv = none ∧ t.me.tck = clk ∧ t.mem = u.mem
          ∧ (ws = [] → kget? t.resv pa = none ∧ t.lines = u.lines)
          ∧ (∀ k c rest, ws = (k, c) :: rest → kget? t.resv pa = some ⟨some k, rest, some (homeVal u pa 8, max (max c x.wts) clk)⟩
              ∧ timesOf t (pa / 64) = ⟨x.wts, max x.rts (max (max c x.wts) clk), x.n⟩))))
    ∧ ((∀ s pa k k' c ws lo, kget? s.resv pa = some ⟨some k, (k', c) :: ws, none⟩ → (isFar pa = true ∨ homeReady s (pa / 64) = true) →
       ∃ q, kget? (resvRelease s pa k lo).resv pa = some q ∧ q.holder = some k' ∧ q.waiters = ws
         ∧ q.grant = some (anyVal s pa 8, if isHost pa then 0 else max (max c (timesOf s (pa / 64)).wts) lo))
     ∧ (∀ s pa k k' c ws lo, kget? s.resv pa = some ⟨some k, (k', c) :: ws, none⟩ → isFar pa = false → homeReady s (pa / 64) = false →
       (resvRelease s pa k lo).resv = kset s.resv pa ⟨none, (k', c) :: ws, none⟩)
     ∧ (∀ s pa v tg ws, s.boot.recovery = false → s.live = true → s.me.seat ≠ .none → s.me.dead = false → s.me.key < 2 ^ 64 → s.me.wait = .lrw → s.me.wkey = pa → s.me.wreg < 64 →
       kget? s.resv pa = some ⟨some s.me.key, ws, some (v, tg)⟩ → poisonedAt s pa 8 = false →
       ∃ t, exec (.reservationGrant pa) s = .next t ∧ t.me.s.getD s.me.wreg 0 = BitVec.ofNat 64 v ∧ t.me.tck = max s.me.tck tg
         ∧ t.me.rsv = some (pa, s.me.gates.length) ∧ t.me.pc = s.me.wnext ∧ t.me.wait = .none))

/-- R211 to R214: BARA adds one arrival with the completion test and returns the phase before it; BARW of a completed phase goes on and of any other waits on the
object's line; the wait ends once the line has been written and the phase has completed, each look at the object translating its address anew (R249). R215 to R217: POLL takes the doubleword from its home; MON arms the monitor with the line's wts and
the count of its writes; MWAIT without a monitor, or with one whose
line has been written since, goes on, and otherwise waits until it is. That MWAIT, BARW and their wake-ups go by a count of the line's writes, where R217 speaks of a wts above the
monitor's, is the model's choice (log entry 27). -/
def Obligations.BarriersAndMonitors : Prop :=
  ((∀ g sc (a b : SReg) s u w pa, Issues (syncIssue g [b.val] [a.val] true [.core]) s u → StepAt u w (u.me.s.getD b.val 0) 32 .both true sc pa →
       ∃ t, exec (.bara g sc a b) s = .next (goesOn s (setSreg t a.val (BitVec.ofNat 64 (bits (homeVal w pa 32) 63 32))))
         ∧ Wrote w t pa 32 (barrierTest (setBits (homeVal w pa 32) 95 64 (bits (homeVal w pa 32) 95 64 + 1))) false)
     ∧ (∀ g sc (a b : SReg) s u pa, Issues (syncIssue g [a.val, b.val] [] true [.core]) s u → InMemory u (u.me.s.getD b.val 0) 32 .read pa → pa < 2 ^ 40 →
       stepReady u pa = true →
       (let d := (bits (homeVal u pa 32) 63 32 + 2 ^ 32 - (u.me.s.getD a.val 0).toNat % 2 ^ 32) % 2 ^ 32
        (1 ≤ d ∧ d < 2 ^ 31 → ∃ t, exec (.barw g sc a b) s = .next (goesOn s t) ∧ t.me = { u.me with tck := max u.me.tck (timesOf u (pa / 64)).wts })
         ∧ (¬ (1 ≤ d ∧ d < 2 ^ 31) → ∃ t, exec (.barw g sc a b) s = .next t ∧ t.me.wait = .barw ∧ t.me.wkey = pa
           ∧ t.me.wval = (u.me.s.getD a.val 0).toNat % 2 ^ 32 ∧ t.me.wva = (u.me.s.getD b.val 0).toNat ∧ t.me.wn = (timesOf u (pa / 64)).n ∧ t.me.pc = s.me.pc)))
     ∧ (∀ s pa, Waits s .barw → s.me.wva < 2 ^ 64 → InMemory s (BitVec.ofNat 64 s.me.wva) 32 .read pa → pa < 2 ^ 40 → stepReady s pa = true →
       (pa ≠ s.me.wkey ∨ (timesOf s (s.me.wkey / 64)).n ≠ s.me.wn) →
       (phaseDone (homeVal s pa 32) s.me.wval = true →
           ∃ t, exec (.barwWake s.me.key) s = .next t ∧ t.me.pc = s.me.wnext ∧ t.me.wait = .none ∧ t.me.tck = max s.me.tck (timesOf s (pa / 64)).wts)
         ∧ (phaseDone (homeVal s pa 32) s.me.wval = false →
           ∃ t, exec (.barwWake s.me.key) s = .next t ∧ t.me = { s.me with wkey := pa, wn := (timesOf s (pa / 64)).n }))
     ∧ (∀ s c v, Waits s .barw → stalls s (BitVec.ofNat 64 s.me.wva) = false → (timesOf s (s.me.wkey / 64)).n ≠ s.me.wn →
       stepPlace s (BitVec.ofNat 64 s.me.wva) 32 .read false = .error (c, v) → exec (.barwWake s.me.key) s = .next (takeTrap s s.me.pc c false v)))
    ∧ ((∀ g sc (a b : SReg) s u pa, Issues (syncIssue g [b.val] [a.val] true [.core]) s u → InMemory u (u.me.s.getD b.val 0) 8 .read pa → pa < 2 ^ 40 →
       stepReady u pa = true → poisonedAt u pa 8 = false →
       ∃ t, exec (.poll g sc a b) s = .next (goesOn s (setSreg t a.val (BitVec.ofNat 64 (homeVal u pa 8))))
         ∧ t.me = { u.me with tck := max u.me.tck (timesOf u (pa / 64)).wts })
     ∧ (∀ g sc (b : SReg) s u pa, Issues (syncIssue g [b.val] [] true [.core]) s u → InMemory u (u.me.s.getD b.val 0) 64 .read pa → pa < 2 ^ 40 →
       homeReady u (pa / 64) = true →
       ∃ t, exec (.mon g sc b) s = .next (goesOn s t)
         ∧ t.me = { u.me with tck := max u.me.tck (timesOf u (pa / 64)).wts, mon := some (pa / 64, (timesOf u (pa / 64)).wts), monN := (timesOf u (pa / 64)).n })
     ∧ (∀ g s u, Issues (syncIssue g [] [] false []) s u →
       (u.me.mon = none → exec (.mwait g) s = .next (goesOn s u))
       ∧ (∀ ln wm, u.me.mon = some (ln, wm) → (timesOf u ln).n ≠ u.me.monN →
           exec (.mwait g) s = .next (goesOn s (updMe (raiseClock u (timesOf u ln).wts) (fun m => { m with mon := none }))))
       ∧ (∀ ln wm, u.me.mon = some (ln, wm) → (timesOf u ln).n = u.me.monN → s.live = true →
           exec (.mwait g) s = .next (updMe u (fun m => { m with wait := .mwait, wnext := u.nextPc, pre := some (snapshot s) }))))
     ∧ (∀ s ln wm, s.boot.recovery = false → s.live = true → s.me.seat ≠ .none → s.me.dead = false → s.me.wait = .mwait → s.me.mon = some (ln, wm) →
       (timesOf s ln).n ≠ s.me.monN →
       ∃ t, exec (.mwaitWake s.me.key) s = .next t ∧ t.me.pc = s.me.wnext ∧ t.me.mon = none ∧ t.me.wait = .none ∧ t.me.tck = max s.me.tck (timesOf s ln).wts))

/-- R273 to R275, R281, R282: FENCE waits for the acknowledgements of its scope and raises the clock to the store horizon, FENCE.S raises the floor alone; FENCE.X lays an
obligation on the next work of its path; CLKMAX merges a clock of this era, of the one before less 2^46, or of an older one as 0, bounded; RDTCK reads era and clock. -/
def Obligations.FencesAndClocks : Prop :=
  (∀ g sc s u, Issues (syncIssue g [] [] true []) s u → acked u sc = true →
      exec (.fence g sc) s = .next (goesOn s { u with me := { u.me with tck := max u.me.tck u.me.h } })
      ∧ exec (.fenceS g sc) s = .next (goesOn s { u with me := { u.me with sf := max u.me.sf u.me.h } }))
    ∧ (∀ g sc s u, Issues (syncIssue g [] [] true []) s u → acked u sc = false →
      exec (.fence g sc) s = .next { s with me := { s.me with wait := .retry } } ∧ exec (.fenceS g sc) s = .next { s with me := { s.me with wait := .retry } })
    ∧ (∀ g sc k1 k2 s u, Issues (syncIssue g [] [] true []) s u →
      ∃ f, exec (.fenceX g sc k1 k2) s = .next (goesOn s { u with me := { u.me with fencex := u.me.fencex ++ [f] } }) ∧ f.k1 = k1 ∧ f.k2 = k2
        ∧ (k1 = .core → k2 ≠ .bank → ∀ p ∈ u.me.posted, p.far = false → p.id ∈ f.work)
        ∧ (k1 = .bank → ∀ c ∈ u.bank, c.key = u.me.key → c.id ∈ f.work)
        ∧ (k1 = .copy → ∀ e ∈ u.cores, ∀ c ∈ e.2.copies, c.key = u.me.key → c.id ∈ f.work)
        ∧ (k1 = .matrix → ∀ e ∈ u.cores, ∀ c ∈ e.2.matq, c.key = u.me.key → c.id ∈ f.work))
    ∧ (∀ g (a : SReg) s u, Issues (syncIssue g [a.val] [] true []) s u →
      (let e := (u.me.s.getD a.val 0).toNat / 2 ^ 48
       let c := (u.me.s.getD a.val 0).toNat % 2 ^ 48
       let v := if e = u.era % 2 ^ 16 then c else if (e + 1) % 2 ^ 16 = u.era % 2 ^ 16 then c - 2 ^ 46 else 0
       exec (.clkmax g a) s = .next (goesOn s { u with me := { u.me with tck := max u.me.tck (min v (5 * 2 ^ 45)) } })))
    ∧ (∀ g (a : SReg) s u, Issues (syncIssue g [] [a.val] true []) s u →
      exec (.rdtck g a) s = .next (goesOn s (setSreg u a.val (BitVec.ofNat 64 (u.era % 2 ^ 16 * 2 ^ 48 + u.me.tck % 2 ^ 48)))))

/-! ### Streams -/

/-- R306, R310, R311, R325 to R328: SDEF fills the lowest free context and returns its handle, or 0 when the quota or the contexts are used up; SBIND binds a defined
stream to a register; SGO is a release, then the stream runs from the strand's clock; a word that is no handle raises STREAM with code 0x13.
R311, R320, R329 to R332: SSTAT reads a doubleword of the context; SRECALL of a stream that is home goes on, of one that runs marks it and waits; SWAIT goes on once the
stream has stopped; SFREE frees a context that does not run and keeps its serial number; a recalled context whose held stores are performed arrives with STATE 6 and its
element index, and one that has failed with STATE 8. That a waiting SWAIT goes by what it was told as its stream stopped, whatever has become of the context since, is the model's
reading (log entry 110). -/
def Obligations.StreamInstructions : Prop :=
  ((∀ g (a b : SReg) s u o, Issues (engineIssue g [b.val] [a.val] [.core]) s u → (u.me.s.getD b.val 0).toNat = 2 ^ 64 - 2 ^ 18 + o → o % 32 = 0 → o + 96 ≤ 2 ^ 18 →
      checkSpad u u.me.core u.me.did o 96 = none → spadBusy u u.me.core o 96 u.me.did = false → poisonedAt u (spadKey u.me.core o) 96 = false →
      recOk (memVal u.mem (spadKey u.me.core o) 96) = true →
      (let used := ((coreOf u u.me.core).ctxs.filter (fun e => e.2.state != 0 && e.2.did == u.me.did)).length
       (∀ x < 64, (ctxOf u u.me.core x).state = 0 → (∀ y < x, (ctxOf u u.me.core y).state ≠ 0) → used < (domCore u u.me.core u.me.did).strq →
          ∃ t, exec (.sdef g a b) s = .next (goesOn s t)
            ∧ t.me.s.getD a.val 0 = BitVec.ofNat 64 (2 ^ 63 + ((ctxOf u u.me.core x).ser + 1) % 2 ^ 16 * 2 ^ 18 + u.me.core * 2 ^ 6 + x)
            ∧ (ctxOf t u.me.core x).state = 1 ∧ (ctxOf t u.me.core x).did = u.me.did ∧ (ctxOf t u.me.core x).owner = u.me.sid
            ∧ (ctxOf t u.me.core x).ser = ((ctxOf u u.me.core x).ser + 1) % 2 ^ 16 ∧ (ctxOf t u.me.core x).eidx = 0
            ∧ (ctxOf t u.me.core x).srec = parseRec (memVal u.mem (spadKey u.me.core o) 96) ∧ (ctxOf t u.me.core x).rnd = u.me.rnd
            ∧ (∀ y, y ≠ x → ctxOf t u.me.core y = ctxOf u u.me.core y) ∧ t.mem = u.mem)
        ∧ ((domCore u u.me.core u.me.did).strq ≤ used → exec (.sdef g a b) s = .next (goesOn s (setSreg u a.val 0)))
        ∧ ((∀ x < 64, (ctxOf u u.me.core x).state ≠ 0) → exec (.sdef g a b) s = .next (goesOn s (setSreg u a.val 0)))))
    ∧ (∀ g (a : ZReg) (b : SReg) s u x, Issues (engineIssue g [b.val] [] [.stream]) s u → Names u (u.me.s.getD b.val 0) x →
      ((ctxOf u u.me.core x).state = 1 → u.me.z.getD a.val none = none → (ctxOf u u.me.core x).srec.sink = 0 →
          ((ctxOf u u.me.core x).srec.write = true ∨ (ctxOf u u.me.core x).srec.fpol ≠ 2) →
          ∃ t, exec (.sbind g a b) s = .next (goesOn s t) ∧ t.me.z.getD a.val none = some x ∧ (ctxOf t u.me.core x).state = 2 ∧ (ctxOf t u.me.core x).zreg = a.val
            ∧ (ctxOf t u.me.core x).owner = u.me.sid ∧ (ctxOf t u.me.core x).tstart = max u.me.tck (kget u.me.floors 3 0) ∧ (ctxOf t u.me.core x).era = u.era
            ∧ t.mem = u.mem ∧ t.me.tck = u.me.tck ∧ t.me.s = u.me.s)
        ∧ ((ctxOf u u.me.core x).state ≠ 1 ∨ u.me.z.getD a.val none ≠ none →
          exec (.sbind g a b) s = .next (takeTrap s s.me.pc .stream false (BitVec.ofNat 64 (a.val + 0x1500)))))
    ∧ (∀ g (b : SReg) s u x, Issues (engineIssue g [b.val] [] [.stream]) s u → Names u (u.me.s.getD b.val 0) x →
      ((ctxOf u u.me.core x).state = 1 ∨ (ctxOf u u.me.core x).state = 6) → (ctxOf u u.me.core x).srec.write = false → (ctxOf u u.me.core x).srec.op ≠ 0 →
      (ctxOf u u.me.core x).srec.sink ≠ 2 → (ctxOf u u.me.core x).srec.cword = 0 → (ctxOf u u.me.core x).recalled = false →
      (ctxOf u u.me.core x).eidx < streamLen (ctxOf u u.me.core x).srec →
      (acked u .sys = true → ∃ t, exec (.sgo g b) s = .next (goesOn s t) ∧ t.me.tck = max u.me.tck u.me.h ∧ (ctxOf t u.me.core x).state = 3
          ∧ (ctxOf t u.me.core x).loc = u.me.core ∧ (ctxOf t u.me.core x).lock = 0 ∧ (ctxOf t u.me.core x).tstart = max (max u.me.tck u.me.h) (kget u.me.floors 3 0)
          ∧ (ctxOf t u.me.core x).eidx = (ctxOf u u.me.core x).eidx ∧ t.mem = u.mem ∧ t.me.s = u.me.s)
        ∧ (acked u .sys = false → exec (.sgo g b) s = .next { s with me := { s.me with wait := .retry } }))
    ∧ (∀ g (a : ZReg) (c b : SReg) s u, (u.me.s.getD b.val 0).toNat < 2 ^ 63 →
      (Issues (engineIssue g [b.val] [] [.stream]) s u →
          exec (.sbind g a b) s = .next (takeTrap s s.me.pc .stream false 0x1300) ∧ exec (.sgo g b) s = .next (takeTrap s s.me.pc .stream false 0x1300))
        ∧ (Issues (engineIssue g [b.val] [] []) s u →
          exec (.srecall g b) s = .next (takeTrap s s.me.pc .stream false 0x1300) ∧ exec (.swait g b) s = .next (takeTrap s s.me.pc .stream false 0x1300)
            ∧ exec (.sfree g b) s = .next (takeTrap s s.me.pc .stream false 0x1300))
        ∧ (Issues (engineIssue g [b.val, c.val] [c.val] []) s u → exec (.sstat g c b) s = .next (takeTrap s s.me.pc .stream false 0x1300))))
  ∧ ((∀ g (a b : SReg) s u x, Issues (engineIssue g [b.val, a.val] [a.val] []) s u → Names u (u.me.s.getD b.val 0) x →
      ∃ t v, exec (.sstat g a b) s = .next (goesOn s (setSreg t a.val (BitVec.ofNat 64 v)))
        ∧ t.me = { u.me with tck := if (ctxOf u u.me.core x).state = 7 then max u.me.tck (ctxOf u u.me.core x).tc else u.me.tck }
        ∧ t = { u with me := t.me }
        ∧ ((u.me.s.getD a.val 0).toNat % 8 = 0 → v = (ctxOf u u.me.core x).state + (ctxOf u u.me.core x).lock * 2 ^ 4 + (ctxOf u u.me.core x).loc * 2 ^ 8
            + (ctxOf u u.me.core x).did * 2 ^ 24 + (ctxOf u u.me.core x).owner * 2 ^ 32)
        ∧ ((u.me.s.getD a.val 0).toNat % 8 = 1 → v = (ctxOf u u.me.core x).eidx)
        ∧ ((u.me.s.getD a.val 0).toNat % 8 = 6 → v = (ctxOf u u.me.core x).part)
        ∧ ((u.me.s.getD a.val 0).toNat % 8 = 7 → v = (ctxOf u u.me.core x).tstart + (ctxOf u u.me.core x).era * 2 ^ 48))
    ∧ (∀ g (b : SReg) s u x, Issues (engineIssue g [b.val] [] []) s u → Names u (u.me.s.getD b.val 0) x →
      (let t := ctxOf u u.me.core x
       (t.state = 6 → exec (.srecall g b) s = .next (goesOn s { u with me := { u.me with tck := max u.me.tck t.clk } }) ∧ exec (.swait g b) s = .next (goesOn s u))
        ∧ (t.state = 7 → exec (.srecall g b) s = .next (goesOn s { u with me := { u.me with tck := max u.me.tck t.tc } })
            ∧ exec (.swait g b) s = .next (goesOn s { u with me := { u.me with tck := max u.me.tck t.tc } }))
        ∧ (t.state = 8 → exec (.srecall g b) s = .next (goesOn s u) ∧ exec (.swait g b) s = .next (takeTrap s s.me.pc .stream false 0x1600))
        ∧ (t.state = 1 → exec (.srecall g b) s = .next (goesOn s u) ∧ exec (.swait g b) s = .next (takeTrap s s.me.pc .stream false 0x1500))
        ∧ (t.state = 2 → exec (.srecall g b) s = .next (takeTrap s s.me.pc .stream false 0x1500) ∧ exec (.swait g b) s = .next (takeTrap s s.me.pc .stream false 0x1500))
        ∧ (t.state = 3 ∨ t.state = 4 ∨ t.state = 5 → s.live = true →
            (∃ r, exec (.srecall g b) s = .next r ∧ (ctxOf r u.me.core x).recalled = true ∧ r.me = { u.me with wait := .retry, pre := some (snapshot s) })
            ∧ (∃ r, exec (.sfree g b) s = .next r ∧ (ctxOf r u.me.core x).recalled = true ∧ r.me = { u.me with wait := .retry, pre := some (snapshot s) })
            ∧ (∃ r, exec (.swait g b) s = .next r
                ∧ r.me = { u.me with wait := .swait, wnext := u.nextPc, wkey := 0, wval := (u.me.s.getD b.val 0).toNat, pre := some (snapshot s) }))
        ∧ (t.state = 1 ∨ t.state = 7 ∨ t.state = 8 ∨ (t.state = 6 ∧ streamLen t.srec ≤ t.eidx) →
            ∃ r, exec (.sfree g b) s = .next (goesOn s r) ∧ (ctxOf r u.me.core x).state = 0 ∧ (ctxOf r u.me.core x).ser = t.ser ∧ r.me = u.me
              ∧ (∀ y, y ≠ x → ctxOf r u.me.core y = ctxOf u u.me.core y) ∧ r.mem = u.mem)))
    ∧ (∀ s, Waits s .swait →
      (s.me.wkey = 6 → ∃ t, exec (.swaitWake s.me.key) s = .next t ∧ t.me.pc = s.me.wnext ∧ t.me.wait = .none ∧ t.me.tck = s.me.tck)
        ∧ (s.me.wkey = 7 → ∃ t, exec (.swaitWake s.me.key) s = .next t ∧ t.me.pc = s.me.wnext ∧ t.me.wait = .none ∧ t.me.tck = max s.me.tck s.me.wtc)
        ∧ (s.me.wkey = 8 → exec (.swaitWake s.me.key) s = .next (takeTrap s s.me.pc .stream false 0x1600))
        ∧ (s.me.wkey < 6 → exec (.swaitWake s.me.key) s = .next s))
    ∧ (∀ s c x st, s.live = true → s.me.wait = .swait → s.me.core = c → s.me.wval = 2 ^ 63 + (ctxOf s c x).ser * 2 ^ 18 + c * 2 ^ 6 + x →
      (ctxHome s c x st).me = { s.me with wkey := st, wtc := (ctxOf s c x).tc })
    ∧ (∀ s c x, s.boot.recovery = false → (ctxOf s c x).recalled = true → ((ctxOf s c x).state = 3 ∨ (ctxOf s c x).state = 4 ∨ (ctxOf s c x).state = 5) →
      (holding s c x = true → exec (.streamRecallArrive c x) s = .next s)
      ∧ (holding s c x = false → (ctxOf s c x).fcode ≠ 0 → (ctxOf s c x).srec.cword = 0 → ownerLives s (ctxOf s c x) = true →
        ∃ t, exec (.streamRecallArrive c x) s = .next t ∧ (ctxOf t c x).state = 8 ∧ (ctxOf t c x).fcode = (ctxOf s c x).fcode
          ∧ (ctxOf t c x).fcause = (ctxOf s c x).fcause ∧ (ctxOf t c x).eidx = (ctxOf s c x).eidx ∧ t.mem = s.mem)
      ∧ (holding s c x = false → (ctxOf s c x).fcode = 0 →
        ∃ t, exec (.streamRecallArrive c x) s = .next t ∧ (ctxOf t c x).state = 6 ∧ (ctxOf t c x).lock = 0 ∧ (ctxOf t c x).loc = c ∧ (ctxOf t c x).recalled = false
        ∧ (ctxOf t c x).lastev = 4 ∧ (ctxOf t c x).eidx = (ctxOf s c x).eidx ∧ t.mem = s.mem ∧ t.me = { s.me with wkey := t.me.wkey, wtc := t.me.wtc })))

/-- R309, R314, R315, R318, R319: a detached stream that does not float reads its next element at the element's home and folds it into PART, and after its last element ends
with STATE 7; a coupled read stream reads an element ahead into its window; a coupled write stream writes its oldest push at a time above its last. -/
def Obligations.StreamsRun : Prop :=
  (∀ s c x fl pa, s.boot.recovery = false → (ctxOf s c x).state = 3 → (ctxOf s c x).lock = 0 → (ctxOf s c x).recalled = false → (ctxOf s c x).srec.fpol = 0 →
      (ctxOf s c x).eidx < streamLen (ctxOf s c x).srec → walkReady s (ctxHolder c (ctxOf s c x)) (ctxOf s c x).did (elemAddr (ctxOf s c x).srec (ctxOf s c x).eidx).toNat = true →
      elemCheck s c (ctxOf s c x) (ctxOf s c x).eidx .read = .ok pa → pa < 2 ^ 40 → homeReady s (pa / 64) = true →
      ∃ t, exec (.streamElement c x fl) s = .next t
        ∧ (let e := homeVal s pa (elemSize (ctxOf s c x).srec)
           let tl := max (ctxOf s c x).clk (timesOf s (pa / 64)).wts
           ctxOf t c x = { ctxOf s c x with
              eidx := (ctxOf s c x).eidx + 1
              part := foldElem (ctxOf s c x).srec (ctxOf s c x).rnd (ctxOf s c x).part e
              clk := tl
              tc := max (ctxOf s c x).tc tl }
            ∧ ((ctxOf s c x).srec.op = 1 → (ctxOf s c x).srec.esz = 3 → (ctxOf t c x).part = ((ctxOf s c x).part + e) % 2 ^ 64)
            ∧ ((ctxOf s c x).srec.op = 7 → (ctxOf s c x).srec.etype = 1 → (ctxOf t c x).part
                = if e % 2 ^ (8 * elemSize (ctxOf s c x).srec) = 0 then (ctxOf s c x).part else ((ctxOf s c x).part + 1) % 2 ^ 64)
            ∧ timesOf t (pa / 64) = ⟨(timesOf s (pa / 64)).wts, max (timesOf s (pa / 64)).rts (tl + leaseOf s (ctxOf s c x).did), (timesOf s (pa / 64)).n⟩))
    ∧ (∀ s c x fl, s.boot.recovery = false → ((ctxOf s c x).state = 3 ∨ (ctxOf s c x).state = 4) → (ctxOf s c x).recalled = false →
      locDead s ((ctxOf s c x).lock, (ctxOf s c x).loc) = false → streamLen (ctxOf s c x).srec ≤ (ctxOf s c x).eidx → (ctxOf s c x).srec.sink = 0 → (ctxOf s c x).srec.cword = 0 → bit (ctxOf s c x).srec.emask 2 = false →
      ownerLives s (ctxOf s c x) = true →
      ∃ t, exec (.streamElement c x fl) s = .next t ∧ (ctxOf t c x).state = 7 ∧ (ctxOf t c x).lastev = 3 ∧ (ctxOf t c x).loc = c ∧ (ctxOf t c x).part = (ctxOf s c x).part
        ∧ t.mem = s.mem)
    ∧ (∀ s c x pa o, s.boot.recovery = false → (ctxOf s c x).state = 2 → (ctxOf s c x).srec.write = false → (ctxOf s c x).window.length < 64 →
      (ctxOf s c x).eidx + (ctxOf s c x).window.length < streamLen (ctxOf s c x).srec →
      walkReady s (ctxHolder c (ctxOf s c x)) (ctxOf s c x).did (elemAddr (ctxOf s c x).srec ((ctxOf s c x).eidx + (ctxOf s c x).window.length)).toNat = true →
      elemCheck s c (ctxOf s c x) ((ctxOf s c x).eidx + (ctxOf s c x).window.length) .read = .ok pa → pa < 2 ^ 40 → homeReady s (pa / 64) = true →
      strandOf s (ctxOf s c x).okey = some o →
      ∃ t, exec (.streamWindowFill c x) s = .next t
        ∧ (let tl := max (ctxOf s c x).clk (timesOf s (pa / 64)).wts
           ctxOf t c x = { ctxOf s c x with
              window := (ctxOf s c x).window ++ [(overlayOwn o pa (elemSize (ctxOf s c x).srec) (homeVal s pa (elemSize (ctxOf s c x).srec)), tl, pa)]
              clk := tl }))
    ∧ (∀ s c x pa v rest, s.boot.recovery = false → (ctxOf s c x).pushes = v :: rest → (ctxOf s c x).recalled = false →
      walkReady s (ctxHolder c (ctxOf s c x)) (ctxOf s c x).did (elemAddr (ctxOf s c x).srec (ctxOf s c x).written).toNat = true →
      elemCheck s c (ctxOf s c x) (ctxOf s c x).written .write = .ok pa → pa < 2 ^ 40 → homeReady s (pa / 64) = true →
      pa % 64 + elemSize (ctxOf s c x).srec ≤ 64 → (homeLine s (pa / 64)).length = 64 → memOk s →
      ∃ t, exec (.streamPushWrite c x) s = .next t
        ∧ (let fl := ((strandOf s (ctxOf s c x).okey).map (fun o => kget o.floors 3 0)).getD 0
           let w := max (max (max (ctxOf s c x).clk fl + 1) ((ctxOf s c x).tstart + 1)) ((timesOf s (pa / 64)).rts + 1)
           homeVal t pa (elemSize (ctxOf s c x).srec) = v % 256 ^ elemSize (ctxOf s c x).srec ∧ timesOf t (pa / 64) = ⟨w, w, (timesOf s (pa / 64)).n + 1⟩
            ∧ ctxOf t c x = { ctxOf s c x with
                pushes := rest
                written := (ctxOf s c x).written + 1
                clk := w
                tc := max (ctxOf s c x).tc w }))

/-! ### Copies -/

/-- R352, R354, R356: a copy command whose checks pass joins its core's engine with the record, the descriptor and a start time at or above the clock, its token register
pending, the strand going on; at 4 commands of the strand or 16 of the core it waits. TSTAT reads a pending token as 0. TPREF posts a prefetch for every line of the box. R343 to R345: TSEAL of a record of the right form sends a store of its first 16 bytes, with its generation raised and the CRC that seals it. -/
def Obligations.CopyCommands : Prop :=
  (EachCopy (fun mk kind => ∀ g (a b c : SReg) s u v r d w, Issues (engineIssue g [b.val, c.val] [a.val] [.core, .copy]) s u →
       CopyReady u (some kind) (u.me.s.getD c.val 0) (u.me.s.getD b.val 0) v r d w →
       (((coreOf u u.me.core).copies.filter (fun k => k.key == u.me.key)).length < 4 → (coreOf u u.me.core).copies.length < 16 →
         ∃ t k, exec (mk g a b c) s = .next (goesOn s t) ∧ (coreOf t u.me.core).copies = (coreOf u u.me.core).copies ++ [k]
           ∧ k.kind = kind ∧ k.tok = a.val ∧ k.key = u.me.key ∧ k.did = u.me.did ∧ k.rp = u.me.s.getD b.val 0 ∧ k.shape = r ∧ k.box = d ∧ k.next = 0 ∧ k.bytes = 0 ∧ k.served = 0
           ∧ k.bar = (if bxBar d = 0 then none else some (BitVec.ofNat 64 (bxBar d))) ∧ k.recv = (if kind = .multi then receivers u.me.core (bxMask d) else [])
           ∧ k.fail = none ∧ k.ts = max (max u.me.tck w) (kget u.me.floors 1 0) ∧ k.clk = k.ts ∧ k.tc = k.ts
           ∧ a.val ∈ t.me.pend ∧ t.me.tck = max u.me.tck w ∧ t.me.s = u.me.s ∧ t.mem = u.mem)
       ∧ (4 ≤ ((coreOf u u.me.core).copies.filter (fun k => k.key == u.me.key)).length ∨ 16 ≤ (coreOf u u.me.core).copies.length →
         exec (mk g a b c) s = .next { s with me := { s.me with wait := .retry } }))
     ∧ (∀ g (a b : SReg) s u, Issues { engineIssue g [b.val] [a.val] [] with noTok := [a.val, b.val] } s u →
       exec (.tstat g a b) s = .next (goesOn s (setSreg u a.val (if u.me.pend.contains b.val then 0 else u.me.s.getD b.val 0))))
     ∧ (∀ g (b : SReg) s u v r d w, Issues (engineIssue g [b.val] [] [.core, .copy]) s u → CopyReady u none (u.me.s.getD b.val 0) (BitVec.ofNat 64 (bxAddr d)) v r d w →
       ∃ t, exec (.tpref g b) s = .next (goesOn s t) ∧ t = { v with prefq := t.prefq } ∧ (∀ q ∈ t.prefq, q ∈ v.prefq ∨ q.2 = (u.me.did, holderOf u.me))
         ∧ ∀ n < boxLen d, ∀ va pa, boxElem r d n = some va → checkVa v v.me.core u.me.did (64 * (va / 64)) .read false = .ok pa →
             inL2 v (pa / 64) = true ∨ (pa / 64) ∈ t.prefq.map Prod.fst))
    ∧ (∀ g (b : SReg) s u pa, Issues (engineIssue g [b.val] [] [.core]) s u → (u.me.s.getD b.val 0).toNat % 128 = 0 → (u.me.s.getD b.val 0).toNat < 2 ^ 56 →
     stalls u (u.me.s.getD b.val 0) = false →
     checkVa u u.me.core u.me.did (u.me.s.getD b.val 0).toNat .both false = .ok pa → pa % 128 = 0 → homeReady u (pa / 64) = true → homeReady u (pa / 64 + 1) = true →
     heldBy u (u.me.s.getD b.val 0).toNat 16 = [] → poisonedAt u pa 64 = false → poisonedAt u (pa + 64) 64 = false → u.me.posted = [] →
     l1Find u u.me.core u.me.did (pa / 64) = none → l1Find u u.me.core u.me.did (pa / 64 + 1) = none →
     (homeLine u (pa / 64)).length = 64 → (homeLine u (pa / 64 + 1)).length = 64 → L2Agrees u →
     (let r := leVal (homeLine u (pa / 64)) + leVal (homeLine u (pa / 64 + 1)) * 2 ^ 512
      (shMagic r = true → shForm r = true →
         ∃ t p r', exec (.tseal g b) s = .next (goesOn s t) ∧ t.me.posted = [p] ∧ p.op = .store ∧ p.key = pa ∧ p.n = 16 ∧ p.val = r' % 2 ^ 128 ∧ sealed r' = true
           ∧ bits r' 95 64 = (bits r 95 64 + 1) % 2 ^ 32 ∧ bits r' 31 0 = bits r 31 0 ∧ bits r' 1023 96 = bits r 1023 96 ∧ t.mem = u.mem)
       ∧ (shMagic r = false ∨ shForm r = false → exec (.tseal g b) s = .next (takeTrap s s.me.pc .seal false (u.me.s.getD b.val 0)))))

/-- R347 to R349, R352, R354, R355, R357 to R359: a burst moves the elements of one line, of every kind of copy: memory to the local side, each byte through the swizzle and at each
receiver, in the rotation among the strands that have a burst to move, whose turn then passes; the local side to memory, or as a reduction there, one store time after another; an element outside the tensor is filled with FILL's value, or skipped. A fault of the access or poison stops the
command. Where later elements overlap earlier ones, the later prevail. At its end, unless a drain window or an interval parks it, the bytes leave its barrier, for each receiver of a TCOPYM; then each receiver's receipt is posted, with the
completion time; then the token register gets count and status and carries the completion time. That this time is at least that of the step on the barrier (log
entry 31), and where a strand enters the rotation (log entry 108), are the model's choices. -/
def Obligations.CopyEngine : Prop :=
  (∀ s c id k va pa, Copying s c id k → copyReads k.kind = true → slotStale s c k = false → boxElem k.shape k.box k.next = some va →
      checkVa s c k.did va .read false = .ok pa → pa < 2 ^ 40 → homeReady s (pa / 64) = true → poisonedAt s pa (fmtSize (shFmt k.shape)) = false → memOk s →
      ∃ t, exec (.copyBurst c id) s = .next t
        ∧ (let es := fmtSize (shFmt k.shape)
           let m := (burstRun k.shape k.box (some (va / 64)) 64 k.next).length
           let tl := max k.clk (timesOf s (pa / 64)).wts
           1 ≤ m ∧ m ≤ 64
            ∧ (∀ i < m, k.next + i < boxLen k.box ∧ (boxElem k.shape k.box (k.next + i)).map (· / 64) = some (va / 64))
            ∧ (coreOf t c).copies.find? (fun x => x.id == id) = some { k with
                next := k.next + m
                clk := tl
                tc := max k.tc tl
                bytes := k.bytes + m * es * (if k.kind = .multi then k.recv.length else 1) }
            ∧ (∀ i < m, ∀ j < es, ∀ x, boxElem k.shape k.box (k.next + i) = some x → ∀ a ∈ localKeys c k ((k.next + i) * es + j),
                (∀ i' < m, ∀ j' < es, i * es + j < i' * es + j' → a ∉ localKeys c k ((k.next + i') * es + j')) →
                memGet t.mem a = BitVec.ofNat 8 (bits (homeVal s (pa / 64 * 64) 64) (8 * (x % 64) + 8 * es - 1) (8 * (x % 64)) / 256 ^ j))
            ∧ (∀ a, (∀ i < m, ∀ j < es, a ∉ localKeys c k ((k.next + i) * es + j)) → memGet t.mem a = memGet s.mem a)))
    ∧ (∀ s c id k, Copying s c id k → slotStale s c k = false → boxElem k.shape k.box k.next = none → memOk s →
      ∃ t, exec (.copyBurst c id) s = .next t
        ∧ (let es := fmtSize (shFmt k.shape)
           let m := (burstRun k.shape k.box none 64 k.next).length
           1 ≤ m ∧ (∀ i < m, boxElem k.shape k.box (k.next + i) = none)
            ∧ (copyReads k.kind = false → t.mem = s.mem ∧ (coreOf t c).copies.find? (fun x => x.id == id) = some { k with next := k.next + m })
            ∧ (copyReads k.kind = true →
              (coreOf t c).copies.find? (fun x => x.id == id) = some { k with
                  next := k.next + m
                  bytes := k.bytes + m * es * (if k.kind = .multi then k.recv.length else 1) }
              ∧ (∀ i < m, ∀ j < es, ∀ a ∈ localKeys c k ((k.next + i) * es + j),
                  (∀ i' < m, ∀ j' < es, i * es + j < i' * es + j' → a ∉ localKeys c k ((k.next + i') * es + j')) →
                  memGet t.mem a = BitVec.ofNat 8 (fillVal k.shape / 256 ^ j))
              ∧ (∀ a, (∀ i < m, ∀ j < es, a ∉ localKeys c k ((k.next + i) * es + j)) → memGet t.mem a = memGet s.mem a))))
    ∧ (∀ s c id k va pa, Copying s c id k → copyReads k.kind = false → boxElem k.shape k.box k.next = some va →
      checkVa s c k.did va .write false = .ok pa → pa < 2 ^ 40 → pa % 64 = va % 64 → homeReady s (pa / 64) = true → (homeLine s (pa / 64)).length = 64 → memOk s →
      (∀ n ∈ burstRun k.shape k.box (some (va / 64)) 64 k.next, (∀ b ∈ localBytes c k (fmtSize (shFmt k.shape)) n, poisonedAt s b 1 = false)
        ∧ ∀ x, boxElem k.shape k.box n = some x → x % 64 + fmtSize (shFmt k.shape) ≤ 64) →
      (k.kind ≠ .mem → poisonedAt s pa (fmtSize (shFmt k.shape)) = false) →
      ∃ t, exec (.copyBurst c id) s = .next t
        ∧ (let es := fmtSize (shFmt k.shape)
           let run := burstRun k.shape k.box (some (va / 64)) 64 k.next
           let w := max (max (k.clk + 1) (k.ts + 1)) ((timesOf s (pa / 64)).rts + 1) + (run.length - 1)
           timesOf t (pa / 64) = ⟨w, w, (timesOf s (pa / 64)).n + run.length⟩
            ∧ (coreOf t c).copies.find? (fun x => x.id == id) = some { k with
                next := k.next + run.length
                clk := w
                tc := max k.tc w
                bytes := k.bytes + run.length * es }
            ∧ (∀ n ∈ run, ∀ x, boxElem k.shape k.box n = some x →
              (k.kind = .mem → (∀ n' ∈ run, n < n' → ∀ y, boxElem k.shape k.box n' = some y → y + es ≤ x ∨ x + es ≤ y) →
                homeVal t (pa / 64 * 64 + x % 64) es = leVal ((localBytes c k es n).map (memGet s.mem)))
              ∧ (∀ op, k.kind = .tred op → (∀ n' ∈ run, n' ≠ n → ∀ y, boxElem k.shape k.box n' = some y → y + es ≤ x ∨ x + es ≤ y) →
                homeVal t (pa / 64 * 64 + x % 64) es
                  = tredApply op (shFmt k.shape) (homeVal s (pa / 64 * 64 + x % 64) es) (leVal ((localBytes c k es n).map (memGet s.mem))) % 256 ^ es))))
    ∧ (∀ s c id k, s.boot.recovery = false → (coreOf s c).copies.find? (fun x => x.id == id) = some k →
      (burstWaits s c k = true ∨ copyDue s c ≠ some k.key → exec (.copyBurst c id) s = .next s)
      ∧ (burstWaits s c k = false → copyDue s c = some k.key → ∃ t, exec (.copyBurst c id) s = .next t ∧ (coreOf t c).copyTurn.getLast? = some k.key
        ∧ ∀ x ∈ (coreOf s c).copies, x.key ≠ k.key → x.key ∈ (coreOf t c).copyTurn.dropLast))
    ∧ (∀ s c id k va, Copying s c id k → slotStale s c k = false → boxElem k.shape k.box k.next = some va →
      (∀ e v, checkVa s c k.did va (if copyReads k.kind then .read else .write) false = .error (e, v) →
        ∃ t, exec (.copyBurst c id) s = .next t ∧ (coreOf t c).copies.find? (fun x => x.id == id) = some { k with fail := some e } ∧ t.mem = s.mem)
      ∧ (∀ pa, checkVa s c k.did va (if copyReads k.kind then .read else .write) false = .ok pa → homeReady s (pa / 64) = true →
        (copyReads k.kind = true ∧ poisonedAt s pa (fmtSize (shFmt k.shape)) = true
          ∨ copyReads k.kind = false ∧ (∃ b ∈ localBytes c k (fmtSize (shFmt k.shape)) k.next, poisonedAt s b 1 = true)) →
        ∃ t, exec (.copyBurst c id) s = .next t ∧ (coreOf t c).copies.find? (fun x => x.id == id) = some { k with fail := some .poison }))
    ∧ (∀ s c id k, s.boot.recovery = false → (coreOf s c).copies.find? (fun x => x.id == id) = some k → (k.fail.isSome = true ∨ boxLen k.box ≤ k.next) →
      k.parked = false → calState s.gtc = 0 → barReady s c k = true →
      (∀ b pa, k.served < k.recv.length → k.bar = some b → checkVa s c k.did b.toNat .write false = .ok pa → pa < 2 ^ 40 → pa % 64 + 32 ≤ 64 →
        (homeLine s (pa / 64)).length = 64 → memOk s →
        ∃ t, exec (.copyCompletion c id) s = .next t
          ∧ (let w := max (max (k.clk + 1) (k.ts + 1)) ((timesOf s (pa / 64)).rts + 1)
             timesOf t (pa / 64) = ⟨w, w, (timesOf s (pa / 64)).n + 1⟩
              ∧ (coreOf t c).copies.find? (fun x => x.id == id) = some { k with
                  clk := w
                  tc := max k.tc w
                  served := k.served + 1 })
          ∧ homeVal t pa 32 = barrierTest (setBits (homeVal s pa 32) 183 128 (bits (homeVal s pa 32) 183 128 + 2 ^ 56 - k.bytes / k.recv.length % 2 ^ 56)) % 256 ^ 32)
      ∧ (∀ r, barSteps k ≤ k.served → k.recv[k.served - barSteps k]? = some r → 0 < (domCore s r k.did).mbox → (kget (coreOf s r).held k.did []) = [] →
        (kget (coreOf s r).mbox k.did []).length < (domCore s r k.did).mbox →
        ∃ t m, exec (.copyCompletion c id) s = .next t
          ∧ kget (coreOf t r).mbox k.did [] = kget (coreOf s r).mbox k.did [] ++ [m]
          ∧ m.kind = 3 ∧ m.src = c ∧ m.sid = k.sid ∧ m.time = k.tc
          ∧ (let n := k.bytes / k.recv.length
             m.payload = k.rp.toNat + (match k.fail with
              | none => n * 2 ^ 24 + 1
              | some e => n * 2 ^ 24 + causeCode e * 2 ^ 8 + 2) % 2 ^ 64 * 2 ^ 64)
          ∧ (coreOf t c).copies.find? (fun x => x.id == id) = some { k with served := k.served + 1 } ∧ t.mem = s.mem)
      ∧ (barSteps k + k.recv.length ≤ k.served → k.tok < 64 → (∀ e ∈ s.cores, ∀ h ∈ e.2.held, ∀ m ∈ h.2, m.origin ≠ some (2 ^ 32 + id)) →
        ∀ o, strandOf s k.key = some o → o.area = none → (∀ p ∈ s.packets, p.1.key ≠ k.key) →
        ((k.bar = none ∨ k.recv ≠ []) → ∃ t o', exec (.copyCompletion c id) s = .next t ∧ strandOf t k.key = some o' ∧ k.tok ∉ o'.pend ∧ kget? o'.tc k.tok = some k.tc
          ∧ (coreOf t c).copies = (coreOf s c).copies.filter (fun x => x.id != id)
          ∧ o'.s.getD k.tok 0 = BitVec.ofNat 64 (match k.fail with
              | none => k.bytes * 2 ^ 24 + 1
              | some e => k.bytes * 2 ^ 24 + causeCode e * 2 ^ 8 + 2)
          ∧ t.mem = s.mem)
        ∧ (∀ b pa, k.bar = some b → k.recv = [] → checkVa s c k.did b.toNat .write false = .ok pa → pa < 2 ^ 40 → pa % 64 + 32 ≤ 64 →
          (homeLine s (pa / 64)).length = 64 → memOk s →
          ∃ t o', exec (.copyCompletion c id) s = .next t ∧ strandOf t k.key = some o' ∧ k.tok ∉ o'.pend
            ∧ o'.s.getD k.tok 0 = BitVec.ofNat 64 (match k.fail with
                | none => k.bytes * 2 ^ 24 + 1
                | some e => k.bytes * 2 ^ 24 + causeCode e * 2 ^ 8 + 2)
            ∧ (let w := max (max (k.clk + 1) (k.ts + 1)) ((timesOf s (pa / 64)).rts + 1)
               timesOf t (pa / 64) = ⟨w, w, (timesOf s (pa / 64)).n + 1⟩ ∧ kget? o'.tc k.tok = some (max k.tc w))
            ∧ homeVal t pa 32 = barrierTest (setBits (homeVal s pa 32) 183 128 (bits (homeVal s pa 32) 183 128 + 2 ^ 56 - k.bytes % 2 ^ 56)) % 256 ^ 32)))

/-- R242, R251, R280: the oldest posted prefetch brings its line into its set range, no value at any home changing; a write-back that reaches the arrays puts its 64 bytes there
and leaves its queue. -/
def Obligations.LinesMove : Prop :=
  (∀ s ln d h rest, s.boot.recovery = false → s.prefq = (ln, d, h) :: rest →
      (inL2 s ln = true → exec .prefetchFill s = .next { s with prefq := rest })
      ∧ (inL2 s ln = false → homeReady s ln = true →
        ∃ t, exec .prefetchFill s = .next t ∧ t.prefq = rest ∧ t.mem = s.mem ∧ t.me = s.me ∧ (L2Agrees s → ∀ l, homeLine t l = homeLine s l)
          ∧ (∀ r, 64 * ln < 2 ^ 40 → hostBias s (64 * ln) = false → rangeOf s (64 * ln) = some r → bit (kget s.sets (sliceOf (64 * ln) * 32 + r) 0) 31 = true →
              s.health.deadSl.contains (sliceOf (64 * ln)) = false → inL2 t ln = true)))
    ∧ (∀ s w, s.boot.recovery = false → s.wq.find? (fun x => x.line == w.line) = some w → s.wq.find? (fun x => x.id == w.id) = some w → w.data.length = 64 → memOk s →
      ∃ t, exec (.writebackReachesArrays w.line) s = .next t ∧ memBytes t.mem (64 * w.line) 64 = w.data ∧ t.wq = s.wq.filter (fun x => x.id != w.id)
        ∧ (∀ k, k < 64 * w.line ∨ 64 * w.line + 64 ≤ k → memGet t.mem k = memGet s.mem k) ∧ t = { s with mem := t.mem, wq := t.wq, fresh := s.fresh + 1, doms := t.doms })

/-! ### The matrix engine -/

/-- R153, R367, R370 to R377, R384, R385: each matrix instruction on slots and accumulators its DID claims queues its command; MMA also stops its strand; a claim is taken by the
DID's masks and given up at once, storage that has been found bad meanwhile being zeroed first (R442); without the claim each of them, its other checks passing, raises MATRIX
with reason 1. R386: MSTAT reads, for the strand's DID and core, the claimed slots and accumulators, its commands not yet completed, and the poisoned ones of its own that no zeroing of
a claim that has ended still clears. That an MSTC waits at issue for the commands before it that write its accumulator, and how MSTC and MSTAT treat queued zeroings, is the
model's choice (log entry 35). -/
def Obligations.MatrixCommands : Prop :=
  ((∀ g (a : CAcc) s u, Issues (matIssue g [] [] [] false) s u → claimOf u (16 + a.val) = some u.me.did → Sends (.mzero g a) s u (.mzero a.val))
     ∧ (∀ g (a : MSlot) (b c : SReg) s u o, Issues (matIssue g [b.val, c.val] [] [] true) s u → claimOf u a.val = some u.me.did →
       (u.me.s.getD b.val 0).toNat = 2 ^ 64 - 2 ^ 18 + o → o % 64 = 0 →
       (let d := (u.me.s.getD c.val 0).toNat
        let len := d % 2 ^ 14
        let off := d / 2 ^ 16
        d / 2 ^ 14 % 4 = 0 → len ≠ 0 → len % 64 = 0 → off % 64 = 0 → off + len ≤ 8192 → o + len ≤ 2 ^ 18 → checkSpad u u.me.core u.me.did o len = none →
        Sends (.mfill g a b c) s u (.mfill a.val o off len)))
     ∧ (∀ g (a : MSlot) (b : VReg) s u, Issues (matIssue g [] [] [b.val] true) s u → claimOf u a.val = some u.me.did →
       Sends (.mfillV g a b) s u (.mfillV a.val (b.val % 8) (u.me.v.getD b.val 0)))
     ∧ (∀ g (a : MSlot) (b : SReg) s u, Issues (matIssue g [b.val] [] [] true) s u → claimOf u a.val = some u.me.did → (u.me.s.getD b.val 0).toNat % 64 = 0 →
       ((u.me.s.getD b.val 0).toNat + 8192 ≤ 2 ^ 20 → granuleTrap u (u.me.s.getD b.val 0).toNat 8192 = none → Sends (.mldw g a b) s u (.mldw a.val (u.me.s.getD b.val 0).toNat))
       ∧ ((u.me.s.getD b.val 0).toNat + 512 ≤ 2 ^ 20 → granuleTrap u (u.me.s.getD b.val 0).toNat 512 = none → Sends (.mscl g a b) s u (.mscl a.val (u.me.s.getD b.val 0).toNat))
       ∧ (∀ o, (u.me.s.getD b.val 0).toNat = 2 ^ 64 - 2 ^ 18 + o → o + 512 ≤ 2 ^ 18 → checkSpad u u.me.core u.me.did o 512 = none → Sends (.mscl g a b) s u (.msclSp a.val o)))
     ∧ (∀ g (a : CAcc) (b c : SReg) s u o, Issues (matIssue g [b.val, c.val] [] [] true) s u → claimOf u (16 + a.val) = some u.me.did → accBusy u u.me.core a.val = false →
       (coreOf u u.me.core).accPois.getLsbD a.val = false → (u.me.s.getD b.val 0).toNat = 2 ^ 64 - 2 ^ 18 + o → o % 16 = 0 →
       (let st := (u.me.s.getD c.val 0).toNat
        let fc := u.me.fmtc.toNat % 16
        st % 16 = 0 → storeRow fc ≤ st → o + 31 * st + storeRow fc ≤ 2 ^ 18 → (isBlock fc = true → o + 32 * st + 32 ≤ 2 ^ 18) →
        (∀ i < 32, checkSpad u u.me.core u.me.did (o + i * st) (storeRow fc) = none) → (isBlock fc = true → checkSpad u u.me.core u.me.did (o + 32 * st) 32 = none) →
        Sends (.mstc g a b c) s u (.mstc a.val o st)))
     ∧ (∀ g (a : CAcc) (b : VReg) s u, Issues (matIssue g [] [] (upto b.val (storeRegs (wbits s.me.fmtc 3 0))) true) s u → claimOf u (16 + a.val) = some u.me.did →
       accBusy u u.me.core a.val = false → (coreOf u u.me.core).accPois.getLsbD a.val = false →
       (MatRoom u → ∃ t, exec (.mstcV g a b) s = .next (goesOn s t) ∧ t.me = { u.me with vpend := u.me.vpend ++ upto b.val (storeRegs (wbits s.me.fmtc 3 0)) }
         ∧ Queued u t (.mstcV a.val b.val))
       ∧ (¬ MatRoom u → exec (.mstcV g a b) s = .next { s with me := { s.me with wait := .retry } }))
     ∧ (∀ g (a : CAcc) (b c : SReg) s u, Issues (matIssue g [b.val, c.val] [] [] true) s u → claimOf u (16 + a.val) = some u.me.did → accBusy u u.me.core a.val = true →
       exec (.mstc g a b c) s = .next { s with me := { s.me with wait := .retry } })
     ∧ (∀ g (a : CAcc) (b c : MSlot) s u, Issues (matIssue g [] [] [] true) s u → claimOf u (16 + a.val) = some u.me.did → claimOf u b.val = some u.me.did → claimOf u c.val = some u.me.did →
       pairK (u.me.fmta.toNat % 16) (u.me.fmtb.toNat % 16) ≠ none →
       (u.me.fmta.toNat % 16 = 4 → b.val % 2 = 0 ∧ c.val % 2 = 0 ∧ claimOf u (b.val + 1) = some u.me.did ∧ claimOf u (c.val + 1) = some u.me.did) →
       (((coreOf u u.me.core).matq.filter (fun k => isMma k.op)).length < 2 → s.live = true →
         ∃ t, exec (.mma g a b c) s = .next t ∧ t.me = { u.me with wait := .mma, wnext := u.nextPc, pre := some (snapshot s) } ∧ Queued u t (.mma a.val b.val c.val))
       ∧ (2 ≤ ((coreOf u u.me.core).matq.filter (fun k => isMma k.op)).length → exec (.mma g a b c) s = .next { s with me := { s.me with wait := .retry } }))
     ∧ (∀ g (a : MSlot) (c : CAcc) s u, Issues (matIssue g [] [] [] false) s u → MatRoom u →
       (bit (domCore u u.me.core u.me.did).opsm a.val = true ∧ claimOf u a.val = none ∨ claimOf u a.val = some u.me.did →
         ∃ t, exec (.mclmSlot g a) s = .next (goesOn s t) ∧ claimOf t a.val = some u.me.did ∧ t.me = u.me ∧ (foundBad u u.me.core a.val = false → t.mem = u.mem)
           ∧ (foundBad u u.me.core a.val = true → memOk u → slotPoisoned t u.me.core a.val = false ∧ (∀ i < 8192, memGet t.mem (slotKey u.me.core a.val i) = 0)
             ∧ ∀ i < 512, memGet t.mem (sideKey u.me.core a.val i) = 0))
       ∧ (bit (domCore u u.me.core u.me.did).accm c.val = true ∧ claimOf u (16 + c.val) = none ∨ claimOf u (16 + c.val) = some u.me.did →
         ∃ t, exec (.mclmAcc g c) s = .next (goesOn s t) ∧ claimOf t (16 + c.val) = some u.me.did ∧ t.me = u.me ∧ t.mem = u.mem
           ∧ (foundBad u u.me.core (16 + c.val) = true → (coreOf t u.me.core).accPois.getLsbD c.val = false ∧ (coreOf t u.me.core).acc.getD c.val 0 = 0))
       ∧ (claimOf u a.val = some u.me.did → ∃ t, exec (.mrelSlot g a) s = .next (goesOn s t) ∧ claimOf t a.val = none ∧ t.me = u.me ∧ Queued u t (.zeroSlot a.val))
       ∧ (claimOf u (16 + c.val) = some u.me.did → ∃ t, exec (.mrelAcc g c) s = .next (goesOn s t) ∧ claimOf t (16 + c.val) = none ∧ t.me = u.me ∧ Queued u t (.zeroAcc c.val)))
     ∧ (∀ g (a : MSlot) (c : CAcc) s u, Issues (matIssue g [] [] [] false) s u →
       (claimOf u a.val ≠ some u.me.did → exec (.mrelSlot g a) s = .next (takeTrap s s.me.pc .matrix false (BitVec.ofNat 64 (a.val + 0x100))))
       ∧ (claimOf u (16 + c.val) ≠ some u.me.did → exec (.mrelAcc g c) s = .next (takeTrap s s.me.pc .matrix false (BitVec.ofNat 64 (c.val + 0x100)))
         ∧ exec (.mzero g c) s = .next (takeTrap s s.me.pc .matrix false (BitVec.ofNat 64 (c.val + 0x100)))))
     ∧ (let unclaimed (i : Instr) (x : Nat) (s : State) : Prop := exec i s = .next (takeTrap s s.me.pc .matrix false (BitVec.ofNat 64 (x + 0x100)))
       (∀ g (a : MSlot) (b c : SReg) s u o, Issues (matIssue g [b.val, c.val] [] [] true) s u → claimOf u a.val ≠ some u.me.did →
         (u.me.s.getD b.val 0).toNat = 2 ^ 64 - 2 ^ 18 + o → o % 64 = 0 →
         (let len := (u.me.s.getD c.val 0).toNat % 2 ^ 14
          len ≠ 0 → o + len ≤ 2 ^ 18 → checkSpad u u.me.core u.me.did o len = none → unclaimed (.mfill g a b c) a.val s))
       ∧ (∀ g (a : MSlot) (b : VReg) s u, Issues (matIssue g [] [] [b.val] true) s u → claimOf u a.val ≠ some u.me.did → unclaimed (.mfillV g a b) a.val s)
       ∧ (∀ g (a : MSlot) (b : SReg) s u, Issues (matIssue g [b.val] [] [] true) s u → claimOf u a.val ≠ some u.me.did → (u.me.s.getD b.val 0).toNat % 64 = 0 →
         (granuleTrap u (u.me.s.getD b.val 0).toNat 8192 = none → unclaimed (.mldw g a b) a.val s)
         ∧ ((u.me.s.getD b.val 0).toNat + 512 ≤ 2 ^ 20 → granuleTrap u (u.me.s.getD b.val 0).toNat 512 = none → unclaimed (.mscl g a b) a.val s)
         ∧ (∀ o, (u.me.s.getD b.val 0).toNat = 2 ^ 64 - 2 ^ 18 + o → o + 512 ≤ 2 ^ 18 → checkSpad u u.me.core u.me.did o 512 = none → unclaimed (.mscl g a b) a.val s))
       ∧ (∀ g (a : CAcc) (b c : SReg) s u o, Issues (matIssue g [b.val, c.val] [] [] true) s u → claimOf u (16 + a.val) ≠ some u.me.did →
         (u.me.s.getD b.val 0).toNat = 2 ^ 64 - 2 ^ 18 + o → o % 16 = 0 →
         (let st := (u.me.s.getD c.val 0).toNat
          let fc := u.me.fmtc.toNat % 16
          st % 16 = 0 → o + 31 * st + storeRow fc ≤ 2 ^ 18 → (isBlock fc = true → o + 32 * st + 32 ≤ 2 ^ 18) →
          (∀ i < 32, checkSpad u u.me.core u.me.did (o + i * st) (storeRow fc) = none) → (isBlock fc = true → checkSpad u u.me.core u.me.did (o + 32 * st) 32 = none) →
          unclaimed (.mstc g a b c) a.val s))
       ∧ (∀ g (a : CAcc) (b : VReg) s u, Issues (matIssue g [] [] (upto b.val (storeRegs (wbits s.me.fmtc 3 0))) true) s u → claimOf u (16 + a.val) ≠ some u.me.did →
         unclaimed (.mstcV g a b) a.val s)
       ∧ (∀ g (a : CAcc) (b c : MSlot) s u, Issues (matIssue g [] [] [] true) s u →
         (claimOf u (16 + a.val) ≠ some u.me.did → unclaimed (.mma g a b c) a.val s)
         ∧ (claimOf u (16 + a.val) = some u.me.did → claimOf u b.val ≠ some u.me.did → unclaimed (.mma g a b c) b.val s)
         ∧ (claimOf u (16 + a.val) = some u.me.did → claimOf u b.val = some u.me.did → claimOf u c.val ≠ some u.me.did → unclaimed (.mma g a b c) c.val s))))
    ∧ (∀ g (a : SReg) s u, Issues (matIssue g [] [a.val] [] false) s u →
     ∃ v : Word, exec (.mstat g a) s = .next (goesOn s (setSreg u a.val v))
       ∧ (∀ i < 16, v.getLsbD i = (claimOf u i == some u.me.did)) ∧ (∀ i < 8, v.getLsbD (16 + i) = (claimOf u (16 + i) == some u.me.did))
       ∧ v.toNat / 2 ^ 24 % 2 ^ 8 = min (strandCmds u u.me.key).length 15
       ∧ (∀ i < 8, v.getLsbD (32 + i) = (claimOf u (16 + i) == some u.me.did && (coreOf u u.me.core).accPois.getLsbD i && !zeroing u u.me.core (16 + i)))
       ∧ (∀ i < 16, v.getLsbD (40 + i) = (claimOf u i == some u.me.did && slotPoisoned u u.me.core i && !zeroing u u.me.core i)) ∧ v.toNat < 2 ^ 56)

/-- R124, R379, R382, R387: an MMA adds to each element of its accumulator the exact products of a row of one operand and a row of the other, in one sum rounded once; a poisoned
source makes every element NaN and marks the accumulator. Its strand then goes on after the MMA. -/
def Obligations.MatrixMultiply : Prop :=
  ∀ s c k rest a m n, AtHead s c k rest → k.op = .mma a m n → a < 8 →
    ((slotPoisoned s c m = false → slotPoisoned s c n = false → (k.fa = 4 → slotPoisoned s c (m + 1) = false ∧ slotPoisoned s c (n + 1) = false) →
        (coreOf s c).accPois.getLsbD a = false → ∀ K, pairK k.fa k.fb = some K →
        ∃ t, exec (.mmaCompletion c) s = .next t ∧ (coreOf t c).matq = rest ∧ (coreOf t c).accPois.getLsbD a = false ∧ t.mem = s.mem
          ∧ (∀ b, b ≠ a → (coreOf t c).acc.getD b 0 = (coreOf s c).acc.getD b 0)
          ∧ ∀ i < 32, ∀ j < 32, accElem ((coreOf t c).acc.getD a 0) i j = mmaSum (k.fa == 0)
              ((upto 0 K).map (fun q => mmaMul (operand k.fa (slotVal s c m) (memVal s.mem (sideKey c m 0) 512) k.offa i q)
                (operand k.fb (slotVal s c n) (memVal s.mem (sideKey c n 0) 512) k.offb j q)) ++ [decodeNum .f32 (accElem ((coreOf s c).acc.getD a 0) i j)]) % 2 ^ 32)
      ∧ (slotPoisoned s c m = true ∨ slotPoisoned s c n = true ∨ (coreOf s c).accPois.getLsbD a = true →
        ∃ t, exec (.mmaCompletion c) s = .next t ∧ (coreOf t c).accPois.getLsbD a = true ∧ ∀ i < 32, ∀ j < 32, accElem ((coreOf t c).acc.getD a 0) i j = 0x7FC00000)
      ∧ (s.live = true → s.me.key = k.key → ∃ t, exec (.mmaCompletion c) s = .next t ∧ t.me.pc = s.me.wnext ∧ t.me.wait = .none ∧ t.me.s = s.me.s))

/-- R368, R375 to R377, R384, R385, R421: the other commands as they complete: fills and weight loads byte for byte, the FP32 store image row by row, clearing and release zero; a
scratchpad bank is zeroed for its new holder once nothing of the old one is on its way. -/
def Obligations.MatrixMoves : Prop :=
  (∀ s c k rest, AtHead s c k rest →
      (∀ m src off len, k.op = .mfill m src off len → m < 16 → src + len ≤ 2 ^ 18 → off + len ≤ 8192 → len % 64 = 0 →
        ∃ t, exec (.matrixCommandCompletion c) s = .next t ∧ (coreOf t c).matq = rest ∧ t.me = s.me
          ∧ (∀ i < len, memGet t.mem (slotKey c m (off + i)) = memGet s.mem (spadKey c (src + i)))
          ∧ ∀ x, x < slotKey c m off ∨ slotKey c m off + len ≤ x → memGet t.mem x = memGet s.mem x)
      ∧ (∀ m j d, k.op = .mfillV m j d →
        ∃ t, exec (.matrixCommandCompletion c) s = .next t ∧ (coreOf t c).matq = rest
          ∧ (∀ i < 1024, memGet t.mem (slotKey c m (1024 * j) + i) = d.extractLsb' (8 * i) 8)
          ∧ ∀ x, x < slotKey c m (1024 * j) ∨ slotKey c m (1024 * j) + 1024 ≤ x → memGet t.mem x = memGet s.mem x)
      ∧ (∀ m o, k.op = .mldw m o → m < 16 → o + 8192 ≤ 2 ^ 20 →
        ∃ t, exec (.matrixCommandCompletion c) s = .next t ∧ (coreOf t c).matq = rest ∧ ∀ i < 8192, memGet t.mem (slotKey c m i) = memGet s.mem (wsKey c (o + i)))
      ∧ (∀ m o, k.op = .mscl m o → m < 16 → o + 512 ≤ 2 ^ 20 →
        ∃ t, exec (.matrixCommandCompletion c) s = .next t ∧ (coreOf t c).matq = rest ∧ ∀ i < 512, memGet t.mem (sideKey c m i) = memGet s.mem (wsKey c (o + i)))
      ∧ (∀ m o, k.op = .msclSp m o → m < 16 → o + 512 ≤ 2 ^ 18 →
        ∃ t, exec (.matrixCommandCompletion c) s = .next t ∧ (coreOf t c).matq = rest ∧ ∀ i < 512, memGet t.mem (sideKey c m i) = memGet s.mem (spadKey c (o + i)))
      ∧ (∀ a dst st, k.op = .mstc a dst st → k.fc = 7 → 128 ≤ st →
        ∃ t, exec (.matrixCommandCompletion c) s = .next t ∧ (coreOf t c).matq = rest
          ∧ ∀ i < 32, ∀ j < 32, memVal t.mem (spadKey c (dst + i * st + 4 * j)) 4 = accElem ((coreOf s c).acc.getD a 0) i j)
      ∧ (∀ a r, k.op = .mstcV a r → k.fc = 7 → r + 4 ≤ 16 → s.live = true → s.me.key = k.key →
        ∃ t, exec (.matrixCommandCompletion c) s = .next t ∧ (coreOf t c).matq = rest ∧ (∀ x, r ≤ x → x < r + 4 → x ∉ t.me.vpend)
          ∧ ∀ i < 32, ∀ j < 32, (elemBits 4 (t.me.v.getD (r + i / 8) 0) (i % 8 * 32 + j)).toNat = accElem ((coreOf s c).acc.getD a 0) i j)
      ∧ (∀ a, (k.op = .mzero a ∨ k.op = .zeroAcc a) → a < 8 →
        ∃ t, exec (.matrixCommandCompletion c) s = .next t ∧ (coreOf t c).matq = rest ∧ (coreOf t c).acc.getD a 0 = 0 ∧ (coreOf t c).accPois.getLsbD a = false ∧ t.mem = s.mem
          ∧ ∀ b, b ≠ a → (coreOf t c).acc.getD b 0 = (coreOf s c).acc.getD b 0)
      ∧ (∀ m, k.op = .zeroSlot m →
        ∃ t, exec (.matrixCommandCompletion c) s = .next t ∧ (coreOf t c).matq = rest ∧ (∀ i < 8192, memGet t.mem (slotKey c m i) = 0) ∧ (∀ i < 512, memGet t.mem (sideKey c m i) = 0)))
    ∧ (∀ s c b h, s.boot.recovery = false → (coreOf s c).handover.find? (fun x => x.1 == b) = some h → bankQuiet s c b h.2.2 = true →
      ∃ t, exec (.scratchpadBankHandover c b) s = .next t ∧ (∀ x, b * 2 ^ 14 ≤ x → x < (b + 1) * 2 ^ 14 → memGet t.mem (spadKey c x) = 0)
        ∧ (∀ x, x < spadKey c (b * 2 ^ 14) ∨ spadKey c ((b + 1) * 2 ^ 14) ≤ x → memGet t.mem x = memGet s.mem x)
        ∧ (coreOf t c).handover = (coreOf s c).handover.erase h)

/-! ### Migration, messages, queues and mailboxes -/

/-- R186 to R189: MIG and MIG.BANK at their destination only go on; elsewhere they wait for what is on its way, then ask for a run-queue entry and wait, and once granted the strand
leaves, with no further check, as a packet that goes on at NextPC with H and SF at its clock, its trap and vector registers at their reset values and YDL counted; a strand that may not migrate raises ILLEGAL. A grant reaches the oldest request; a packet becomes a run-queue entry. -/
def Obligations.Migration : Prop :=
  (∀ g (b : SReg) s u pa, Issues (msgIssue g [b.val] [] .run []) s u → u.me.dest = none → MayMigrate u → (u.me.s.getD b.val 0).toNat < 2 ^ 56 → stalls u (u.me.s.getD b.val 0) = false →
      checkVa u (holderOf u.me) u.me.did (u.me.s.getD b.val 0).toNat .read false = .ok pa →
      (inPartition u (homeCore u pa) u.me.did = true → homeCore u pa < 4096 →
        (u.me.seat ≠ .none → onBank u = false → homeCore u pa = u.me.core → ∃ t, exec (.mig g b) s = .next (goesOn s t) ∧ t.me = u.me ∧ t.mem = u.mem)
        ∧ (onBank u = true ∨ homeCore u pa ≠ u.me.core → u.live = true →
          (Quiet u → ∃ t, exec (.mig g b) s = .next t
            ∧ t.me = { u.me with tck := max u.me.tck u.me.h, dest := some (homeCore u pa, false), wait := .grant, pre := some (snapshot s) } ∧ u.me.key ∈ (coreOf t (homeCore u pa)).asking ∧ t.mem = u.mem)
          ∧ (¬ Quiet u → ∃ t, exec (.mig g b) s = .next t
            ∧ t.me = { u.me with dest := some (homeCore u pa, false), wait := .retry, pre := some (snapshot s) } ∧ (coreOf t (homeCore u pa)).asking = (coreOf u (homeCore u pa)).asking ∧ t.mem = u.mem)))
      ∧ (namesDram pa = true → bankInPartition u (channelOf pa) u.me.did = true →
        (∀ n, u.me.seat = .bank (channelOf pa) n → ∃ t, exec (.migBank g b) s = .next (goesOn s t) ∧ t.me = u.me ∧ t.mem = u.mem)
        ∧ ((∀ n, u.me.seat ≠ .bank (channelOf pa) n) → u.live = true →
          (Quiet u →
            ∃ t, exec (.migBank g b) s = .next t ∧ t.me = { u.me with tck := max u.me.tck u.me.h, dest := some (4096 + channelOf pa, false), wait := .grant, pre := some (snapshot s) }
              ∧ u.me.key ∈ (bankOf t (channelOf pa)).asking)
          ∧ (¬ Quiet u → ∃ t, exec (.migBank g b) s = .next t ∧ t.me = { u.me with dest := some (4096 + channelOf pa, false), wait := .retry, pre := some (snapshot s) }))))
    ∧ (∀ g (b : SReg) s u d f, Issues (msgIssue g [b.val] [] .run []) s u → u.me.pre ≠ none → u.me.dest = some (d, f) → Quiet u → u.live = true →
      (f = true → (∃ t m, exec (.mig g b) s = .next t ∧ Departs u t m d) ∧ (∃ t m, exec (.migBank g b) s = .next t ∧ Departs u t m d))
      ∧ (f = false → ∃ t, exec (.mig g b) s = .next t ∧ exec (.migBank g b) s = .next t
        ∧ t.me = { u.me with tck := max u.me.tck u.me.h, wait := .grant, pre := some (snapshot s) }
        ∧ (d < 4096 → u.me.key ∈ (coreOf t d).asking) ∧ (4096 ≤ d → u.me.key ∈ (bankOf t (d - 4096)).asking)))
    ∧ (∀ g (b : SReg) s u, Issues (msgIssue g [b.val] [] .run []) s u → u.me.dest = none → ¬ MayMigrate u →
      exec (.mig g b) s = .next (takeTrap s s.me.pc .illegal false u.words) ∧ exec (.migBank g b) s = .next (takeTrap s s.me.pc .illegal false u.words))
    ∧ (∀ s c rest, s.boot.recovery = false → s.live = true →
      (c < 4096 → exposed s c = true → (coreOf s c).asking = s.me.key :: rest → (coreOf s c).runq.length + (coreOf s c).granted.length < 64 →
        ∃ t, exec (.migrationRunqGrant c) s = .next t ∧ t.me = { s.me with dest := some (c, true), wait := if s.me.wait = .grant then .retry else s.me.wait } ∧ (coreOf t c).asking = rest
          ∧ (coreOf t c).granted = (coreOf s c).granted ++ [s.me.key])
      ∧ (s.health.deadBk.contains c = false → (bankOf s c).asking = s.me.key :: rest → (bankOf s c).runq.length + (bankOf s c).granted.length < 16 →
        ∃ t, exec (.migrationRunqGrant (4096 + c)) s = .next t ∧ t.me = { s.me with dest := some (4096 + c, true), wait := if s.me.wait = .grant then .retry else s.me.wait } ∧ (bankOf t c).asking = rest))
    ∧ (∀ s m c, s.boot.recovery = false → s.packets.find? (fun x => x.1.key == m.key) = some (m, c) →
      (exposed s c = true → ∃ t, exec (.migrationPacketArrival m.key) s = .next t ∧ (coreOf t c).runq = (coreOf s c).runq ++ [.migrated m.key]
        ∧ (coreOf t c).granted = (coreOf s c).granted.filter (· != m.key) ∧ t.packets = s.packets.filter (fun x => x.1.key != m.key))
      ∧ (4096 ≤ c → s.health.deadBk.contains (c - 4096) = false → ∃ t, exec (.migrationPacketArrival m.key) s = .next t ∧ (bankOf t (c - 4096)).runq = (bankOf s (c - 4096)).runq ++ [.migrated m.key]
        ∧ t.packets = s.packets.filter (fun x => x.1.key != m.key)))

/-- R184, R190 to R192: AMSG sends entry, address, argument and clock to the home core's handler queue and waits; a handler starts with the address, the argument and the sender in
s0 to s3, the sender's clock, and a YDL of 256; its reply goes to the register and the clock of the sender. A write or load of another core's scratchpad takes one turn there, once no handler runs. That it waits behind the
messages that wait there is the model's reading (log entry 109). -/
def Obligations.ActiveMessages : Prop :=
  (∀ g (a b c : SReg) s u pa, Issues (msgIssue g [a.val, b.val, c.val] [a.val] .run []) s u → (u.me.s.getD c.val 0).getLsbD 0 = false → (u.me.s.getD b.val 0).toNat < 2 ^ 56 →
      stalls u (u.me.s.getD b.val 0) = false → checkVa u (holderOf u.me) u.me.did (u.me.s.getD b.val 0).toNat .read true = .ok pa → pa < 2 ^ 40 → u.me.posted = [] → u.live = true →
      (coreOf u (homeCore u pa)).hq.length < 32 → (coreOf u (homeCore u pa)).hwait = [] →
      ∃ t m, exec (.amsg g a b c) s = .next t ∧ t.me = { u.me with tck := max u.me.tck u.me.h, wait := .reply, wnext := u.nextPc, wreg := a.val, pre := some (snapshot s) }
        ∧ (coreOf t (homeCore u pa)).hq = (coreOf u (homeCore u pa)).hq ++ [m] ∧ m.entry = u.me.s.getD c.val 0 ∧ m.addr = u.me.s.getD b.val 0 ∧ m.arg = u.me.s.getD a.val 0
        ∧ m.did = u.me.did ∧ m.sid = u.me.sid ∧ m.core = u.me.core ∧ m.clock = max u.me.tck u.me.h ∧ m.caller = some u.me.key)
    ∧ (∀ s c m rest, s.boot.recovery = false → (coreOf s c).hq = m :: rest → handlerIdle s c = true → exposed s c = true →
      ∃ t h, exec (.handlerStart c) s = .next t ∧ t.others = s.others ++ [h] ∧ h.seat = .handler ∧ h.core = c ∧ h.did = m.did ∧ h.pc = m.entry
        ∧ h.s.getD 0 0 = m.addr ∧ h.s.getD 1 0 = m.arg ∧ h.s.getD 2 0 = BitVec.ofNat 64 m.sid ∧ h.s.getD 3 0 = BitVec.ofNat 64 m.core ∧ (∀ i, 4 ≤ i → h.s.getD i 0 = 0)
        ∧ h.tck = m.clock ∧ h.h = m.clock ∧ h.sf = m.clock ∧ h.ydl = 256 ∧ h.caller = m.caller ∧ h.msg = some m ∧ h.th = false
        ∧ (coreOf t c).hq = rest ++ (coreOf s c).hwait.take 1 ∧ (coreOf t c).hwait = (coreOf s c).hwait.drop 1)
    ∧ (∀ s v, Waits s .reply → s.me.wreg < 64 → kget? s.me.ends (2 ^ 65) = some v → kget s.me.ends (2 ^ 65 + 2) 0 = 0 →
      ∃ t, exec (.amsgReply s.me.key) s = .next t ∧ t.me.s.getD s.me.wreg 0 = BitVec.ofNat 64 v ∧ t.me.tck = max s.me.tck (kget s.me.ends (2 ^ 65 + 1) 0)
        ∧ t.me.pc = s.me.wnext ∧ t.me.wait = .none ∧ (∀ i, i ≠ s.me.wreg → t.me.s.getD i 0 = s.me.s.getD i 0) ∧ t.mem = s.mem)
    ∧ (∀ s p, s.boot.recovery = false → s.live = true → s.me.posted.find? (fun q => q.id == p.id) = some p → p.id ≠ 0 → 2 ^ 48 ≤ p.key → p.key < 2 ^ 49 →
      handlerFree s ((p.key - 2 ^ 48) / 2 ^ 18) = true → spadBusy s ((p.key - 2 ^ 48) / 2 ^ 18) (p.key % 2 ^ 18) p.n p.did = false → postReady s s.me p = true → memOk s →
      ∃ t, exec (.remoteScratchpadAccess s.me.key p.id) s = .next t ∧ memVal t.mem p.key p.n = p.val % 256 ^ p.n
        ∧ (∀ k, k < p.key ∨ p.key + p.n ≤ k → memGet t.mem k = memGet s.mem k)
        ∧ (t.me.posted.find? (fun q => q.id == p.id)).map (fun q => q.done) = some (some 0))
    ∧ (∀ s l r, s.boot.recovery = false → s.live = true → s.me.load = some l → l.remote = true → l.dest = .reg r → r < 64 →
      handlerFree s ((l.key - 2 ^ 48) / 2 ^ 18) = true → spadBusy s ((l.key - 2 ^ 48) / 2 ^ 18) (l.key % 2 ^ 18) l.n s.me.did = false →
      (∀ p ∈ s.me.posted, p.done = none → p.key / 2 ^ 18 ≠ l.key / 2 ^ 18) → poisonedAt s l.key l.n = false →
      ∃ t, exec (.remoteScratchpadAccess s.me.key 0) s = .next t ∧ t.me.s.getD r 0 = loadExt l.signed l.n (memVal s.mem l.key l.n) ∧ t.me.load = none
        ∧ t.me.pc = l.next ∧ t.me.wait = .none ∧ t.me.tck = max s.me.tck l.clock ∧ t.mem = s.mem)

/-- R197 to R199: QSTAT reads a queue's fill; MBSEND is a release, then an entry of the share with kind 0, the sender and its clock, or a status in its register: 1 for a full share, 2
for no share; MBRECV writes the head to memory and merges its clock, or gives 1; MBWAIT waits while the share is empty, until a message comes, which another strand may have
taken by then. Where messages are held for the share, that they come first and that their entries count as taken is the model's choice (log entry 39). -/
def Obligations.QueuesAndMailboxes : Prop :=
  (∀ g (a : SReg) (b : QReg) s u, Issues (msgIssue g [] [a.val] .ret []) s u → bit (domCore u u.me.core u.me.did).qmask b.val = true →
      exec (.qstat g a b) s = .next (goesOn s (setSreg u a.val (BitVec.ofNat 64 ((coreOf u u.me.core).queues.getD b.val []).length))))
    ∧ (∀ g (a b : SReg) s u, Issues (msgIssue g [a.val, b.val] [a.val] .ret [.core]) s u →
      (let c := (u.me.s.getD a.val 0).toNat
       (4096 ≤ c ∨ exposed u c = false ∨ (domCore u c u.me.did).mbox = 0 → exec (.mbsend g a b) s = .next (goesOn s (setSreg u a.val 2)))
       ∧ (∀ o, c < 4096 → exposed u c = true → (domCore u c u.me.did).mbox ≠ 0 → InScratchpad u (u.me.s.getD b.val 0) 16 o → poisonedAt u (spadKey u.me.core o) 16 = false →
          u.me.posted = [] →
          ((kget (coreOf u c).mbox u.me.did []).length + (kget (coreOf u c).held u.me.did []).length < (domCore u c u.me.did).mbox →
            ∃ t m, exec (.mbsend g a b) s = .next (goesOn s (setSreg t a.val 0)) ∧ t.me = { u.me with tck := max u.me.tck u.me.h } ∧ t.mem = u.mem
              ∧ kget (coreOf t c).mbox u.me.did [] = kget (coreOf u c).mbox u.me.did [] ++ kget (coreOf u c).held u.me.did [] ++ [m]
              ∧ m.kind = 0 ∧ m.src = u.me.core ∧ m.sid = u.me.sid ∧ m.time = max u.me.tck u.me.h ∧ m.era = u.era ∧ m.payload = memVal u.mem (spadKey u.me.core o) 16)
          ∧ ((domCore u c u.me.did).mbox ≤ (kget (coreOf u c).mbox u.me.did []).length + (kget (coreOf u c).held u.me.did []).length →
            exec (.mbsend g a b) s = .next (goesOn s (setSreg u a.val 1))))
       ∧ (∀ pa v pl, c < 4096 → exposed u c = true → (domCore u c u.me.did).mbox ≠ 0 → onBank u = false → InMemory u (u.me.s.getD b.val 0) 16 .read pa → pa < 2 ^ 40 →
          coreReady u pa = true → corePoisoned u pa 16 = false → u.me.posted = [] → coreRead (tlbKeep u u.me.core u.me.did (u.me.s.getD b.val 0).toNat) pa 16 = (v, pl) →
          (kget (coreOf u c).mbox u.me.did []).length + (kget (coreOf u c).held u.me.did []).length < (domCore u c u.me.did).mbox →
          ∃ t m, exec (.mbsend g a b) s = .next (goesOn s (setSreg t a.val 0)) ∧ t.me = { v.me with tck := max v.me.tck v.me.h } ∧ t.mem = u.mem
            ∧ kget (coreOf t c).mbox u.me.did [] = kget (coreOf u c).mbox u.me.did [] ++ kget (coreOf u c).held u.me.did [] ++ [m]
            ∧ m.kind = 0 ∧ m.src = u.me.core ∧ m.sid = u.me.sid ∧ m.time = max v.me.tck v.me.h ∧ m.payload = pl)))
    ∧ (∀ g (a b : SReg) s u o, Issues (msgIssue g [b.val] [a.val] .ret [.core]) s u → InScratchpad u (u.me.s.getD b.val 0) 32 o →
      (kget (coreOf u u.me.core).mbox u.me.did [] = [] → exec (.mbrecv g a b) s = .next (goesOn s (setSreg u a.val 1)))
      ∧ (∀ m rest, kget (coreOf u u.me.core).mbox u.me.did [] = m :: rest → memOk u →
        ∃ t, exec (.mbrecv g a b) s = .next (goesOn s (setSreg t a.val 0)) ∧ t.me = { u.me with tck := max u.me.tck m.time }
          ∧ kget (coreOf t u.me.core).mbox u.me.did [] = rest
          ∧ memVal t.mem (spadKey u.me.core o) 32 = (m.kind + m.src * 2 ^ 16 + m.sid % 2 ^ 32 * 2 ^ 32 + m.time % 2 ^ 48 * 2 ^ 64 + m.era % 2 ^ 16 * 2 ^ 112
              + m.payload % 2 ^ 128 * 2 ^ 128) % 256 ^ 32
          ∧ ∀ k, k < spadKey u.me.core o ∨ spadKey u.me.core o + 32 ≤ k → memGet t.mem k = memGet u.mem k))
    ∧ (∀ g (a b : SReg) s u pa m rest, Issues (msgIssue g [b.val] [a.val] .ret [.core]) s u → (u.me.s.getD b.val 0).toNat < 2 ^ 56 → (u.me.s.getD b.val 0).toNat % 32 = 0 → stalls u (u.me.s.getD b.val 0) = false →
      checkVa u (holderOf u.me) u.me.did (u.me.s.getD b.val 0).toNat .write true = .ok pa → pa < 2 ^ 40 → heldBy u (u.me.s.getD b.val 0).toNat 32 = [] →
      kget (coreOf u u.me.core).mbox u.me.did [] = m :: rest →
      ∃ t p, exec (.mbrecv g a b) s = .next (goesOn s (setSreg t a.val 0)) ∧ t.me.posted = u.me.posted ++ [p] ∧ p.op = .store ∧ p.key = pa ∧ p.n = 32
        ∧ p.val = mboxBytes m % 256 ^ 32 ∧ t.me.tck = max u.me.tck m.time ∧ kget (coreOf t u.me.core).mbox u.me.did [] = rest ∧ t.mem = u.mem)
    ∧ (∀ g s u, Issues (msgIssue g [] [] .ret []) s u → (domCore u u.me.core u.me.did).mbox ≠ 0 →
      (kget (coreOf u u.me.core).mbox u.me.did [] ≠ [] → exec (.mbwait g) s = .next (goesOn s u))
      ∧ (kget (coreOf u u.me.core).mbox u.me.did [] = [] → u.live = true →
        exec (.mbwait g) s = .next { u with me := { u.me with wait := .mbwait, wnext := u.nextPc, wkey := 0, pre := some (snapshot s) } }))
    ∧ (∀ s c d m rest, s.boot.recovery = false → kget (coreOf s c).held d [] = m :: rest → (kget (coreOf s c).mbox d []).length < (domCore s c d).mbox →
      ∃ t, exec (.heldMessageDelivery c d) s = .next t ∧ kget (coreOf t c).mbox d [] = kget (coreOf s c).mbox d [] ++ [m] ∧ kget (coreOf t c).held d [] = rest ∧ t.me = s.me)
    ∧ (∀ s, Waits s .mbwait → (kget (coreOf s s.me.core).mbox s.me.did [] ≠ [] ∨ s.me.wkey = 1) →
      ∃ t, exec (.mbwaitWake s.me.core s.me.did) s = .next t ∧ t.me.pc = s.me.wnext ∧ t.me.wait = .none ∧ t.me.s = s.me.s ∧ t.mem = s.mem)

/-! ### Bank commands -/

/-- R400, R402, R403, R411: BKSEQ sends the store that zeroes a pair; a bank command whose checks pass takes the next ticket in the pair's second word, joins the commands with its
chunks unfinished, and puts the ticket in its register; with 16 of its core unended it waits; BKSTAT reads how many have not ended. That a command holds its
entry of the core's bank-command buffer of 16 until it ends is the model's choice (log entry 41). -/
def Obligations.BankCommands : Prop :=
  (∀ g (b : SReg) s u pa, Issues (msgIssue g [b.val] [] .run [.core]) s u → (u.me.s.getD b.val 0).toNat % 16 = 0 → (u.me.s.getD b.val 0).toNat < 2 ^ 56 → stalls u (u.me.s.getD b.val 0) = false →
      checkVa u (holderOf u.me) u.me.did (u.me.s.getD b.val 0).toNat .write false = .ok pa → pa < 2 ^ 40 → heldBy u (u.me.s.getD b.val 0).toNat 16 = [] →
      (u.me.posted = [] → ∃ t p, exec (.bkseq g b) s = .next (goesOn s t) ∧ t.me.posted = [p] ∧ p.op = .store ∧ p.key = pa ∧ p.n = 16 ∧ p.val = 0
        ∧ t.me.tck = max u.me.tck u.me.h ∧ t.mem = u.mem)
      ∧ (u.me.posted ≠ [] → exec (.bkseq g b) s = .next { s with me := { s.me with wait := .retry } }))
    ∧ (∀ g (a b : SReg) s u pa, Issues (msgIssue g [b.val] [a.val] .run [.core]) s u → (u.me.s.getD b.val 0).toNat % 16 = 0 → (u.me.s.getD b.val 0).toNat < 2 ^ 56 → stalls u (u.me.s.getD b.val 0) = false →
      checkVa u (holderOf u.me) u.me.did (u.me.s.getD b.val 0).toNat .read false = .ok pa → pa < 2 ^ 40 → pa % 16 = 0 → stepReady u pa = true → poisonedAt u pa 16 = false →
      (homeLine u (pa / 64)).length = 64 →
      ∃ t, exec (.bkstat g a b) s = .next (goesOn s (setSreg t a.val (BitVec.ofNat 64 (homeVal u (pa + 8) 8) - BitVec.ofNat 64 (homeVal u pa 8))))
        ∧ t.me = { u.me with tck := max u.me.tck (timesOf u (pa / 64)).wts } ∧ t.mem = u.mem)
    ∧ (∀ op sc (mk : Guard → SReg → SReg → SReg → Instr) g (a b c : SReg) s u v d cpa rec? cs,
      ((op = .add ∧ mk = .bkadd) ∨ (op = .mul ∧ mk = .bkmul) ∨ (op = .fma ∧ mk = .bkfma)) ∧ Issues (msgIssue g [b.val, c.val] [a.val] .run [.core, .bank]) s u
          ∧ sc = (u.me.s.getD c.val 0).toNat % 2 ^ 16
        ∨ (op = .copy ∧ mk = fun g a b _ => .drcpy g a b) ∧ Issues (msgIssue g [b.val] [a.val] .run [.core, .bank]) s u ∧ sc = 0
        ∨ (op = .zero ∧ mk = fun g a b _ => .drzero g a b) ∧ Issues (msgIssue g [b.val] [a.val] .run [.core, .bank]) s u ∧ sc = 0 →
      BankReady u op (u.me.s.getD b.val 0) v d cpa rec? cs →
      ((u.bank.filter (fun k => k.core == holderOf u.me)).length < 16 →
        ∃ t k, exec (mk g a b c) s = .next (goesOn s (setSreg t a.val (BitVec.ofNat 64 k.ticket))) ∧ k.ticket = (homeVal v (cpa + 8) 8 + 1) % 2 ^ 64
          ∧ homeVal t (cpa + 8) 8 = k.ticket ∧ t.bank = u.bank ++ [k] ∧ k.op = op ∧ k.key = u.me.key ∧ k.did = u.me.did ∧ k.scalar = sc ∧ k.cpair = cpa ∧ k.recPa = rec?
          ∧ k.chunks.length = bits d 198 192 ∧ (∀ x ∈ k.chunks, x.state = 0 ∧ x.ops = 0 ∧ x.bufs = []) ∧ k.core = holderOf u.me ∧ k.begun = false)
      ∧ (16 ≤ (u.bank.filter (fun k => k.core == holderOf u.me)).length → exec (mk g a b c) s = .next { s with me := { s.me with wait := .retry } }))

/-- R404 to R406, R408 to R410: a row operation reads a row into the chunk's buffers, or writes the destination's row: zeros, a copy, or for each BF16 element the sum, the product or the
fused form of its sources, each operation rounded once; a command that has finished writes its ticket to the pair, in ticket order, and is gone. That the chunks of a bank core out
of service fail is the model's choice (log entry 68). -/
def Obligations.BankUnits : Prop :=
  (∀ s ch c i k, s.boot.recovery = false → calState s.gtc = 0 → bankNext s ch = some (c, i, k) → s.bank.find? (fun x => x.id == c.id) = some c → c.chunks[i]? = some k → memOk s →
      (s.health.deadBk.contains ch = true → ∃ t, exec (.bankRowOperation ch) s = .next t ∧ t.mem = s.mem
        ∧ ((t.bank.find? (fun x => x.id == c.id)).bind (fun x => x.chunks[i]?)).map (fun x => x.state) = some 2)
      ∧ (s.health.deadBk.contains ch = false →
      (c.op = .zero → ∃ t, exec (.bankRowOperation ch) s = .next t ∧ (∀ x < 2048, memGet t.mem (k.dst + x) = 0) ∧ (∀ x, x < k.dst ∨ k.dst + 2048 ≤ x → memGet t.mem x = memGet s.mem x)
        ∧ ((t.bank.find? (fun x => x.id == c.id)).bind (fun x => x.chunks[i]?)).map (fun x => x.state) = some 1)
      ∧ (c.op = .copy → k.dst = k.src1 → ∃ t, exec (.bankRowOperation ch) s = .next t ∧ t.mem = s.mem
          ∧ ((t.bank.find? (fun x => x.id == c.id)).bind (fun x => x.chunks[i]?)).map (fun x => x.state) = some 1)
      ∧ (c.op = .copy → k.dst ≠ k.src1 → sameSubarray k.dst k.src1 = true → poisonedAt s k.src1 2048 = false →
        ∃ t, exec (.bankRowOperation ch) s = .next t ∧ (∀ x < 2048, memGet t.mem (k.dst + x) = memGet s.mem (k.src1 + x))
          ∧ (∀ x, x < k.dst ∨ k.dst + 2048 ≤ x → memGet t.mem x = memGet s.mem x)
          ∧ ((t.bank.find? (fun x => x.id == c.id)).bind (fun x => x.chunks[i]?)).map (fun x => x.state) = some 1)
      ∧ (c.op ≠ .zero → (c.op = .copy → k.dst ≠ k.src1 ∧ sameSubarray k.dst k.src1 = false) →
        (∀ r, (chunkReads c k)[k.ops]? = some r → poisonedAt s r 2048 = false → ∃ t, exec (.bankRowOperation ch) s = .next t ∧ t.mem = s.mem
          ∧ (t.bank.find? (fun x => x.id == c.id)).bind (fun x => x.chunks[i]?) = some { k with ops := k.ops + 1, bufs := k.bufs ++ [memBytes s.mem r 2048] })
        ∧ (∀ x y z, k.ops = (chunkReads c k).length → (c.useY = true → k.bufs = x :: y :: z) → (c.useY = false → k.bufs = x :: z) → (c.op = .copy → x.length = 2048) →
          ∃ t, exec (.bankRowOperation ch) s = .next t ∧ (∀ a, a < k.dst ∨ k.dst + 2048 ≤ a → memGet t.mem a = memGet s.mem a)
            ∧ (let el (l : List Byte) (j : Nat) : Nat := leVal ((l.drop (2 * j)).take 2)
               let sec (j : Nat) : Nat := if c.useY then el y j else c.scalar
               (c.op = .add → ∀ j < 1024, memVal t.mem (k.dst + 2 * j) 2 = bankRound (addNum false (bankIn (el x j)) (bankIn (sec j))) % 2 ^ 16)
                ∧ (c.op = .mul → ∀ j < 1024, memVal t.mem (k.dst + 2 * j) 2 = bankRound (mulNum (bankIn (el x j)) (bankIn (sec j))) % 2 ^ 16)
                ∧ (c.op = .fma → ∀ j < 1024, memVal t.mem (k.dst + 2 * j) 2 = bankRound (addNum false
                    (decodeNum .bf16 (bankRound (mulNum (bankIn (el x j)) (bankIn (sec j))))) (bankIn (el (z.headD []) j))) % 2 ^ 16)
                ∧ (c.op = .copy → memBytes t.mem k.dst 2048 = x))))))
    ∧ (∀ s c, s.boot.recovery = false → s.bank.find? (fun x => x.id == c.id) = some c → (∀ k ∈ c.chunks, k.state ≠ 0 ∧ k.cause ≠ causeCode .slotOverrun) →
      s.bank.find? (fun x => x.cpair == c.cpair) = some c → homeReady s (c.cpair / 64) = true → c.recPa = none → mayReach s c.did c.cpair = true → c.cpair < 2 ^ 40 → c.cpair % 16 = 0 →
      (homeLine s (c.cpair / 64)).length = 64 → memOk s →
      ∃ t, exec (.bankCommandEnd c.id) s = .next t ∧ homeVal t c.cpair 8 = c.ticket % 2 ^ 64 ∧ t.bank = s.bank.filter (fun x => x.id != c.id)
        ∧ timesOf t (c.cpair / 64) = ⟨max (c.tb + 1) ((timesOf s (c.cpair / 64)).rts + 1), max (c.tb + 1) ((timesOf s (c.cpair / 64)).rts + 1), (timesOf s (c.cpair / 64)).n + 1⟩ ∧ t.me = s.me)

/-! ### Control registers, traps, gates -/

/-- R16 to R24, R33, R34, R254, R255, R261: MFC reads each register; MTC writes the writable ones with their reserved bits zero, raises ILLEGAL on a reserved code and PRIV on a
register that is not writable, TVEC outside DID 0 among them; RDGTC reads the GTC, RDCAL the calendar. -/
def Obligations.ControlRegisters : Prop :=
  (∀ g (a : SReg) s u, Issues (scalar g [] [a.val]) s u →
      (let slot := match u.me.seat with
        | .slot n => n
        | .handler => modeSlots (coreOf u u.me.core).mode - 1
        | .bank _ n => n
        | .none => 0
       ∀ p ∈ [(CR.tck, BitVec.ofNat 64 (u.me.tck % 2 ^ 48)), (.era, BitVec.ofNat 64 (u.era % 2 ^ 16)), (.rnd, u.me.rnd), (.fmta, u.me.fmta), (.fmtb, u.me.fmtb), (.fmtc, u.me.fmtc),
          (.scla, u.me.scla), (.sclb, u.me.sclb), (.vsh, u.me.vsh), (.did, BitVec.ofNat 64 u.me.did), (.sid, BitVec.ofNat 64 u.me.sid), (.gid, BitVec.ofNat 64 u.me.gid),
          (.rank, BitVec.ofNat 64 u.me.rank), (.core, BitVec.ofNat 64 u.me.core), (.migp, u.me.migp), (.tvec, (domOf u u.me.did).tvec), (.tcause, u.me.tcause), (.tval, u.me.tval),
          (.tpc, u.me.tpc), (.ydl, BitVec.ofNat 64 u.me.ydl), (.cal0, rdcal u 0), (.cal1, rdcal u 1), (.cal2, rdcal u 2), (.cal3, rdcal u 3),
          (.stat, BitVec.ofNat 64 ((if u.me.seat = .handler then 2 ^ 16 else 0) + slot * 2 ^ 8 + modeCode (modeOfStrand u u.me) * 4 + if u.me.th then 1 else 0))],
        exec (.mfc g a p.1) s = .next (goesOn s (setSreg u a.val p.2))))
    ∧ (∀ g (a : SReg) s u, Issues (scalar g [a.val] []) s u →
      (let x := u.me.s.getD a.val 0
       let n := x.toNat
       let ill := Host.Outcome.next (takeTrap s s.me.pc .illegal false u.words)
       let go (m : Strand) : Host.Outcome State Fault Refusal := .next (goesOn s { u with me := m })
       exec (.mtc g .rnd a) s = (if n % 8 ≤ 5 then go { u.me with rnd := BitVec.ofNat 64 (n % 16) } else ill)
        ∧ exec (.mtc g .fmta a) s = (if n % 16 ≤ 7 then go { u.me with fmta := BitVec.ofNat 64 (n % 16) } else ill)
        ∧ exec (.mtc g .fmtb a) s = (if n % 16 ≤ 7 then go { u.me with fmtb := BitVec.ofNat 64 (n % 16) } else ill)
        ∧ exec (.mtc g .fmtc a) s = (if n % 16 ≤ 7 then go { u.me with fmtc := BitVec.ofNat 64 (n % 16) } else ill)
        ∧ exec (.mtc g .scla a) s = go { u.me with scla := BitVec.ofNat 64 (n % 512) } ∧ exec (.mtc g .sclb a) s = go { u.me with sclb := BitVec.ofNat 64 (n % 512) }
        ∧ exec (.mtc g .vsh a) s = (if n / 16 % 16 + n % 4 ≤ 10 then go { u.me with vsh := BitVec.ofNat 64 (n / 16 % 16 * 16 + n % 4) } else ill)
        ∧ exec (.mtc g .migp a) s = (if n % 4 ≠ 3 then go { u.me with migp := BitVec.ofNat 64 (n % 4) } else ill)
        ∧ exec (.mtc g .tcause a) s = go { u.me with tcause := BitVec.ofNat 64 (n % 512) } ∧ exec (.mtc g .tval a) s = go { u.me with tval := x }
        ∧ exec (.mtc g .tpc a) s = go { u.me with tpc := BitVec.ofNat 64 (n / 2 * 2) }
        ∧ (u.me.did = 0 → ∃ t, exec (.mtc g .tvec a) s = .next (goesOn s t) ∧ (domOf t 0).tvec = BitVec.ofNat 64 (n / 2 * 2) ∧ t.me = u.me ∧ ∀ d, d ≠ 0 → domOf t d = domOf u d)
        ∧ (u.me.did ≠ 0 → exec (.mtc g .tvec a) s = .next (takeTrap s s.me.pc .priv false u.words))
        ∧ ∀ c ∈ [CR.tck, .era, .did, .sid, .gid, .rank, .core, .stat, .ydl, .cal0, .cal1, .cal2, .cal3], exec (.mtc g c a) s = .next (takeTrap s s.me.pc .priv false u.words)))
    ∧ (∀ g (a : SReg) s u, Issues (sysIssue g [] [a.val] .run []) s u →
      exec (.rdgtc g a) s = .next (goesOn s (setSreg u a.val (BitVec.ofNat 64 u.gtc)))
        ∧ (∀ n : Fin 5, exec (.rdcal g a n) s = .next (goesOn s (setSreg u a.val (rdcal u n.val))))
        ∧ rdcal u 1 = BitVec.ofNat 64 (if u.gtc % 2 ^ 22 < 33408 then u.gtc - u.gtc % 2 ^ 22
            else if u.gtc % 2 ^ 14 < 640 then u.gtc - u.gtc % 2 ^ 14 else u.gtc - u.gtc % 2 ^ 14 + 2 ^ 14))

/-- R27, R30, R35, R36, R426: a trap saves the pc, the cause and the value, sets TH and goes to TVEC, leaving all else but the strand's place in the lines at the queues of its core and an entry that it has asked for to
migrate; one under TH, or without a vector, ends the strand; TRAP raises
BREAK with NextPC saved; TRET returns to TPC and clears TH, and raises ILLEGAL where TH is 0. That the trapping instruction is not counted in YDL (log entry 70), and that the strand
leaves the lines at the queues (log entry 22), are the model's choices. -/
def Obligations.TrapsAndReturns : Prop :=
  (∀ s pc c asy v, c ≠ .staleXlate → c ≠ .poison → CanTrap s → takeTrap s pc c asy v = entered (stayHere (leaveLines s)) pc (causeCode c) asy v)
    ∧ (∀ s, (leaveLines s).me = s.me ∧ leaveLines s = { s with cores := (leaveLines s).cores }
      ∧ ∀ c, coreOf (leaveLines s) c = { coreOf s c with qwait := (coreOf (leaveLines s) c).qwait })
    ∧ (∀ s, (s.me.dest = none → stayHere s = s)
      ∧ (s.me.dest ≠ none → stayHere s = { s with me := { s.me with dest := none }, cores := (stayHere s).cores, banks := (stayHere s).banks }
        ∧ ∀ c, s.me.key ∉ (coreOf (stayHere s) c).granted ∧ s.me.key ∉ (coreOf (stayHere s) c).asking ∧ s.me.key ∉ (bankOf (stayHere s) c).granted ∧ s.me.key ∉ (bankOf (stayHere s) c).asking))
    ∧ (∀ s pc c asy v, c ≠ .staleXlate → c ≠ .poison → s.live = true → s.me.seat ≠ .handler → (s.me.th = true ∨ (domOf s s.me.did).tvec = 0) → (takeTrap s pc c asy v).live = false)
    ∧ (∀ g imm s u, Issues (scalar g [] []) s u → CanTrap s → exec (.trap g imm) s = .next (entered (stayHere (leaveLines s)) s.nextPc 0x11 false (BitVec.ofInt 64 imm)))
    ∧ (∀ s u, Issues (sysIssue .always [] [] .run []) s u →
      (u.me.th = true → exec .tret s = .next { u with me := { u.me with pc := u.me.tpc, th := false, ydl := u.me.ydl - 1, wait := .none, pre := none } })
      ∧ (u.me.th = false → exec .tret s = .next (takeTrap s s.me.pc .illegal false u.words)))

/-- R431 to R433: GATE through an open entry saves the strand in an area, pushes its DID, takes the gate's DID, budget and entry, keeps s0 to s5 and clears the rest; a closed one raises
GATE. GRET restores the caller but for s0 to s5 and returns to its DID, with the greater of each clock; outside a gate it raises ILLEGAL. That the saved YDL is one less and comes back as it
is (log entry 50), that the region and its pool stand under the outermost caller's DID (log entry 49), and that the FMT and SCL registers are 0 in the target (log entry 98), are the
model's choices. -/
def Obligations.Gates : Prop :=
  (∀ (n : Fin 256) s u, Issues (sysIssue .always [] [] .ret []) s u → u.me.th = false →
      (gateOpen u n.val = false ∨ 4 ≤ u.me.gates.length → exec (.gate n) s = .next (takeTrap s s.me.pc .gate false (BitVec.ofNat 64 n.val)))
      ∧ (gateOpen u n.val = true → u.me.gates.length < 4 → (∀ z : Fin 8, u.me.z.getD z.val none = none) → Quiet u →
        takeReady { u with me := { u.me with tck := max u.me.tck u.me.h } } (homeDid u.me) u.me.did u.me.region = true →
        ∀ w area i x tm, takeArea (markUse { u with me := { u.me with tck := max u.me.tck u.me.h } } (homeDid u.me) u.me.region) (homeDid u.me) u.me.region (max u.me.tck u.me.h) = .ok (some (w, area, i)) →
          saveTo w { w.me with pc := w.nextPc, ydl := w.me.ydl - 1 } u.me.did area = .ok (x, tm) →
          ∃ t, exec (.gate n) s = .next t ∧ t.me.gates = u.me.gates ++ [(area, u.me.did)]
            ∧ (let g := kget u.gates n.val (0, 0)
               t.me.did = g.2.toNat % 32 ∧ t.me.pc = g.1 ∧ t.me.ydl = g.2.toNat / 2 ^ 16 % 2 ^ 14)
            ∧ (∀ r < 64, t.me.s.getD r 0 = if r < 6 then u.me.s.getD r 0 else 0) ∧ (∀ r < 16, t.me.v.getD r 0 = 0) ∧ t.me.p = 0x80000000#32
            ∧ t.me.rnd = 0 ∧ t.me.fmta = 0 ∧ t.me.fmtb = 0 ∧ t.me.fmtc = 0 ∧ t.me.scla = 0 ∧ t.me.sclb = 0 ∧ t.me.vsh = 0x32 ∧ t.me.migp = 2 ∧ t.me.tcause = 0 ∧ t.me.tpc = 0 ∧ t.me.wait = .none
            ∧ t.me.tck = max u.me.tck u.me.h))
    ∧ (∀ s u, Issues (sysIssue .always [] [] .ret []) s u →
      (u.me.gates = [] → exec .gret s = .next (takeTrap s s.me.pc .illegal false u.words))
      ∧ (∀ area caller w r, u.me.gates.getLast? = some (area, caller) → u.me.th = false → u.me.rsv = none → Quiet u →
        giveReady { u with me := { u.me with tck := max u.me.tck u.me.h } } (homeDid u.me) caller u.me.region area = true →
        restoreFrom { u with me := { u.me with tck := max u.me.tck u.me.h } } { u.me with tck := max u.me.tck u.me.h } caller area = .ok (w, r) →
        ∃ t, exec .gret s = .next t ∧ t.me.did = caller ∧ t.me.gates = u.me.gates.dropLast ∧ t.me.pc = r.pc ∧ t.me.ydl = r.ydl ∧ t.me.p = r.p ∧ t.me.v = r.v ∧ t.me.rnd = r.rnd
          ∧ (∀ i < 64, t.me.s.getD i 0 = if i < 6 then u.me.s.getD i 0 else r.s.getD i 0)
          ∧ t.me.tck = max (max u.me.tck u.me.h) r.tck ∧ t.me.h = max u.me.h r.h ∧ t.me.sf = max u.me.sf r.sf ∧ t.me.wait = .none))

/-- R161, R179, R180, R181, R191, R262, R430: YIELD sets the deadline and goes on where nothing asks for its slot or no area is free; a strand that gives its slot up stands in an area, off its
seat, with the run queue noted that it does not join at once. GSYNC waits until every member has arrived, the message of one elsewhere waiting for the handler slot of the barrier's core (R192); all then go on at the greatest arrival. RETIRE ends the strand once its writes are acknowledged. An empty slot changes owner. Where what it needs to know of its pool, or the word of a reservation, stalls in a maintenance interval, a YIELD or RETIRE waits (R262). That a strand of an exhausted region goes on at its YIELD where
no area is free (log entry 56), and that a barrier's message waits behind those at the handler slot (log entry 109), are the model's choices. -/
def Obligations.YieldGsyncRetire : Prop :=
  (∀ (d : Fin 128) s u, Issues (sysIssue .always [] [] .run []) s u → u.live = true →
      (let m := { u.me with pc := u.nextPc, ydl := 64 * (d.val + 1), wait := .none }
       let v := chargeStrand { u with me := m } m
       v.me = { m with chargedAt := u.gtc }
        ∧ ((inRotation v = false ∧ regionExhausted v (homeDid v.me) v.me.region = false ∧ crowded v = false)
            ∨ (areaFree v (homeDid v.me) v.me.region = false ∧ takeReady v (homeDid v.me) v.me.did v.me.region = true) →
            exec (.yield d) s = .next v)
        ∧ ((inRotation v = true ∨ regionExhausted v (homeDid v.me) v.me.region = true ∨ crowded v = true) → takeReady v (homeDid v.me) v.me.did v.me.region = false →
            exec (.yield d) s = .next { s with me := { s.me with wait := .retry } })
        ∧ (areaFree v (homeDid v.me) v.me.region = true → takeReady v (homeDid v.me) v.me.did v.me.region = true →
          (∀ n, inRotation v = true → v.me.seat = .slot n → exec (.yield d) s = .next (passSlot (unseatMe v true) v.me.core n))
          ∧ (inRotation v = false →
            (regionExhausted v (homeDid v.me) v.me.region = true → exec (.yield d) s = .next (unseatMe v false))
            ∧ (regionExhausted v (homeDid v.me) v.me.region = false → crowded v = true → exec (.yield d) s = .next (unseatMe v true))))))
    ∧ (∀ s queue w area i x tm, s.live = true → takeArea (markUse (chargeStrand s s.me) (homeDid s.me) s.me.region) (homeDid s.me) s.me.region s.me.tck = .ok (some (w, area, i)) →
      saveTo w s.me s.me.did area = .ok (x, tm) →
      (unseatMe s queue).live = false ∧ ∃ m ∈ (unseatMe s queue).others, m.key = s.me.key ∧ m.seat = .none ∧ m.area = some area ∧ m.aside = (if queue then none else some (holderOf s.me)) ∧ m.pc = s.me.pc)
    ∧ (∀ g s u, Issues (sysIssue g [] [] .run []) s u → u.live = true → u.me.dead = false → u.me.key < 2 ^ 32 → u.me.area = none →
      (∀ o ∈ u.others ++ u.packets.map Prod.fst, o.key ≠ u.me.key) →
      (u.me.posted ≠ [] → exec (.gsync g) s = .next { s with me := { s.me with wait := .retry } })
      ∧ (u.me.posted = [] → (∃ o ∈ gangOf u u.me.gid, o.key ≠ u.me.key ∧ o.arr = none) →
        exec (.gsync g) s = .next { u with me := { u.me with wait := .gsync, wnext := u.nextPc, arr := some (max u.me.tck u.me.h) } })
      ∧ (u.me.posted = [] → (∀ o ∈ gangOf u u.me.gid, o.key ≠ u.me.key → o.arr ≠ none ∧ o.area = none) →
        (∀ o ∈ gangOf u u.me.gid, holderOf o = o.gcore ∨ handlerFree u o.gcore = true) →
        ∃ t, exec (.gsync g) s = .next t ∧ t.me.pc = u.nextPc ∧ t.me.wait = .none ∧ t.me.arr = none
          ∧ t.me.tck = (gangOf u u.me.gid).foldl (fun m o => max m (if o.key = u.me.key then max u.me.tck u.me.h else o.arr.getD 0)) 0 ∧ t.mem = u.mem))
    ∧ (∀ s gid, Waits s .gsync → s.me.key < 2 ^ 32 → s.me.gid = gid → (∀ o ∈ gangOf s gid, o.arr ≠ none ∧ o.area = none ∧ (holderOf o = o.gcore ∨ handlerFree s o.gcore = true)) →
      (∀ o ∈ s.others ++ s.packets.map Prod.fst, o.key ≠ s.me.key) →
      ∃ t, exec (.gsyncComplete gid) s = .next t ∧ t.me.pc = s.me.wnext ∧ t.me.wait = .none ∧ t.me.arr = none
        ∧ t.me.tck = (gangOf s gid).foldl (fun m o => max m (o.arr.getD 0)) 0 ∧ t.mem = s.mem)
    ∧ (∀ g s u, Issues { sysIssue g [] [] .run [] with handler := true } s u → u.live = true →
      (u.me.posted ≠ [] → exec (.retire g) s = .next { s with me := { s.me with wait := .retry } })
      ∧ (u.me.posted = [] → (u.me.seat = .handler ∨ (ownWork u = false ∧ boundPushes u = false ∧ ∀ r, u.me.rsv = some r → isFar r.1 = true ∨ homeReady u (r.1 / 64) = true)) → ∃ t, exec (.retire g) s = .next t ∧ t.live = false))
    ∧ (∀ s c n, s.boot.recovery = false → (coreOf s c).slotown.getD n 0x1F ≠ (coreOf s c).curown.getD n 0x1F → slotEmpty s c n = true →
      ∃ t, exec (.slotRotationHandover c n) s = .next t ∧ (coreOf t c).curown = (coreOf s c).curown.set n ((coreOf s c).slotown.getD n 0x1F)
        ∧ (coreOf t c).slotown = (coreOf s c).slotown ∧ t.me = s.me ∧ t.mem = s.mem)

/-! ### The monitor's instructions, range maintenance -/

/-- R157 to R159, R240, R245, R247 to R249: REPART, SLOTSET, TLBI and TLBSD need DID 0. REPART gives a quiescent core its new mode, and the registers it had in both; SLOTSET loads the
pending table; STEP raises the step counter of a schedule; TLBI drops this core's translations; TLBSD raises the generation and waits until every holder has dropped its own
and no access that was translated is still on its way, a posted prefetch among them; at a bank unit the unfinished chunks of the commands that it meets fail. That the strand in a slot that splits goes on in the first of
the slots that it becomes is the model's choice (log entry 94). -/
def Obligations.MonitorInstructions : Prop :=
  (∀ g m s u i, Issues (sysIssue g [] [] .ill []) s u → u.me.seat = .slot i → u.me.did = 0 → quiescent u (modeCode m) = true →
      (let o := (coreOf u u.me.core).mode
       (m = o → exec (.repart g m) s = .next (goesOn s u))
        ∧ (modeCode o < modeCode m → i / 2 ^ (modeCode m - modeCode o) + 1 ≠ modeSlots m →
            splitGroup (ownersNow u u.me.core) (modeCode m - modeCode o) (modeSlots m) = none →
            ∃ t, exec (.repart g m) s = .next (goesOn s t) ∧ (coreOf t u.me.core).mode = m ∧ t.me.seat = .slot (i / 2 ^ (modeCode m - modeCode o))
              ∧ (∀ r < 64, t.me.s.getD r 0 = if r < modeS o then u.me.s.getD r 0 else 0) ∧ (∀ r < 16, t.me.v.getD r 0 = if r < modeV o then u.me.v.getD r 0 else 0) ∧ t.mem = u.mem)
        ∧ (modeCode m < modeCode o →
            ∃ t, exec (.repart g m) s = .next (goesOn s t) ∧ (coreOf t u.me.core).mode = m ∧ t.me.seat = .slot (i * 2 ^ (modeCode o - modeCode m))
              ∧ (∀ r < 64, t.me.s.getD r 0 = if r < modeS m then u.me.s.getD r 0 else 0) ∧ (∀ r < 16, t.me.v.getD r 0 = if r < modeV m then u.me.v.getD r 0 else 0) ∧ t.mem = u.mem)))
    ∧ (∀ g m s u, Issues (sysIssue g [] [] .ill []) s u → u.me.did ≠ 0 → quiescent u (modeCode m) = true →
      ((coreOf u u.me.core).mode = m ∨ modeCode m < modeCode (coreOf u u.me.core).mode) → exec (.repart g m) s = .next (takeTrap s s.me.pc .priv false u.words))
    ∧ (∀ g (b : SReg) s u o, Issues (sysIssue g [b.val] [] .ill [.core]) s u → InScratchpad u (u.me.s.getD b.val 0) 32 o → poisonedAt u (spadKey u.me.core o) 32 = false →
      (u.me.did = 0 → ∃ t, exec (.slotset g b) s = .next (goesOn s t)
        ∧ (coreOf t u.me.core).pendTab = some ((memBytes u.mem (spadKey u.me.core o) 32).map (fun x => x.toNat)) ∧ (coreOf t u.me.core).pendGid = u.me.gid
        ∧ (coreOf t u.me.core).table = (coreOf u u.me.core).table ∧ t.me = u.me ∧ t.mem = u.mem)
      ∧ (u.me.did ≠ 0 → exec (.slotset g b) s = .next (takeTrap s s.me.pc .priv false u.words)))
    ∧ (∀ g (b : SReg) s u, Issues (sysIssue g [b.val] [] .run []) s u →
      ((domOf u u.me.did).sched = 0 → exec (.step g b) s = .next (goesOn s u))
      ∧ ((domOf u u.me.did).sched ≠ 0 → ∃ t, exec (.step g b) s = .next (goesOn s t)
        ∧ (domOf t u.me.did).stepc = max (domOf u u.me.did).stepc ((u.me.s.getD b.val 0).toNat % 2 ^ 32) ∧ t.me = u.me ∧ t.mem = u.mem))
    ∧ (∀ g (a b : SReg) s u, Issues (sysIssue g [a.val, b.val] [] .ret []) s u →
      (let base := (u.me.s.getD a.val 0).toNat
       let d := (u.me.s.getD b.val 0).toNat
       let did := d / 2 ^ 8 % 32
       let all := d / 2 ^ 16 % 2 = 1
       let lo := if all then 0 else base
       let hi := if all then 2 ^ 56 else base + 2 ^ (d % 64)
       d < 2 ^ 17 → d / 2 ^ 13 % 8 = 0 → d / 2 ^ 6 % 4 = 0 → did ≤ 20 → 12 ≤ d % 64 → d % 64 ≤ 56 → (all ∨ base % 2 ^ (d % 64) = 0) →
       (u.me.did ≠ 0 → exec (.tlbi g a b) s = .next (takeTrap s s.me.pc .priv false u.words) ∧ exec (.tlbsd g a b) s = .next (takeTrap s s.me.pc .priv false u.words))
       ∧ (u.me.did = 0 → u.me.posted = [] → s.live = true →
          (∃ t, exec (.tlbi g a b) s = .next (goesOn s t) ∧ t.me = { u.me with tck := max u.me.tck u.me.h } ∧ t.mem = u.mem
            ∧ ∀ x, x ∈ t.tlb ↔ x ∈ u.tlb ∧ ¬ (x.holder = u.me.core ∧ x.did = did ∧ x.va < hi ∧ lo < x.va + x.size))
          ∧ ((∀ x ∈ u.shoots, x.key ≠ u.me.key) → ∃ t, (exec (.tlbsd g a b) s = .next (goesOn s t) ∨ exec (.tlbsd g a b) s = .next { t with me := { t.me with wait := .retry, pre := some (snapshot s) } })
            ∧ (domOf t did).gen = ((domOf u did).gen + 1) % 2 ^ 32 ∧ t.me = { u.me with tck := max u.me.tck u.me.h }
            ∧ ((∀ x ∈ u.tlb, ¬ (x.did = did ∧ x.va < hi ∧ lo < x.va + x.size)) → u.bank = [] → usesOf u did = [] →
                exec (.tlbsd g a b) s = .next (goesOn s t))
            ∧ (∀ h ∈ usesOf u did, exec (.tlbsd g a b) s = .next { t with me := { t.me with wait := .retry, pre := some (snapshot s) } } ∧ ∃ y ∈ t.shoots, y.key = u.me.key ∧ h ∈ y.holders)
            ∧ (∀ x ∈ u.tlb, x.did = did → x.va < hi → lo < x.va + x.size → exec (.tlbsd g a b) s = .next { t with me := { t.me with wait := .retry, pre := some (snapshot s) } }
                ∧ ∃ y ∈ t.shoots, y.key = u.me.key ∧ y.did = did ∧ y.base = lo ∧ y.top = hi ∧ x.holder ∈ y.holders))
          ∧ (∀ x, u.shoots.find? (fun y => y.key == u.me.key) = some x → x.holders = [] →
            ∃ t, exec (.tlbsd g a b) s = .next (goesOn s t) ∧ t.me = u.me ∧ t.shoots = u.shoots.filter (fun y => y.key != u.me.key)))))
    ∧ (∀ s h x, s.boot.recovery = false → s.shoots = [x] → h ∈ x.holders → h < 4096 → holderUses s h x.did = false →
      ∃ t, exec (.shootdownHolderDrop h) s = .next t
        ∧ t.shoots = [{ x with holders := (bankHolders s x.did x.gen x.base x.top).foldl addNew (x.holders.filter (· != h)) }]
        ∧ (∀ y, y ∈ t.tlb ↔ y ∈ s.tlb ∧ ¬ (y.holder = h ∧ y.did = x.did ∧ y.va < x.top ∧ x.base < y.va + y.size)) ∧ t.me = s.me)
    ∧ (∀ s h x (i : Nat) (c : BankCmd) (j : Nat) (k : Chunk), s.boot.recovery = false → s.shoots = [x] → h ∈ x.holders → 4096 ≤ h → h < 5000 → holderUses s h x.did = false →
      s.bank[i]? = some c → bankMeets c x.did x.gen x.base x.top = true → c.chunks[j]? = some k → k.state = 0 → channelOf k.dst = h - 4096 →
      ∃ t, exec (.shootdownHolderDrop h) s = .next t
        ∧ ((t.bank[i]?).bind (fun (y : BankCmd) => y.chunks[j]?)).map (fun (x : Chunk) => (x.state, x.cause)) = some (2, causeCode .staleXlate))

/-- R236, R250 to R252, R280, R288: a range of no bytes does nothing, one beyond 2^24 bytes raises ILLEGAL. Each line's queued write-backs reach the arrays first; then CLNR writes lines back and keeps
them, FLSR writes them back and drops them, and INVR drops them; the lines get times above their leases, and INVR and FLSR raise the clock; PREF posts a prefetch for each line
that its checks pass and its slice lacks. That CLNR leaves wts and raises rts (log entry 53), that queued write-backs reach the arrays first, and that posted prefetches of dropped
lines go (log entry 88), are the model's choices. -/
def Obligations.RangeInstructions : Prop :=
  (∀ g (a b : SReg) s u, Issues (sysIssue g [a.val, b.val] [] .run [.core]) s u →
      (let st := (u.me.s.getD a.val 0).toNat
       let n := (u.me.s.getD b.val 0).toNat
       (n = 0 → exec (.clnr g a b) s = .next (goesOn s u) ∧ exec (.invr g a b) s = .next (goesOn s u) ∧ exec (.flsr g a b) s = .next (goesOn s u))
        ∧ (2 ^ 24 < n → onBank u = false ∨ st < 2 ^ 56 → (∀ i ∈ [Instr.clnr g a b, .invr g a b, .flsr g a b], exec i s = .next (takeTrap s s.me.pc .illegal false u.words)))
        ∧ (n ≠ 0 → n ≤ 2 ^ 24 → st + n ≤ 2 ^ 64 → (∀ p ∈ rangePages st n, stalls u (BitVec.ofNat 64 p) = false) → rangeTrap u .read (rangePages st n) = none → acked u .sys = true →
          ∃ t, exec (.clnr g a b) s = .next (goesOn s t) ∧ t.me.tck = max u.me.tck u.me.h ∧ (memOk u → (∀ w ∈ u.wq, w.data.length = 64) → (∀ x ∈ u.l2, x.data.length = 64) → ∀ l, homeLine t l = homeLine u l)
            ∧ (∀ l ∈ rangeLines u .read st n, (t.l2.find? (fun x => x.line == l)).any (fun x => x.dirty) = false ∧ (timesOf t l).wts = (timesOf u l).wts
                ∧ max u.me.tck u.me.h < (timesOf t l).rts ∧ (timesOf u l).rts < (timesOf t l).rts ∧ inL2 t l = inL2 u l))
        ∧ (n ≠ 0 → n ≤ 2 ^ 24 → st + n ≤ 2 ^ 64 → (∀ p ∈ rangePages st n, stalls u (BitVec.ofNat 64 p) = false) → rangeTrap u .write (rangePages st n) = none → acked u .sys = true →
          (∃ t, exec (.flsr g a b) s = .next (goesOn s t) ∧ (memOk u → (∀ w ∈ u.wq, w.data.length = 64) → (∀ x ∈ u.l2, x.data.length = 64) → L2Agrees u → ∀ l, homeLine t l = homeLine u l)
            ∧ (∀ q ∈ t.prefq, q ∈ u.prefq ∧ q.1 ∉ rangeLines u .write st n)
            ∧ (∀ l ∈ rangeLines u .write st n, inL2 t l = false ∧ (timesOf u l).rts < (timesOf t l).wts ∧ (timesOf t l).wts = (timesOf t l).rts
                ∧ max u.me.tck u.me.h < (timesOf t l).wts ∧ (timesOf t l).wts ≤ t.me.tck + 1))
          ∧ (∃ t, exec (.invr g a b) s = .next (goesOn s t) ∧ t.wq = u.wq.filter (fun w => !(rangeLines u .write st n).contains w.line)
            ∧ (memOk u → (∀ w ∈ u.wq, w.data.length = 64) → ∀ l, memBytes t.mem (64 * l) 64
                = match (u.wq.reverse.find? (fun w => w.line == l)).filter (fun _ => (rangeLines u .write st n).contains l) with
                  | some w => w.data
                  | none => memBytes u.mem (64 * l) 64)
            ∧ (∀ q ∈ t.prefq, q ∈ u.prefq ∧ q.1 ∉ rangeLines u .write st n)
            ∧ (∀ l ∈ rangeLines u .write st n, inL2 t l = false ∧ (timesOf u l).rts < (timesOf t l).wts ∧ (timesOf t l).wts = (timesOf t l).rts
                ∧ max u.me.tck u.me.h < (timesOf t l).wts ∧ (timesOf t l).wts ≤ t.me.tck + 1)))))
    ∧ (∀ g (a b : SReg) s u, Issues (sysIssue g [a.val, b.val] [] .run []) s u →
      (let st := (u.me.s.getD a.val 0).toNat
       let n := (u.me.s.getD b.val 0).toNat
       (n = 0 → exec (.pref g a b) s = .next (goesOn s u))
        ∧ (2 ^ 24 < n → exec (.pref g a b) s = .next (takeTrap s s.me.pc .illegal false u.words))
        ∧ (n ≠ 0 → n ≤ 2 ^ 24 → st + n ≤ 2 ^ 64 →
          ∃ t, exec (.pref g a b) s = .next (goesOn s t) ∧ t = { u with prefq := t.prefq } ∧ (∀ q ∈ t.prefq, q ∈ u.prefq ∨ q.2 = (u.me.did, holderOf u.me))
            ∧ ∀ l pa, st / 64 ≤ l → l ≤ (st + n - 1) / 64 → 64 * l < 2 ^ 56 → checkVa u (holderOf u.me) u.me.did (64 * l) .read false = .ok pa → inL2 u (pa / 64) = true ∨ (pa / 64) ∈ t.prefq.map Prod.fst)))

/-! ### Launches, regions, dispatch and seating -/

/-- R168, R172, R173, R175, R436: LAUNCH answers 3 for an invalid template, 2 for an exhausted region (R173) or while its partition is in reset, which step 1 of a reset begins (R436), 1 for a full share, and 0 once its record is
appended; the .W forms wait for room. A launch of no gangs completes at once. LAUNCH_PARK_RELEASE appends the record of a waiting strand; LAUNCHI_COUNT_READ reads the count. -/
def Obligations.Launches : Prop :=
  EachLaunch (fun mk ind park => ∀ g (a b c : SReg) s u o ri, Issues (launchIssue g a b c park) s u → InScratchpad u (u.me.s.getD b.val 0) 64 o →
    poisonedAt u (spadKey u.me.core o) 64 = false →
    (let p := pktOf (memVal u.mem (spadKey u.me.core o) 64)
     let n := (u.me.s.getD c.val 0).toNat
     let bd := boundDid u ri
     let r : Record := { id := u.nextId, die := u.me.core / 1024, did := bd.getD u.me.did, dom := u.me.did, pkt := p, n := n, indirect := ind,
                         tl := max u.me.tck u.me.h, count := if ind then none else some n, gidx := 0, task := 0 }
     p.getD 0 0 % 2 = 0 → p.getD 4 0 % 64 = 0 → regionInfo u u.me.did (BitVec.ofNat 64 (p.getD 4 0)) = .ok ri → (u.me.did = 0 ∨ ∀ d, bd = some d → d = u.me.did) →
     regionReadable u u.me.did (BitVec.ofNat 64 (p.getD 4 0)) = true →
     (ri.malformed = true ∨ pktValid p = false ∨ (ind = false ∧ 2 ^ 32 ≤ n) ∨ (ind = true ∧ n % 8 ≠ 0) → exec (mk g a b c) s = .next (goesOn s (setSreg u a.val 3)))
     ∧ (ri.malformed = false → pktValid p = true → (ind = false → n < 2 ^ 32) → (ind = true → n % 8 = 0) →
        (exhaustedInfo u u.me.did ri = true ∨ (domOf u u.me.did).pstate = 2 → exec (mk g a b c) s = .next (goesOn s (setSreg u a.val 2)))
        ∧ (exhaustedInfo u u.me.did ri = false → (domOf u u.me.did).pstate ≠ 2 → acked u .sys = true →
          (shareUsed u r.die u.me.did < (domOf u u.me.did).pls → SoundRegion u u.me.did (BitVec.ofNat 64 (p.getD 4 0)) → SoundRegion u r.did (BitVec.ofNat 64 (p.getD 4 0)) →
            ∃ t, exec (mk g a b c) s = .next (goesOn s t) ∧ t.me.s.getD a.val 0 = 0 ∧ t.me.tck = max u.me.tck u.me.h
              ∧ t.records = u.records ++ (if r.count = some 0 then [] else [r])
              ∧ (bd = none → kget? t.bound ri.rootPa = some u.me.did)
              ∧ (∀ pa, r.count = some 0 → p.getD 7 0 ≠ 0 → devCheck u r.did (BitVec.ofNat 64 (p.getD 7 0)) .write = .ok pa → pa % 64 + 8 ≤ 64 → pa < 2 ^ 40 →
                  (homeLine u (pa / 64)).length = 64 → memOk u → homeVal t pa 8 = 1))
          ∧ ((domOf u u.me.did).pls ≤ shareUsed u r.die u.me.did →
              (park = false → exec (mk g a b c) s = .next (goesOn s (setSreg u a.val 1)))
              ∧ (park = true → s.live = true → ∃ t, exec (mk g a b c) s = .next t
                  ∧ t.me = { u.me with tck := max u.me.tck u.me.h, wait := .launch, wnext := u.nextPc, wreg := a.val, pre := some (snapshot s) }
                  ∧ kget? t.parked u.me.key = some r ∧ t.records = u.records ∧ t.mem = u.mem))))))
  ∧ (∀ s r, Waits s .launch → kget? s.parked s.me.key = some r →
      ((domOf s r.dom).pls ≤ shareUsed s r.die r.dom → exec (.launchParkRelease s.me.key) s = .next s)
      ∧ (shareUsed s r.die r.dom < (domOf s r.dom).pls → SoundRegion s r.did (BitVec.ofNat 64 (r.pkt.getD 4 0)) → ∃ t, exec (.launchParkRelease s.me.key) s = .next t
          ∧ t.records = s.records ++ (if r.count = some 0 then [] else [r]) ∧ kget? t.parked s.me.key = none
          ∧ t.me.pc = s.me.wnext ∧ t.me.wait = .none ∧ (s.me.wreg < 64 → t.me.s.getD s.me.wreg 0 = 0)))
  ∧ (∀ s r x q, s.boot.recovery = false → s.regions[r]? = some x → regionRec s x.pa = some x → headRecord s x = some q →
      (q.count.isSome = true ∨ x.ready = none → exec (.launchiCountRead r) s = .next s)
      ∧ (∀ v n tm, q.count = none → x.ready.isSome = true → devRead s q.dom (BitVec.ofNat 64 q.n) 8 0 = .ok (v, n, tm) → n < 2 ^ 32 →
          (n ≠ 0 → exec (.launchiCountRead r) s = .next { v with records := mapIf (fun k => k.id == q.id) (fun k => { k with count := some n, tl := max k.tl tm }) v.records })
          ∧ (n = 0 → ∃ t, exec (.launchiCountRead r) s = .next t ∧ (∀ k ∈ t.records, k ∈ s.records ∧ k.id ≠ q.id)
              ∧ (q.pkt.getD 7 0 = 0 → (∀ ri, regionInfo v x.did x.addr = .ok ri → ri.malformed = false) → t.records = s.records.filter (fun k => k.id != q.id)))))

/-- R164 to R166, R170 to R172, R174 to R178, R189: a Maltster sends one gang of its ready region to the core that placement picks, with the next GID; it reads a launch word, and the BUDGET
with it, under the DID that the region is bound to, and the fence words, and ages a region. SEAT_ENTRY seats the oldest entry of a DID: every strand of a gang at once, as R37 and R169 start them, or a strand saved or migrated. That a launch word whose region its bound DID has elsewhere is no region's (log entry 45), that the
next GID and SID count up from the last (log entry 2), that entries take the lowest free slots, and that a fault of any kind of a fence word fails the region with XLATE (log entry 94), are the model's choices. -/
def Obligations.RegionsAndSeating : Prop :=
  (∀ s die, s.boot.recovery = false → (∀ x ∈ s.regions, x.ready = none) → exec (.maltsterDispatch die) s = .next s)
  ∧ (∀ s die x id k ri, s.boot.recovery = false → s.regions = [x] → x.ready.isSome = true → x.failed = false → x.die = die → x.cur = some id →
      s.tasks.find? (fun t => t.id == id) = some k → k.allSent = false → headRecord s x = none → regionInfo s x.did x.addr = .ok ri →
      ri.malformed = false → regionExhausted s x.did x.addr = false → resetting s x.did = false → resetting s ((boundDid s ri).getD x.did) = false → resetting s k.did = false →
      (∀ g, x.ready = some g → (s.gtc - g) / 2 ^ 20 ≤ x.boost ∨ 7 ≤ ri.prio + x.boost) →
      (∀ c, placement s die k.did k.pkt = .core c → ∃ t l gid, exec (.maltsterDispatch die) s = .next t ∧ t.nextGid = gid + 1 ∧ t.me = s.me
        ∧ (s.nextGid % 2 ^ 32 ≠ 0 → s.nextGid % 2 ^ 32 ∉ gidsUsed s → gid = s.nextGid % 2 ^ 32) ∧ gid < 2 ^ 32
        ∧ (coreOf t c).runq = (coreOf s c).runq ++ .gang k.did (k.pkt.set 2 (bits (k.pkt.getD 2 0) 31 0 + k.placed * 2 ^ 32)) k.ts gid id :: l)
      ∧ (placement s die k.did k.pkt = .full → ∃ t, exec (.maltsterDispatch die) s = .next t ∧ t.cores = s.cores ∧ t.tasks = s.tasks ∧ t.nextGid = s.nextGid))
  ∧ (∀ s (d : Fin 32) (va : Word) ri s1 v tm, s.boot.recovery = false → regionInfo s d.val va = .ok ri → devRead s d.val (va + 0x80) 24 0 = .ok (s1, v, tm) →
      (boundDid s ri = some d.val ∨ (boundDid s ri = none ∧ ∀ o, rangeOf s ri.pa = some o → o < 21 → o = d.val)) →
      (bits v 63 0 ≤ bits v 127 64 → regionRec s ri.pa = none → exec (.launchWordWatch (va.toNat * 32 + d.val)) s = .next s)
      ∧ (∀ x, regionRec s ri.pa = some x → va.toNat % 64 = 0 → SoundRegion s d.val va → ∃ t y, exec (.launchWordWatch (va.toNat * 32 + d.val)) s = .next t ∧ regionRec t ri.pa = some y
          ∧ y.pub = bits v 63 0 ∧ (∀ i, (∀ p ∈ x.pubs, p.1 ≤ i) → x.pub < bits v 63 0 → i < bits v 63 0 → pubTime y i = tm)
          ∧ (∀ i, (∃ p ∈ x.pubs, i < p.1) → i < bits v 63 0 → pubTime y i = pubTime x i) ∧ (x.cur = none → y.ndone = bits v 127 64) ∧ t.me = s.me
          ∧ (bits v 191 128 = 0 → bits v 127 64 < bits v 63 0 → 2 ^ bits (ri.rcb.getD 6 0) 4 0 < bits v 63 0 - bits v 127 64 → y.failed = true)
          ∧ y.budget = ri.budget))
  ∧ (∀ s (d : Fin 32) (va : Word) ri b rb, s.boot.recovery = false → regionInfo s d.val va = .ok ri → boundDid s ri = some b → b ≠ d.val → regionInfo s b va = .ok rb → rb.pa ≠ ri.pa →
      exec (.launchWordWatch (va.toNat * 32 + d.val)) s = .next s)
  ∧ (∀ s r x ri, s.boot.recovery = false → s.regions[r]? = some x → regionRec s x.pa = some x → x.failed = false → regionInfo s x.did x.addr = .ok ri → SoundRegion s x.did x.addr → L2Agrees s →
      (∀ v ok tm, readDeps s x ri.rcb (bits (ri.rcb.getD 1 0) 34 32) 0 = .ok (v, ok, tm) → ∃ t y, exec (.regionDependenceReread r) s = .next t ∧ regionRec t x.pa = some y
        ∧ y.depsOk = ok ∧ y.tDep = max x.tDep tm ∧ t.me = s.me)
      ∧ (∀ c, readDeps s x ri.rcb (bits (ri.rcb.getD 1 0) 34 32) 0 = .error c → ∃ t y, exec (.regionDependenceReread r) s = .next t ∧ regionRec t x.pa = some y ∧ y.failed = true))
  ∧ (∀ s r x, s.boot.recovery = false → s.regions[r]? = some x → regionRec s x.pa = some x →
      (x.ready = none → exec (.priorityAging r) s = .next s)
      ∧ (∀ g ri, x.ready = some g → regionInfo s x.did x.addr = .ok ri →
          (s.gtc < g + 2 ^ 20 * (x.boost + 1) ∨ 7 ≤ ri.prio + x.boost → exec (.priorityAging r) s = .next s)
          ∧ (g + 2 ^ 20 * (x.boost + 1) ≤ s.gtc → ri.prio + x.boost < 7 → ∃ t y, exec (.priorityAging r) s = .next t ∧ regionRec t x.pa = some y
              ∧ (y.boost = min ((s.gtc - g) / 2 ^ 20) (7 - ri.prio) ∨ y.ready = none))))
  ∧ (∀ s c d, s.boot.recovery = false → c < 4096 → (domOf s d).pstate ≠ 2 → exposed s c = true → wsCopy s c d = false →
      (oldestOf s (coreOf s c).runq d = none → exec (.seatEntry c d) s = .next s)
      ∧ (∀ d' p ts gid task, oldestOf s (coreOf s c).runq d = some (.gang d' p ts gid task) → bits (p.getD 2 0) 15 0 ≤ (freeSlots s c d).length →
          ∃ t l, exec (.seatEntry c d) s = .next t ∧ t.others = s.others ++ l ∧ l.length = bits (p.getD 2 0) 15 0 ∧ t.nextSid = (freeIds (sidsUsed s) (bits (p.getD 2 0) 15 0) s.nextSid).getLastD 0 + 1
            ∧ (coreOf t c).runq = dropEntry (coreOf s c).runq (.gang d' p ts gid task) ∧ t.me = s.me ∧ t.mem = s.mem
            ∧ ∀ j m, l[j]? = some m →
                m.seat = .slot ((freeSlots s c d).getD j 0) ∧ m.core = c ∧ m.did = d ∧ m.sid = (freeIds (sidsUsed s) (bits (p.getD 2 0) 15 0) s.nextSid).getD j 0 ∧ m.gid = gid ∧ m.task = task
                ∧ m.rank = (bits (p.getD 2 0) 31 16 + bits (p.getD 2 0) 63 32 * bits (p.getD 2 0) 15 0 + j) % 2 ^ 16
                ∧ m.pc = BitVec.ofNat 64 (p.getD 0 0) ∧ m.s.getD 0 0 = BitVec.ofNat 64 (p.getD 1 0) ∧ m.s.getD 1 0 = BitVec.ofNat 64 m.rank
                ∧ (∀ i, 2 ≤ i → m.s.getD i 0 = 0) ∧ (∀ i, m.v.getD i 0 = 0) ∧ m.p = 0x80000000#32 ∧ m.tck = ts ∧ m.h = ts ∧ m.sf = ts ∧ m.ydl = p.getD 5 0
                ∧ m.th = false ∧ m.wait = .none)
      ∧ (∀ k m, oldestOf s (coreOf s c).runq d = some (.migrated k) → 1 ≤ (freeSlots s c d).length → strandOf s k = some m → (∀ q ∈ s.packets, q.1.key ≠ k) → m.area = none →
          ∃ t m', exec (.seatEntry c d) s = .next t ∧ strandOf t k = some m'
            ∧ m' = { m with seat := .slot ((freeSlots s c d).headD 0), chargedAt := s.gtc, h := m.tck, sf := m.tck }
            ∧ (coreOf t c).runq = dropEntry (coreOf s c).runq (.migrated k))
      ∧ (∀ k m a u, oldestOf s (coreOf s c).runq d = some (.saved k) → 1 ≤ (freeSlots s c d).length → strandOf s k = some m → (∀ q ∈ s.packets, q.1.key ≠ k) → m.area = some a → wsCopy s c m.did = false →
          modeCode (savedMode s m) ≤ modeCode (coreOf s c).mode → reseatReady s k = true → ∀ w,
          restoreFrom (takeSlots (updCore s c (fun cs => { cs with runq := dropEntry cs.runq (.saved k) })) c d [(freeSlots s c d).headD 0]) m m.did a = .ok (w, u) →
          ∃ t m', exec (.seatEntry c d) s = .next t ∧ strandOf t k = some m' ∧ m'.seat = .slot ((freeSlots s c d).headD 0) ∧ m'.area = none
            ∧ m'.pc = u.pc ∧ m'.s = u.s ∧ m'.v = u.v ∧ m'.p = u.p ∧ m'.tck = u.tck))

/-! ### Events at an instruction boundary -/

/-- R24, R28, R31, R59 to R61, R179, R191, R194, R397: at an instruction boundary, and not within an instruction that has begun, a held cause is delivered, with ASYNC, unless TH is 1; a chain that is no instruction raises ILLEGAL with
its words, a fetch that faults the fetch's cause; a strand that overruns its YIELD ends, and so does a handler, its sender receiving the cause; a strand whose writes are acknowledged leaves its bank core
as a packet, its clock at its horizon (R265). -/
def Obligations.BoundaryEvents : Prop :=
  (∀ s c v rest, s.boot.recovery = false → Between s → s.me.async = (c, v) :: rest →
    (s.me.th = true → exec .asyncCauseDelivery s = .next s)
    ∧ (CanTrap s → c ≠ .staleXlate → c ≠ .poison →
        exec .asyncCauseDelivery s = .next (entered (stayHere (leaveLines { s with me := { s.me with async := rest } })) s.me.pc (causeCode c) true v)))
  ∧ (∀ s, s.boot.recovery = false → s.me.async = [] ∨ ((s.me.wait = .retry ∨ s.me.wait = .again) ∧ s.me.pre ≠ none) → exec .asyncCauseDelivery s = .next s)
  ∧ (∀ s w, s.boot.recovery = false → Between s → CanTrap s → exec (.illegalEncoding w) s = .next (entered (stayHere (leaveLines s)) s.me.pc 0x01 false w))
  ∧ (∀ s c v, s.boot.recovery = false → Between s → CanTrap s → c ≠ .staleXlate → c ≠ .poison →
      exec (.instructionFetchFault c v) s = .next (entered (stayHere (leaveLines s)) s.me.pc (causeCode c) false v))
  ∧ (∀ s, s.boot.recovery = false → Between s → s.me.seat ≠ .handler →
      (s.me.ydl = 0 → onBank s = false → ∃ t, exec .yieldOverrun s = .next t ∧ t.live = false) ∧ (s.me.ydl ≠ 0 ∨ onBank s = true → exec .yieldOverrun s = .next s))
  ∧ (∀ s, s.boot.recovery = false → Between s → s.me.seat = .handler →
      (s.me.ydl ≠ 0 → exec .handlerOverrun s = .next s)
      ∧ (s.me.ydl = 0 → ∃ t, exec .handlerOverrun s = .next t ∧ t.live = false
          ∧ ∀ k m, s.me.caller = some k → k ≠ s.me.key → (∀ p ∈ s.packets, p.1.key ≠ k) → s.others.find? (fun x => x.key == k) = some m →
              ∃ m', t.others.find? (fun x => x.key == k) = some m' ∧ kget? m'.ends (2 ^ 65 + 2) = some 0x10))
  ∧ (∀ s ch n, s.boot.recovery = false → Between s → s.me.seat = .bank ch n → s.me.th = false →
      (s.me.posted ≠ [] → exec .bankReturnTrap s = .next { s with me := { s.me with wait := .retry } })
      ∧ (s.me.posted = [] → (∀ p ∈ s.packets, p.1.key ≠ s.me.key) →
      ∃ t m dest, exec .bankReturnTrap s = .next t ∧ t.live = false ∧ t.packets = s.packets ++ [(m, dest)] ∧ m.key = s.me.key ∧ m.pc = s.me.pc ∧ m.s = s.me.s ∧ m.v = s.me.v ∧ m.p = s.me.p
        ∧ m.tck = max (undoPre s).me.tck s.me.h ∧ m.h = m.tck ∧ m.sf = m.tck ∧ m.tcause = 0 ∧ m.tval = 0 ∧ m.tpc = 0 ∧ m.mon = none ∧ m.seat = .none ∧ m.area = none))

/-! ### The calendar -/

/-- R172, R255 to R262, R284, R447, R456: the calendar's events come in the order of their ticks, each once; the start of a minor slot reads
the budgets of the regions again; the start of a major slot counts it, brings the ports up, puts spares in place, and rebases every clock by 2^46 when one is high; at a drain deadline copies park, running bank commands are cut off and bank cores are left; at an interval's end
what is parked resumes. That every port that is down comes up at the start of a major slot is the model's choice (log entry 62): R456 says only that it comes up in no other slot. -/
def Obligations.CalendarEvents : Prop :=
  (∀ m, m < (nextCal m).1 ∧ calAt (nextCal m).1 = some (nextCal m).2 ∧ ∀ t, m < t → t < (nextCal m).1 → calAt t = none)
  ∧ (∀ s, s.boot.recovery = false →
      (calDue s ≠ some .minor → exec .minorSlotStart s = .next s) ∧ (calDue s ≠ some .major → exec .majorSlotStart s = .next s)
      ∧ (calDue s ≠ some .drain → exec .drainDeadline s = .next s) ∧ (calDue s ≠ some .done → exec .intervalEnd s = .next s)
      ∧ (calDue s = some .minor → ∃ t, exec .minorSlotStart s = .next t ∧ t.calMark = (nextCal s.calMark).1 ∧ t.gtc = s.gtc
          ∧ ((∀ x ∈ s.regions, x.failed = true) → s.health.overrun = [] →
            t = { s with calMark := t.calMark, fresh := t.fresh, doms := t.doms, regions := t.regions } ∧ t.regions.map (fun r => { r with budget := 0 }) = s.regions.map (fun r => { r with budget := 0 })
            ∧ ((s.regions.map (fun r => r.pa)).Nodup → ∀ x ∈ t.regions, ∀ ri, regionInfo s x.did x.addr = .ok ri → x.budget = ri.budget)
            ∧ domOf t 0 = { domOf s 0 with energy := (domOf t 0).energy } ∧ ∀ d, d ≠ 0 → domOf t d = domOf s d))
      ∧ (calDue s = some .major → ∃ t, exec .majorSlotStart s = .next t ∧ t.calMark = (nextCal s.calMark).1 ∧ t.gtc = s.gtc ∧ t.majn = s.majn + 1 ∧ t.rblast = timesHigh s
          ∧ (∀ e ∈ t.ports, e.2.up = true) ∧ (∀ e ∈ s.ports, e.2.up = true → e ∈ t.ports)
          ∧ (∀ e ∈ s.ports, e.2.up = false → ∃ x ∈ t.ports, x.1 = e.1 ∧ x.2.lanes = 2 ∧ x.2.replays = e.2.replays ∧ x.2.switch = (Config.switchId s.fresh e.1).toNat)
          ∧ (timesHigh s = false → t.era = s.era ∧ ((∀ x ∈ s.regions, x.failed = true) → t.me = s.me))
          ∧ (timesHigh s = true → t.era = (s.era + 1) % 2 ^ 16 ∧ (∀ c, (coreOf t c).l1 = [])
              ∧ ((∀ x ∈ s.regions, x.failed = true) → t.me.tck = s.me.tck - 2 ^ 46 ∧ t.me.h = s.me.h - 2 ^ 46 ∧ t.me.sf = s.me.sf - 2 ^ 46 ∧ t.me.s = s.me.s))
          ∧ (∀ c, s.health.pending = [c] → s.regions = [] → 0 < s.health.spares.getD (c / 1024) 0 →
              (topoOf t c).present = true ∧ t.health.pending = [] ∧ t.health.spares = s.health.spares.set (c / 1024) (s.health.spares.getD (c / 1024) 0 - 1)
              ∧ (∀ o, o < 2 ^ 18 → memGet t.mem (spadKey c o) = 0) ∧ (∀ o, o < 2 ^ 20 → memGet t.mem (wsKey c o) = 0)))
      ∧ (calDue s = some .drain → ∃ t, exec .drainDeadline s = .next t ∧ t.calMark = (nextCal s.calMark).1
          ∧ (∀ c, ∀ k ∈ (coreOf t c).copies, k.parked = true) ∧ (∀ c ∈ t.bank, c.begun = true → ∀ k ∈ c.chunks, k.state ≠ 0)
          ∧ (s.others = [] → s.live = true → (∃ ch n, s.me.seat = .bank ch n) → s.me.posted = [] → (s.me.th = true → inInterval s.gtc = false) → t.live = false))
      ∧ (calDue s = some .done → ∃ t, exec .intervalEnd s = .next t ∧ t.calMark = (nextCal s.calMark).1 ∧ t.me = s.me ∧ t.mem = s.mem
          ∧ (∀ c, ∀ k ∈ (coreOf t c).copies, k.parked = false) ∧ (∀ c x, (ctxOf t c x).state ≠ 5)))

/-! ### Partitions and the monitor's registers -/

/-- R436, R437, R439, R446, R447, R449: a partition reset asked for stops all that is the partition's, ends its claims, and writes a record with the count of resets, the cause and the
trigger; without a request nothing happens. A fatal error takes its unit out of service: a core waits for a spare or the package is DEGRADED, and its users are reset. The model's
choices are that the zeroings that ended claims wait for outlive the reset (log entry 35), that the commands of a strand that only stood in a gate of the partition do (log entry 59), and
who the users of a slice and of a bank core are and what becomes of these units (log entry 68). -/
def Obligations.ResetsAndFatalErrors : Prop :=
  (∀ s d, s.boot.recovery = false →
    (s.resets.find? (fun r => r.did == d) = none → exec (.partitionReset d) s = .next s)
    ∧ (∀ r, s.resets.find? (fun r => r.did == d) = some r → ∃ t, exec (.partitionReset d) s = .next t
        ∧ (domOf t d).pstate = 1 ∧ (∀ q ∈ t.resets, q.did ≠ d) ∧ (∀ c, (∀ k ∈ (coreOf t c).copies, k.did = d → ∃ m ∈ strands s ++ travellers s, m.key = k.key ∧ m.dead = false ∧ belongs d m = false)
            ∧ (∀ k ∈ (coreOf t c).matq, k.did = d → zeroes k.op = true ∨ ∃ m ∈ strands s ++ travellers s, m.key = k.key ∧ m.dead = false ∧ belongs d m = false)
            ∧ ∀ e ∈ (coreOf t c).claims, e.2 ≠ d)
        ∧ (((strands s).map (fun m => m.key)).Nodup → ∀ m ∈ strands t, belongs d m = false)
        ∧ ((domOf s d).rrn = 0 → (domOf s d).resrec % 64 = 0 → namesDram (domOf s d).resrec = true → memOk s →
            homeVal t (domOf s d).resrec 8 = ((domOf s d).resets + 1) % 2 ^ 64 ∧ homeVal t ((domOf s d).resrec + 16) 8 = (r.cause + r.trig * 2 ^ 8) % 2 ^ 64)))
  ∧ (∀ s c, s.boot.recovery = false →
      ((topoOf s c).present = false → exec (.fatalError (.core c)) s = .next s)
      ∧ ((topoOf s c).present = true → ∃ t, exec (.fatalError (.core c)) s = .next t ∧ (topoOf t c).present = false
          ∧ (pendingOn s (c / 1024) < s.health.spares.getD (c / 1024) 0 → c ∈ t.health.pending)
          ∧ (s.health.spares.getD (c / 1024) 0 ≤ pendingOn s (c / 1024) → 2 ≤ t.health.state ∧ t.health.repl = true)
          ∧ (∀ d ∈ coreUsers s c, d ≠ 0 → ∃ q ∈ t.resets, q.did = d) ∧ (0 ∉ coreUsers s c → t.mem = s.mem)))
  ∧ (∀ s h, s.boot.recovery = false → ∃ t, exec (.fatalError (.slice h)) s = .next t ∧ h ∈ t.health.deadSl
      ∧ (∀ l ∈ t.l2, sliceOf (64 * l.line) ≠ h) ∧ (∀ d ∈ sliceUsers s h, d ≠ 0 → ∃ q ∈ t.resets, q.did = d))
  ∧ (∀ s ch, s.boot.recovery = false → ∃ t, exec (.fatalError (.bank ch)) s = .next t ∧ ch ∈ t.health.deadBk
      ∧ (∀ d ∈ bankUsers s ch, d ≠ 0 → ∃ q ∈ t.resets, q.did = d))

/-- R226, R239, R335, R420 to R425, R430, R436, R451: stores of DID 0 to the partition registers: a word in force, a slot's owner, banks and granules that pass zeroed, claims taken back,
quotas, shares, schedules, resets, creation, host ports; one that clashes with another DID changes nothing. -/
def Obligations.PartitionRegisters : Prop :=
  (∀ s (d : Fin 21) (v : Word), s.boot.recovery = false →
    exec (.partitionRegisterWrite (BitVec.ofNat 64 (0xFF00000400000000 + 256 * d.val)) v) s = .next (updDom s d.val (fun b => { b with troot := v.toNat / 2 ^ 12 % 2 ^ 36 * 4096 }))
    ∧ exec (.partitionRegisterWrite (BitVec.ofNat 64 (0xFF00000400000000 + 256 * d.val + 16)) v) s = .next (updDom s d.val (fun b => { b with tvec := v &&& ~~~ 1#64 }))
    ∧ ((4 ≤ v.toNat % 16 ∧ v.toNat % 16 ≤ 12) →
        exec (.partitionRegisterWrite (BitVec.ofNat 64 (0xFF00000400000000 + 256 * d.val + 8)) v) s = .next (updDom s d.val (fun b => { b with llease := v.toNat % 16 })))
    ∧ (¬ (4 ≤ v.toNat % 16 ∧ v.toNat % 16 ≤ 12) → exec (.partitionRegisterWrite (BitVec.ofNat 64 (0xFF00000400000000 + 256 * d.val + 8)) v) s = .next s)
    ∧ (∃ t, exec (.schedWrite d.val v) s = .next t ∧ (domOf t d.val).sched = v.toNat ∧ (domOf t d.val).stepc = 0
        ∧ (domOf t d.val).sched' = (if v = 0 then [] else readSched s v.toNat) ∧ t.me = s.me ∧ t.mem = s.mem)
    ∧ (∀ p : Fin 2, ∃ t, exec (.hportWrite d.val p.val) s = .next t ∧ (domOf t d.val).hport = p.val ∧ t.me = s.me ∧ t.mem = s.mem)
    ∧ (∃ t, exec (.partitionResetRequest d.val) s = .next t ∧ t.me = s.me ∧ t.mem = s.mem
        ∧ (if d.val ≠ 0 ∧ (domOf s d.val).pstate = 1 then s.resets.any (fun r => r.did == d.val) = false → (domOf t d.val).pstate = 2 ∧ t.resets = s.resets ++ [⟨d.val, 0x06, 1, []⟩]
           else (domOf t d.val).pstate = (domOf s d.val).pstate ∧ t.resets = s.resets))
    ∧ (∃ t, exec (.partitionCreate d.val) s = .next t ∧ t.me = s.me ∧ t.mem = s.mem ∧ t.resets = s.resets
        ∧ (if d.val ≠ 0 ∧ (domOf s d.val).pstate = 0 then (domOf t d.val).pstate = 1 ∧ (domOf t d.val).cnt = [0, 0, 0, 0, 0, 0] ∧ (domOf t d.val).resets = 0
           else (domOf t d.val).pstate = (domOf s d.val).pstate ∧ (domOf t d.val).cnt = (domOf s d.val).cnt)))
  ∧ (∀ s c n d, s.boot.recovery = false → c < 4096 → OwnersOk s c → n < modeSlots (coreOf s c).mode - 1 → (d ≤ 20 ∨ d = 0x1F) →
      ∃ t, exec (.slotownWrite c n d) s = .next t ∧ (coreOf t c).slotown = (coreOf s c).slotown.set n d
        ∧ (coreOf t c).curown.getD n 0x1F = (if slotEmpty s c n then d else (coreOf s c).curown.getD n 0x1F) ∧ t.me = s.me ∧ t.mem = s.mem)
  ∧ (∀ s c d, s.boot.recovery = false → SharesOk s c d →
      (∀ m : BitVec 16,
        ((∃ e < 21, e ≠ d ∧ (domCore s c e).spbank &&& m.toNat ≠ 0) → exec (.spbankWrite c d m) s = .next s)
        ∧ ((∀ e < 21, e ≠ d → (domCore s c e).spbank &&& m.toNat = 0) → ∃ t, exec (.spbankWrite c d m) s = .next t ∧ (domCore t c d).spbank = m.toNat ∧ t.me = s.me ∧ t.mem = s.mem
            ∧ ∀ b < 16, bit m.toNat b = true → bit (domCore s c d).spbank b = false → (b, d, s.nextId + 1) ∈ (coreOf t c).handover)
        ∧ ((∃ e < 21, e ≠ d ∧ (domCore s c e).wsg &&& m.toNat ≠ 0) → exec (.wsgWrite c d m) s = .next s)
        ∧ ((∀ e < 21, e ≠ d → (domCore s c e).wsg &&& m.toNat = 0) → ∃ t, exec (.wsgWrite c d m) s = .next t ∧ (domCore t c d).wsg = m.toNat ∧ t.me = s.me
            ∧ ∀ b < 16, bit m.toNat b = true → bit (domCore s c d).wsg b = false → ∀ o < 2 ^ 16, memGet t.mem (wsKey c (b * 2 ^ 16 + o)) = 0)
        ∧ (∃ t l, exec (.frelm c d m) s = .next t ∧ t.me = s.me ∧ t.mem = s.mem ∧ (coreOf t c).matq = (coreOf s c).matq ++ l
            ∧ ∀ i < 32, kget? (coreOf t c).claims i = if i < 16 ∧ bit m.toNat i = true ∧ kget? (coreOf s c).claims i = some d then none else kget? (coreOf s c).claims i))
      ∧ (∀ m : BitVec 8, ∃ t l, exec (.frelc c d m) s = .next t ∧ t.me = s.me ∧ t.mem = s.mem ∧ (coreOf t c).matq = (coreOf s c).matq ++ l
            ∧ ∀ i < 32, kget? (coreOf t c).claims i = if 16 ≤ i ∧ bit m.toNat (i - 16) = true ∧ kget? (coreOf s c).claims i = some d then none else kget? (coreOf s c).claims i)
      ∧ (∀ n < 128,
        ((List.range 21).foldl (fun a e => a + if e = d then n else (domCore s c e).mbox) 0 ≤ 64 → (kget (coreOf s c).mbox d []).length ≤ n →
            ∃ t, exec (.mboxWrite c d n) s = .next t ∧ (domCore t c d).mbox = n ∧ t.me = s.me ∧ t.mem = s.mem)
        ∧ (64 < (List.range 21).foldl (fun a e => a + if e = d then n else (domCore s c e).mbox) 0 ∨ n < (kget (coreOf s c).mbox d []).length → exec (.mboxWrite c d n) s = .next s)
        ∧ ((List.range 21).foldl (fun a e => a + if e = d then n else (domCore s c e).strq) 0 ≤ 64 →
            ∃ t, exec (.strqWrite c d n) s = .next t ∧ (domCore t c d).strq = n ∧ (n ≠ 0 → t.me = s.me ∧ t.mem = s.mem))
        ∧ (64 < (List.range 21).foldl (fun a e => a + if e = d then n else (domCore s c e).strq) 0 → exec (.strqWrite c d n) s = .next s)))

/-- R237, R424, R449, R461, R463, R464, R465: a set range in force drops the lines of the sets it gives up and keeps each value at its home; WCLR clears WARN with the health interrupt; a
bias flip of a page drops its lines with times above its leases; an interrupt request is sent at once, merged, or kept until its delay expires, and one of a masked vector sets its
pending bit; one for another DID's function, or for a vector beyond the function's table, does nothing. That CCOUNT 0 sets no limit, that a merged request counts, and the size of a
function's table are the model's (log entry 16); so is the reading that the bitmap is written as any store at its home is (log entry 11). -/
def Obligations.SetsBiasAndInterrupts : Prop :=
  (∀ s h i (v : Word), s.boot.recovery = false → h < 1024 → i < 32 →
    (let k := bits v.toNat 19 16
     let b := bits v.toNat 8 0
     (9 < k ∨ b % 2 ^ k ≠ 0 → exec (.setRangeWrite h i v) s = .next s)
     ∧ (k ≤ 9 → b % 2 ^ k = 0 → (bit v.toNat 31 = false ∨ ∀ j < 32, j ≠ i → bit (kget s.sets (h * 32 + j) 0) 31 = true →
            b + 2 ^ k ≤ bits (kget s.sets (h * 32 + j) 0) 8 0 ∨ bits (kget s.sets (h * 32 + j) 0) 8 0 + 2 ^ bits (kget s.sets (h * 32 + j) 0) 19 16 ≤ b) →
          ∃ t, exec (.setRangeWrite h i v) s = .next t ∧ kget t.sets (h * 32 + i) 0 = b + k * 2 ^ 16 + b2n (bit v.toNat 31) * 2 ^ 31 ∧ t.me = s.me ∧ t.mem = s.mem
            ∧ (L2Agrees s → (s.l2.map (fun x => x.line)).Nodup → ∀ l, homeLine t l = homeLine s l)
            ∧ (∀ l ∈ t.l2, l.range = i → sliceOf (64 * l.line) = h → bit v.toNat 31 = true ∧ b ≤ l.set ∧ l.set < b + 2 ^ k))))
  ∧ (∀ s, s.boot.recovery = false →
      (s.health.state = 1 → ∃ t, exec .healthWclr s = .next t ∧ t.health.state = 0 ∧ t.health.intr = s.health.intr + 1 ∧ t.me = s.me
          ∧ t.host.sent = s.host.sent ++ [(512, 0), (513, 0)].filter (fun e => !s.host.masked.contains e)
          ∧ ∀ e ∈ [(512, 0), (513, 0)], s.host.masked.contains e = true → t.host.pba.contains e = true)
      ∧ (s.health.state ≠ 1 → exec .healthWclr s = .next s))
  ∧ (∀ s d page host, CanFlip s d page →
      (page < 2 ^ 48 → ∃ t, exec (.biasFlipRequest (BitVec.ofNat 64 (page + b2n host))) s = .next t ∧ Flipped s t d page host)
      ∧ (∀ ld pg d', kget? s.host.ld ld = some d' → hdmPa (pg * 4096) (domOf s d').ranges = some page →
          ∃ t, exec (.hostBiasFlipCommand ld pg host) s = .next t ∧ Flipped s t d page host))
  ∧ (∀ s ld pg host, s.boot.recovery = false → kget? s.host.ld ld = none → exec (.hostBiasFlipCommand ld pg host) s = .next (hostReply s none))
  ∧ (∀ s (v : Word), s.boot.recovery = false →
      (let f := bits v.toNat 9 0
       let e := (f, bits v.toNat 26 16)
       let b := domOf s s.me.did
       (bits v.toNat 15 10 ≠ 0 ∨ bits v.toNat 63 27 ≠ 0 ∨ funcDid s f ≠ some s.me.did ∨ (Config.msixLast f).val < e.2 → exec (.interruptRequest v) s = .next s)
       ∧ (bits v.toNat 15 10 = 0 → bits v.toNat 63 27 = 0 → funcDid s f = some s.me.did → e.2 ≤ (Config.msixLast f).val →
          ∃ t, exec (.interruptRequest v) s = .next t ∧ t.me = s.me ∧ t.mem = s.mem
            ∧ (let q := if b.msi.contains e then b.msi else b.msi ++ [e]
               if b.ctime = 0 ∨ (b.ccount ≠ 0 ∧ b.ccount ≤ b.msiN + 1) then t.host.sent = s.host.sent ++ q.filter (fun x => !s.host.masked.contains x)
                 ∧ (∀ x ∈ q, s.host.masked.contains x = true → t.host.pba.contains x = true)
                 ∧ (domOf t s.me.did).msi = [] ∧ (domOf t s.me.did).msiN = 0 ∧ (domOf t s.me.did).mstart = none
               else t.host.sent = s.host.sent ∧ (domOf t s.me.did).msi = q ∧ (domOf t s.me.did).msiN = b.msiN + 1 ∧ (domOf t s.me.did).mstart = some (b.mstart.getD s.gtc)))))
  ∧ (∀ s d, s.boot.recovery = false →
      ((∀ g, (domOf s d).mstart = some g → s.gtc < g + 64 * (domOf s d).ctime) → exec (.interruptCoalesceExpiry d) s = .next s)
      ∧ (∀ g, (domOf s d).mstart = some g → g + 64 * (domOf s d).ctime ≤ s.gtc → ∃ t, exec (.interruptCoalesceExpiry d) s = .next t
          ∧ t.host.sent = s.host.sent ++ (domOf s d).msi.filter (fun x => !s.host.masked.contains x)
          ∧ (∀ x ∈ (domOf s d).msi, s.host.masked.contains x = true → t.host.pba.contains x = true)
          ∧ (domOf t d).msi = [] ∧ (domOf t d).msiN = 0 ∧ (domOf t d).mstart = none ∧ t.me = s.me))

/-! ### The host, other packages, the package as a whole -/

/-- R262, R458 to R460, R462, R463: a host write is performed at its home above the host clock, a host read returns the home's bytes; outside the HDM each is an error; one whose home
must wait for DRAM waits, and a write without the relaxed-ordering attribute waits behind such a write of its function and port. Logical devices and virtual
functions are bound to DIDs; a host port whose lanes fail trains to x8 or x4. That a page in host bias, for which R460 gives nothing, is written and read as any other (log
entry 63), and that a read passes the writes of its function that wait (log entry 64), are the model's choices. -/
def Obligations.HostAccesses : Prop :=
  (∀ s fn port ld addr (data : List Byte) ro, s.boot.recovery = false → hostPieces s port ld addr data.length = none → NoneAhead s fn port ro → exec (.hostWrite fn port ld addr data ro) s = .next (hostReply s none))
  ∧ (∀ s fn port ld addr n, s.boot.recovery = false → hostPieces s port ld addr n = none → exec (.hostRead fn port ld addr n) s = .next (hostReply s none))
  ∧ (∀ s fn port ld addr (data : List Byte) ro d pa, HostAt s port ld addr data.length d pa → NoneAhead s fn port ro → (homeLine s (pa / 64)).length = 64 → memOk s → pa < 2 ^ 40 →
      ∃ t, exec (.hostWrite fn port ld addr data ro) s = .next t
        ∧ (let w := max (hostClock s fn port + 1) ((timesOf s (pa / 64)).rts + 1)
           homeVal t pa data.length = leVal data ∧ timesOf t (pa / 64) = ⟨w, w, (timesOf s (pa / 64)).n + 1⟩ ∧ hostClock t fn port = w ∧ t.host.reply = some [] ∧ t.me = s.me))
  ∧ (∀ s fn port ld addr n d pa, HostAt s port ld addr n d pa → poisonedAt s pa n = false →
      ∃ t, exec (.hostRead fn port ld addr n) s = .next t
        ∧ (let r := max (hostClock s fn port) (timesOf s (pa / 64)).wts
           t.host.reply = some (leBytes n (homeVal s pa n)) ∧ hostClock t fn port = r ∧ timesOf t (pa / 64) = ⟨(timesOf s (pa / 64)).wts, max (timesOf s (pa / 64)).rts r, (timesOf s (pa / 64)).n⟩ ∧ t.me = s.me))
  ∧ (∀ s fn port ld addr n d pa, HostAt s port ld addr n d pa → poisonedAt s pa n = true → ∃ t, exec (.hostRead fn port ld addr n) s = .next t ∧ t.host.reply = none ∧ t.me = s.me ∧ t.mem = s.mem)
  ∧ (∀ s fn port ld addr (data : List Byte) ro d l pa m, s.boot.recovery = false → hostPieces s port ld addr data.length = some (d, l) → (pa, m) ∈ l → homeReady s (pa / 64) = false →
      exec (.hostWrite fn port ld addr data ro) s = .next (setHostQueue s (s.host.queue ++ [⟨fn, port, ld, addr, data.length, some data, ro⟩])))
  ∧ (∀ s fn port ld addr n d l pa m, s.boot.recovery = false → hostPieces s port ld addr n = some (d, l) → (pa, m) ∈ l → homeReady s (pa / 64) = false →
      exec (.hostRead fn port ld addr n) s = .next (setHostQueue s (s.host.queue ++ [⟨fn, port, ld, addr, n, none, false⟩])))
  ∧ (∀ s fn port ld addr (data : List Byte), s.boot.recovery = false → ¬ NoneAhead s fn port false →
      exec (.hostWrite fn port ld addr data false) s = .next (setHostQueue s (s.host.queue ++ [⟨fn, port, ld, addr, data.length, some data, false⟩])))
  ∧ (∀ s a q, s.host.queue = a :: q → hostWaits s [] a = false → hostNext s = hostDo (setHostQueue s q) a)
  ∧ (∀ s (ld : Fin 32) d, s.boot.recovery = false →
      (1 ≤ d → d ≤ 20 → (∀ e ∈ s.host.ld, e.1 ≠ ld.val → e.1 / 16 = ld.val / 16 → e.2 ≠ d) →
        exec (.ldBind ld.val (some d)) s = .next { s with host := { s.host with ld := kset s.host.ld ld.val d } })
      ∧ (d = 0 ∨ 20 < d ∨ (∃ e ∈ s.host.ld, e.1 ≠ ld.val ∧ e.1 / 16 = ld.val / 16 ∧ e.2 = d) → exec (.ldBind ld.val (some d)) s = .next s)
      ∧ exec (.ldBind ld.val none) s = .next { s with host := { s.host with ld := kdel s.host.ld ld.val } })
  ∧ (∀ s (fn : Fin 512) d, s.boot.recovery = false →
      (d ≤ 20 → exec (.virtualFunctionBind fn.val (some d)) s = .next { s with host := { s.host with vf := kset s.host.vf fn.val d } })
      ∧ exec (.virtualFunctionBind fn.val none) s = .next { s with host := { s.host with vf := kdel s.host.vf fn.val } })
  ∧ (∀ s (port : Fin 2) n, s.boot.recovery = false →
      ((n = 8 ∨ n = 4) → n < s.host.lanes.getD port.val 0 → exec (.hostPortLaneFailure port.val n) s = .next { s with host := { s.host with lanes := s.host.lanes.set port.val n } })
      ∧ ((n ≠ 8 ∧ n ≠ 4) ∨ s.host.lanes.getD port.val 0 ≤ n → exec (.hostPortLaneFailure port.val n) s = .next s))

/-- R286, R452, R454, R456, R457: frames are counted and replayed, none in a major slot; the 16th failed replay in a row takes a port down, and the package warns. A message of another
package is performed once, at its home, in its sender's era: a store, a load, or DOMAIN for one that no window of its DID admits; it waits in a major slot, while its home waits for DRAM,
and for the phase of a barrier. Its answer is a message with a sequence number of its own.
R466, R467, R469: a package whose image is verified starts with the GTC at 0, its 144 ports up, its leaf counter as it was, and the monitor loaded and seated; one that fails
verification runs nothing. That memory starts empty (log entries 4 and 67), what the monitor's image holds and where it stands (log entry 8), the fault of a package in recovery (log
entry 86), the state of the ports (log entry 62), that a message waits behind one of its package for the same line (log entry 101), and how
long a sequence number is known (log entry 107) are the model's choices. A report takes a fresh leaf, and none is left after 2^20. A throttled clock changes neither GTC nor state. -/
def Obligations.PackagesAndBoot : Prop :=
  ((∀ s p good, s.boot.recovery = false →
    ((portOf s p).up = false ∨ inMajor s.gtc = true → exec (.thaythFrameReceive p good) s = .next s)
    ∧ ((portOf s p).up = true → inMajor s.gtc = false →
        (let n := if (portOf s p).replay then (portOf s p).failed + 1 else (portOf s p).failed
         (good = true → ∃ t, exec (.thaythFrameReceive p good) s = .next t ∧ t = { s with ports := t.ports } ∧ portOf t p = { portOf s p with failed := 0, replay := false })
         ∧ (good = false → n < 16 → ∃ t, exec (.thaythFrameReceive p good) s = .next t ∧ t = { s with ports := t.ports }
           ∧ portOf t p = { portOf s p with
               failed := n
               replay := true
               replays := min (2 ^ 32 - 1) ((portOf s p).replays + 1) })
         ∧ (good = false → 16 ≤ n → ∃ t, exec (.thaythFrameReceive p good) s = .next t ∧ (portOf t p).up = false ∧ (portOf t p).lanes = 0 ∧ 1 ≤ t.health.state ∧ t.me = s.me))))
  ∧ (∀ s p, s.boot.recovery = false →
      ((portOf s p).failed < 16 → exec (.thaythPortDown p) s = .next s)
      ∧ ((portOf s p).up = false → exec (.thaythPortDown p) s = .next s)
      ∧ (16 ≤ (portOf s p).failed → (portOf s p).up = true → ∃ t, exec (.thaythPortDown p) s = .next t ∧ (portOf t p).up = false ∧ (portOf t p).lanes = 0 ∧ 1 ≤ t.health.state ∧ t.me = s.me))
  ∧ (∀ s (m : RemoteMsg), s.boot.recovery = false →
      (s.seen.contains (m.src, m.seq) = true ∨ (∃ x ∈ s.inbox, x.src = m.src ∧ x.seq = m.seq) → exec (.remoteMessageReceive m) s = .next s)
      ∧ (NewMessage s m →
        (inMajor s.gtc = true → exec (.remoteMessageReceive m) s = .next { s with inbox := s.inbox ++ [m] })
        ∧ (peerOk s m = true → isReply m.op = false →
          (homeReady s (m.pa / 64) = false ∨ (∃ k, m.op = .barw k ∧ phaseDone (homeVal s m.pa 32) k = false) → exec (.remoteMessageReceive m) s = .next { s with inbox := s.inbox ++ [m] }))
        ∧ (inMajor s.gtc = false → peerOk s m = false → isReply m.op = false → ∃ t, exec (.remoteMessageReceive m) s = .next t ∧ Heard s t m ∧ t.mem = s.mem
          ∧ Replied s t m 0 0 0x06)
        ∧ (inMajor s.gtc = false → peerOk s m = true → homeReady s (m.pa / 64) = true → (∀ x ∈ s.inbox, x.src = m.src → x.pa / 64 ≠ m.pa / 64) →
          (∀ n v, m.op = .store n v → m.pa % 64 + n ≤ 64 → m.pa < 2 ^ 40 → (homeLine s (m.pa / 64)).length = 64 → memOk s → ∃ t, exec (.remoteMessageReceive m) s = .next t
            ∧ (let w := max (clockIn s m.era m.clock + 1) ((timesOf s (m.pa / 64)).rts + 1)
               homeVal t m.pa n = v % 256 ^ n ∧ timesOf t (m.pa / 64) = ⟨w, w, (timesOf s (m.pa / 64)).n + 1⟩ ∧ Heard s t m
                ∧ Replied s t m 0 w 0))
          ∧ (∀ n, m.op = .load n → poisonedAt s m.pa n = false → ∃ t, exec (.remoteMessageReceive m) s = .next t ∧ Heard s t m
            ∧ (let r := max (clockIn s m.era m.clock + 1) (timesOf s (m.pa / 64)).wts
               Replied s t m (homeVal s m.pa n) r 0))))))
  ∧ ((∀ s good, ∃ t, exec (.packageReset good) s = .next t ∧ t.boot.recovery = !good ∧ t.live = false ∧ t.gtc = 0 ∧ t.boot.leaf = s.boot.leaf
    ∧ (good = false → t.others = [] ∧ t.mem = [])
    ∧ (good = true → t.ports.length = 144 ∧ (∀ e ∈ t.ports, e.2.up = true ∧ e.2.lanes = 2)
      ∧ (let x := Config.monitor (s.fresh + 1)
         t.others = [monitorStrand x] ∧ (domOf t 0).tvec = x.tvec &&& ~~~ 1#64
          ∧ (∀ k, (∀ e ∈ x.bytes, e.1 ≠ k) → memGet t.mem k = 0)
          ∧ (∀ e ∈ x.bytes, inRange e.1 (alignDown (x.base % 2 ^ 48) (2 ^ 21), x.len % 2 ^ 32) = true → namesDram e.1 = true → (∀ f ∈ x.bytes, f.1 = e.1 → f = e) → memGet t.mem e.1 = e.2))))
  ∧ (∀ i s, s.boot.recovery = true → (∀ good, i ≠ .packageReset good) → exec i s = .fault .recovery)
  ∧ (∀ s nonce, s.boot.recovery = false →
      (s.boot.leaf < 2 ^ 20 → ∃ t, exec (.attestationRequest nonce) s = .next t ∧ t.boot.leaf = s.boot.leaf + 1 ∧ t.boot.reports = s.boot.reports ++ [report s nonce] ∧ t.me = s.me ∧ t.mem = s.mem)
      ∧ (2 ^ 20 ≤ s.boot.leaf → ∃ t, exec (.attestationRequest nonce) s = .next t ∧ t.boot.leaf = s.boot.leaf ∧ t.boot.reports = s.boot.reports ∧ t.boot.refused = s.boot.refused + 1))
  ∧ (∀ s low, s.boot.recovery = false → exec (.clockThrottle low) s = .next { s with boot := { s.boot with throttled := low } }))


/-! ### The whole machine -/

/-- R15, R20, R159, R421, R425, R466: right after reset no strand runs, memory lists nothing and is canonical, the GTC is 0, every slot is owned by none, every mask and quota is 0, and P[31]
reads 1. The values of the strand's other registers, M16 as the mode, and memory and scratchpads reading 0 are the model's choice (log entries 2, 3 and 4). -/
def Obligations.ResetValues : Prop :=
  State.reset.live = false ∧ State.reset.others = [] ∧ State.reset.mem = [] ∧ memOk State.reset ∧ State.reset.gtc = 0 ∧ predOk State.reset.me = true
    ∧ State.reset.me.vsh = 0x32 ∧ State.reset.boot.recovery = false
    ∧ (∀ c n, n < 32 → (coreOf State.reset c).slotown.getD n 0 = 0x1F ∧ (coreOf State.reset c).table.getD n 0 = 0x80)
    ∧ (∀ c d, domCore State.reset c d = ⟨0, 0, 0, 0, 0, 0, 0, 0, 0, 0⟩)
    ∧ (∀ d, (domOf State.reset d).llease = 8 ∧ (domOf State.reset d).pstate = 0 ∧ (domOf State.reset d).tvec = 0 ∧ (domOf State.reset d).gen = 0)
    ∧ (∀ a n, memVal State.reset.mem a n = 0)

/-- R24, R31, R38, R39, R60, R61, R63, R179, R194, R262, R266, R276, R397, R435: at an instruction boundary a step fetches the words at the pc one by one, each in the state that the fetch of the
one before left, and runs the instruction to which they decode, one tick later, with NextPC after its words; words that decode to none raise ILLEGAL with the last four of them, a fetch that
faults raises its cause, one that cannot be served yet leaves the strand to try again, and YDL at 0 ends the strand, on a bank core as the instruction issues, the return trap coming first (R397); an instruction in the middle of which the strand stands goes on without a fetch. What is fetched stands in no register: of the strand, only the clock
rises, and memory reads as before. A strand whose task failed in the middle of an instruction ends when that has completed. That a fetch changes leases and clock as a load does, but
without creep, is the model's reading (log entry 23), as is that a word that is illegal or cannot be fetched raises its cause also where YDL is 0 (log entry 71); that a step takes
one tick is the model's choice (log entry 10). -/
def Obligations.StepRunsDecoded : Prop :=
  ∀ s, AtTurn s →
    (mustEnd s.me = true → step s = .next (removeStrand (chargeStrand { s with gtc := s.gtc + 1 } s.me) s.me.key))
    ∧ (mustEnd s.me = false → ∀ p i, s.me.pre = some p → decode p.chain = .ok i p.chain.length → (s.me.ydl ≠ 0 ∨ onBank s = true) → step s = exec i (issued s p.chain))
    ∧ (mustEnd s.me = false → s.me.pre = none →
      ∀ (f : Nat → State) (ws : List Half), f 0 = s → (∀ k w, ws[k]? = some w → fetchWord (f k) (s.me.pc + BitVec.ofNat 64 (2 * k)) = .ok (f (k + 1)) w) →
        (∀ i, decode ws = .ok i ws.length →
          ((s.me.ydl ≠ 0 ∨ onBank s = true) → step s = exec i (issued (f ws.length) ws))
          ∧ (s.me.ydl = 0 → s.me.seat ≠ .handler → onBank s = false → step s = exec .yieldOverrun { s with gtc := s.gtc + 1 })
          ∧ (s.me.ydl = 0 → s.me.seat = .handler → step s = exec .handlerOverrun { s with gtc := s.gtc + 1 })
          ∧ (let t := issued (f ws.length) ws
             t.gtc = s.gtc + 1 ∧ t.nextPc = s.me.pc + BitVec.ofNat 64 (2 * ws.length) ∧ t.words = tvalWords ws.reverse ∧ t.me = { s.me with tck := t.me.tck } ∧ s.me.tck ≤ t.me.tck
              ∧ t.others = s.others ∧ t.mem = s.mem ∧ (L2Agrees s → ∀ l, homeLine t l = homeLine s l)))
        ∧ (∀ v, decode ws = .illegal v → step s = exec (.illegalEncoding v) { s with gtc := s.gtc + 1 })
        ∧ (decode ws = .short →
          (∀ c v, fetchWord (f ws.length) (s.me.pc + BitVec.ofNat 64 (2 * ws.length)) = .fault c v → step s = exec (.instructionFetchFault c v) { s with gtc := s.gtc + 1 })
          ∧ (fetchWord (f ws.length) (s.me.pc + BitVec.ofNat 64 (2 * ws.length)) = .stall → step s = .next { s with gtc := s.gtc + 1, me := { s.me with wait := .retry } })))

/-- R39 to R58: the words that the spec writes out for instructions of every page decode to those instructions, and words that it calls no instruction to none. -/
def Obligations.DecodeWords : Prop :=
  decode [0xF018#16, 0xA442#16] = .ok (.ldW .always (.s 4) (.s 2) 24) 2
    ∧ decode [0xFE30#16, 0xF520#16, 0x0451#16] = .ok (.add (.when true 3) (.s 20) (.s 5) (.s 33)) 3
    ∧ decode [0xF803#16, 0xB025#16] = .ok (.mov .always (.q 2) (.s 5)) 2
    ∧ decode [0xF402#16, 0x6245#16] = .ok (.cmpReg .always 2 (.s 4) (.s 5) .lt) 2
    ∧ decode [0xC1F3#16] = .ok (.bTrue .always 1 (-13)) 1
    ∧ decode [0xF818#16, 0xF401#16, 0x7123#16] = .ok (.fcmp .always 1 (.s 2) (.s 3) .lt) 3
    ∧ decode [0xF828#16, 0x7110#16] = .ok (.vRedr .always .fadd 1 0) 2
    ∧ decode [0xF836#16, 0xF408#16, 0x1345#16] = .ok (.amoD .always .acquire .pkg .swap 3 4 5) 3
    ∧ decode [0xF840#16, 0x0113#16] = .ok (.sbind .always 1 3) 2
    ∧ decode [0xF850#16, 0xF401#16, 0x1345#16] = .ok (.tcopySlot .always 3 4 5) 3
    ∧ decode [0xF860#16, 0x0123#16] = .ok (.mma .always 1 2 3) 2
    ∧ decode [0xF870#16, 0x4345#16] = .ok (.bkfma .always 3 4 5) 2
    ∧ decode [0xF880#16, 0x1302#16] = .ok (.mfc .always 3 .rnd) 2
    ∧ decode [0xF520#16, 0xBF00#16] = .illegal 0xF520BF00#64 ∧ decode [0xFFFF#16] = .illegal 0xFFFF#64

/-- R39 to R58, R67: the words that encode a well-formed instruction decode to it and to nothing else, with every operand at every value its encoding admits, in five words at most. -/
def Obligations.RoundTrip : Prop :=
  ∀ i, isEvent i = false → i.wf = true → decode (encode i) = .ok i (encode i).length ∧ (encode i).length ≤ 5
    ∧ ∀ ws, decode (encode i ++ ws) = .ok i (encode i).length

/-- R14, R24, R42, R193, R354, R397: what every instruction is checked against before its own checks: a register beyond the core's mode raises ILLEGAL; a register whose token or result is
outstanding makes it wait; a failed guard makes it do nothing; in a handler or on a bank core the forms barred there raise ILLEGAL or send the strand back.
On a bank core with YDL at 0 an instruction that does not send it back ends the strand. -/
def Obligations.IssueRules : Prop :=
  (∀ i s, issueOf s i = none ↔ isEvent i = true)
  ∧ ∀ i x s, issueOf s i = some x → s.boot.recovery = false →
    (let named := (∀ r ∈ x.rd ++ x.wr, r < modeS (modeOfStrand s s.me)) ∧ ∀ r ∈ x.vregs, r < modeV (modeOfStrand s s.me)
     let free := (∀ r ∈ x.rd ++ x.wr, r ∈ s.me.pend → r ∈ x.noTok) ∧ ∀ r ∈ x.vregs, r ∉ s.me.vpend
     let overrun := onBank s = true ∧ s.me.ydl = 0
     (overrun → (¬ named ∨ ¬ free ∨ guardOk s x.g = false ∨ x.bank = .ill ∨ (x.bank = .run ∧ meetFences s x.begins = none)) →
        exec i s = .next (endMe s (some .yieldOverrun)))
     ∧ (named → free → guardOk s x.g = true → onBank s = true → x.bank = .ret → exec i s = .next (bankReturn s s.me.pc false))
     ∧ (¬ overrun →
     (¬ named → exec i s = .next (takeTrap s s.me.pc .illegal false s.words))
     ∧ (named → ¬ free → exec i s = .next { s with me := { s.me with wait := .retry } })
     ∧ (named → free → guardOk s x.g = false → exec i s = .next (goesOn s s))
     ∧ (named → free → guardOk s x.g = true →
        ((s.me.seat = .handler ∧ x.handler = false) ∨ (onBank s = true ∧ x.bank = .ill) → exec i s = .next (takeTrap s s.me.pc .illegal false s.words))
        ∧ ((s.me.seat = .handler → x.handler = true) → (onBank s = true → x.bank = .run) → meetFences s x.begins = none → exec i s = .next { s with me := { s.me with wait := .retry } }))))

/-- R5, R24, R38, R78, R79, R93: the frame of the instructions of pages 0 to 2 that touch registers only, and of the scalar loads and stores: no register but a destination, no predicate, vector,
control or exception register, no accumulator and no byte of storage changes, but the bytes that a store to the local scratchpad names; a trap, a return from a bank core and an overrun there apart. -/
def Obligations.Frames : Prop :=
  (∀ i x s t, registerOnly i = true → issueOf s i = some x → exec i s = .next t →
    (∃ c v, t = takeTrap s s.me.pc c false v) ∨ (onBank s = true ∧ (t = bankReturn s s.me.pc false ∨ (s.me.ydl = 0 ∧ t = endMe s (some .yieldOverrun))))
    ∨ (SameStore s t ∧ OnlyRegisters s.me t.me ∧ (∀ r, r ∉ x.wr → t.me.s.getD r 0 = s.me.s.getD r 0) ∧ (∀ r, r ∉ vecDest i → t.me.v.getD r 0 = s.me.v.getD r 0)
        ∧ (∀ n < 32, n ∉ predDest i → t.me.p.getLsbD n = s.me.p.getLsbD n)))
  ∧ EachLoad (fun mk _ _ => ∀ g a (b : SReg) off s t, onBank s = false → CanTrap s →
      ((s.me.s.getD b.val 0 + BitVec.ofInt 64 off).toNat < 2 ^ 56 ∨ 0xFFFFFFFFFFFC0000 ≤ (s.me.s.getD b.val 0 + BitVec.ofInt 64 off).toNat) → exec (mk g a (.s b) off) s = .next t →
      (∀ k, anyVal t k 1 = anyVal s k 1) ∧ t.mem = s.mem ∧ (∀ c, (coreOf t c).acc = (coreOf s c).acc) ∧ (∀ r, r ∉ opReg a → t.me.s.getD r 0 = s.me.s.getD r 0) ∧ t.me.p = s.me.p ∧ t.me.v = s.me.v
        ∧ t.me.rnd = s.me.rnd ∧ t.me.vsh = s.me.vsh ∧ t.me.migp = s.me.migp ∧ t.me.h = s.me.h ∧ t.me.sf = s.me.sf)
  ∧ EachStore (fun mk n => ∀ g a (b : SReg) off s t, onBank s = false → CanTrap s →
      (let ad := s.me.s.getD b.val 0 + BitVec.ofInt 64 off
       (ad.toNat < 2 ^ 56 ∨ 0xFFFFFFFFFFFC0000 ≤ ad.toNat) → exec (mk g a (.s b) off) s = .next t →
        (∀ k, ¬ (0xFFFFFFFFFFFC0000 ≤ ad.toNat ∧ spadKey s.me.core (ad.toNat % 2 ^ 18) ≤ k ∧ k < spadKey s.me.core (ad.toNat % 2 ^ 18) + n) → anyVal t k 1 = anyVal s k 1)
        ∧ (∀ c, (coreOf t c).acc = (coreOf s c).acc) ∧ (∀ r, t.me.s.getD r 0 = s.me.s.getD r 0) ∧ t.me.p = s.me.p ∧ t.me.v = s.me.v
        ∧ t.me.rnd = s.me.rnd ∧ t.me.vsh = s.me.vsh ∧ t.me.migp = s.me.migp ∧ t.me.h = s.me.h ∧ t.me.sf = s.me.sf))

/-- The memory keeps its canonical form, whatever a step does: addresses strictly rising, and no entry equal to what an unlisted address reads as. -/
def Obligations.MemoryStaysCanonical : Prop :=
  ∀ s t, memOk s → step s = .next t → memOk t
end

