-- ==== Sys2Proof/Laws/Exec.lean ====
section
/-! SUPPORT. One equation per constructor: `exec` of it is its meaning. -/

namespace Sys2Proof.Machine

theorem exec_add (g : Guard) (a : SOp) (b : SOp) (c : SOp) : exec (.add g a b c) = execAdd g a b c := rfl
theorem exec_sub (g : Guard) (a : SOp) (b : SOp) (c : SOp) : exec (.sub g a b c) = execSub g a b c := rfl
theorem exec_and (g : Guard) (a : SOp) (b : SOp) (c : SOp) : exec (.and g a b c) = execAnd g a b c := rfl
theorem exec_or (g : Guard) (a : SOp) (b : SOp) (c : SOp) : exec (.or g a b c) = execOr g a b c := rfl
theorem exec_xor (g : Guard) (a : SOp) (b : SOp) (c : SOp) : exec (.xor g a b c) = execXor g a b c := rfl
theorem exec_sel (g : Guard) (a : SOp) (b : SOp) (c : SOp) (n : Fin 16) : exec (.sel g a b c n) = execSel g a b c n := rfl
theorem exec_cmpReg (g : Guard) (a : PBit) (b : SOp) (c : SOp) (k : Cond) : exec (.cmpReg g a b c k) = execCmpReg g a b c k := rfl
theorem exec_cmpImm (g : Guard) (a : PBit) (b : SOp) (imm : Int) (k : Cond) : exec (.cmpImm g a b imm k) = execCmpImm g a b imm k := rfl
theorem exec_li (g : Guard) (a : SOp) (imm : Int) : exec (.li g a imm) = execLi g a imm := rfl
theorem exec_j (g : Guard) (imm : Int) : exec (.j g imm) = execJ g imm := rfl
theorem exec_ldB (g : Guard) (a : SOp) (b : SOp) (off : Int) : exec (.ldB g a b off) = execLdB g a b off := rfl
theorem exec_ldBu (g : Guard) (a : SOp) (b : SOp) (off : Int) : exec (.ldBu g a b off) = execLdBu g a b off := rfl
theorem exec_ldH (g : Guard) (a : SOp) (b : SOp) (off : Int) : exec (.ldH g a b off) = execLdH g a b off := rfl
theorem exec_ldHu (g : Guard) (a : SOp) (b : SOp) (off : Int) : exec (.ldHu g a b off) = execLdHu g a b off := rfl
theorem exec_ldW (g : Guard) (a : SOp) (b : SOp) (off : Int) : exec (.ldW g a b off) = execLdW g a b off := rfl
theorem exec_ldWu (g : Guard) (a : SOp) (b : SOp) (off : Int) : exec (.ldWu g a b off) = execLdWu g a b off := rfl
theorem exec_ldD (g : Guard) (a : SOp) (b : SOp) (off : Int) : exec (.ldD g a b off) = execLdD g a b off := rfl
theorem exec_lea (g : Guard) (a : SOp) (b : SOp) (off : Int) : exec (.lea g a b off) = execLea g a b off := rfl
theorem exec_stB (g : Guard) (a : SOp) (b : SOp) (off : Int) : exec (.stB g a b off) = execStB g a b off := rfl
theorem exec_stH (g : Guard) (a : SOp) (b : SOp) (off : Int) : exec (.stH g a b off) = execStH g a b off := rfl
theorem exec_stW (g : Guard) (a : SOp) (b : SOp) (off : Int) : exec (.stW g a b off) = execStW g a b off := rfl
theorem exec_stD (g : Guard) (a : SOp) (b : SOp) (off : Int) : exec (.stD g a b off) = execStD g a b off := rfl
theorem exec_ldq (g : Guard) (a : SReg) (b : SOp) (off : Int) : exec (.ldq g a b off) = execLdq g a b off := rfl
theorem exec_stq (g : Guard) (a : SReg) (b : SOp) (off : Int) : exec (.stq g a b off) = execStq g a b off := rfl
theorem exec_mov (g : Guard) (a : SOp) (b : SOp) : exec (.mov g a b) = execMov g a b := rfl
theorem exec_andn (g : Guard) (a : SReg) (b : SOp) : exec (.andn g a b) = execAndn g a b := rfl
theorem exec_shlReg (g : Guard) (a : SReg) (b : SOp) : exec (.shlReg g a b) = execShlReg g a b := rfl
theorem exec_shrReg (g : Guard) (a : SReg) (b : SOp) : exec (.shrReg g a b) = execShrReg g a b := rfl
theorem exec_sraReg (g : Guard) (a : SReg) (b : SOp) : exec (.sraReg g a b) = execSraReg g a b := rfl
theorem exec_shlImm (g : Guard) (a : SReg) (k : Nat) : exec (.shlImm g a k) = execShlImm g a k := rfl
theorem exec_shrImm (g : Guard) (a : SReg) (k : Nat) : exec (.shrImm g a k) = execShrImm g a k := rfl
theorem exec_sraImm (g : Guard) (a : SReg) (k : Nat) : exec (.sraImm g a k) = execSraImm g a k := rfl
theorem exec_psetAnd (g : Guard) (a : PBit) (b : PBit) : exec (.psetAnd g a b) = execPsetAnd g a b := rfl
theorem exec_psetOr (g : Guard) (a : PBit) (b : PBit) : exec (.psetOr g a b) = execPsetOr g a b := rfl
theorem exec_psetXor (g : Guard) (a : PBit) (b : PBit) : exec (.psetXor g a b) = execPsetXor g a b := rfl
theorem exec_psetAndn (g : Guard) (a : PBit) (b : PBit) : exec (.psetAndn g a b) = execPsetAndn g a b := rfl
theorem exec_psetMov (g : Guard) (a : PBit) (b : PBit) : exec (.psetMov g a b) = execPsetMov g a b := rfl
theorem exec_psetNot (g : Guard) (a : PBit) (b : PBit) : exec (.psetNot g a b) = execPsetNot g a b := rfl
theorem exec_jr (g : Guard) (a : SOp) : exec (.jr g a) = execJr g a := rfl
theorem exec_nop (g : Guard) : exec (.nop g) = execNop g := rfl
theorem exec_bTrue (g : Guard) (a : PBit) (imm : Int) : exec (.bTrue g a imm) = execBTrue g a imm := rfl
theorem exec_bFalse (g : Guard) (a : PBit) (imm : Int) : exec (.bFalse g a imm) = execBFalse g a imm := rfl
theorem exec_jal (g : Guard) (a : SOp) (imm : Int) : exec (.jal g a imm) = execJal g a imm := rfl
theorem exec_mul (g : Guard) (a : SOp) (b : SOp) (c : SOp) : exec (.mul g a b c) = execMul g a b c := rfl
theorem exec_mulh (g : Guard) (a : SOp) (b : SOp) (c : SOp) : exec (.mulh g a b c) = execMulh g a b c := rfl
theorem exec_mulhu (g : Guard) (a : SOp) (b : SOp) (c : SOp) : exec (.mulhu g a b c) = execMulhu g a b c := rfl
theorem exec_div (g : Guard) (a : SOp) (b : SOp) (c : SOp) : exec (.div g a b c) = execDiv g a b c := rfl
theorem exec_divu (g : Guard) (a : SOp) (b : SOp) (c : SOp) : exec (.divu g a b c) = execDivu g a b c := rfl
theorem exec_rem (g : Guard) (a : SOp) (b : SOp) (c : SOp) : exec (.rem g a b c) = execRem g a b c := rfl
theorem exec_remu (g : Guard) (a : SOp) (b : SOp) (c : SOp) : exec (.remu g a b c) = execRemu g a b c := rfl
theorem exec_min (g : Guard) (a : SOp) (b : SOp) (c : SOp) : exec (.min g a b c) = execMin g a b c := rfl
theorem exec_max (g : Guard) (a : SOp) (b : SOp) (c : SOp) : exec (.max g a b c) = execMax g a b c := rfl
theorem exec_minu (g : Guard) (a : SOp) (b : SOp) (c : SOp) : exec (.minu g a b c) = execMinu g a b c := rfl
theorem exec_maxu (g : Guard) (a : SOp) (b : SOp) (c : SOp) : exec (.maxu g a b c) = execMaxu g a b c := rfl
theorem exec_rol (g : Guard) (a : SOp) (b : SOp) (c : SOp) : exec (.rol g a b c) = execRol g a b c := rfl
theorem exec_ror (g : Guard) (a : SOp) (b : SOp) (c : SOp) : exec (.ror g a b c) = execRor g a b c := rfl
theorem exec_clmul (g : Guard) (a : SOp) (b : SOp) (c : SOp) : exec (.clmul g a b c) = execClmul g a b c := rfl
theorem exec_clmulh (g : Guard) (a : SOp) (b : SOp) (c : SOp) : exec (.clmulh g a b c) = execClmulh g a b c := rfl
theorem exec_bext (g : Guard) (a : SOp) (b : SOp) (c : SOp) : exec (.bext g a b c) = execBext g a b c := rfl
theorem exec_bins (g : Guard) (a : SReg) (b : SOp) (c : SOp) : exec (.bins g a b c) = execBins g a b c := rfl
theorem exec_clz (g : Guard) (a : SOp) (b : SOp) : exec (.clz g a b) = execClz g a b := rfl
theorem exec_ctz (g : Guard) (a : SOp) (b : SOp) : exec (.ctz g a b) = execCtz g a b := rfl
theorem exec_popc (g : Guard) (a : SOp) (b : SOp) : exec (.popc g a b) = execPopc g a b := rfl
theorem exec_brev (g : Guard) (a : SOp) (b : SOp) : exec (.brev g a b) = execBrev g a b := rfl
theorem exec_bswap (g : Guard) (a : SOp) (b : SOp) : exec (.bswap g a b) = execBswap g a b := rfl
theorem exec_sextB (g : Guard) (a : SOp) (b : SOp) : exec (.sextB g a b) = execSextB g a b := rfl
theorem exec_sextH (g : Guard) (a : SOp) (b : SOp) : exec (.sextH g a b) = execSextH g a b := rfl
theorem exec_sextW (g : Guard) (a : SOp) (b : SOp) : exec (.sextW g a b) = execSextW g a b := rfl
theorem exec_zextB (g : Guard) (a : SOp) (b : SOp) : exec (.zextB g a b) = execZextB g a b := rfl
theorem exec_zextH (g : Guard) (a : SOp) (b : SOp) : exec (.zextH g a b) = execZextH g a b := rfl
theorem exec_zextW (g : Guard) (a : SOp) (b : SOp) : exec (.zextW g a b) = execZextW g a b := rfl
theorem exec_mfp (g : Guard) (a : SOp) : exec (.mfp g a) = execMfp g a := rfl
theorem exec_mtp (g : Guard) (a : SOp) : exec (.mtp g a) = execMtp g a := rfl
theorem exec_fadd (g : Guard) (a : SOp) (b : SOp) (c : SOp) : exec (.fadd g a b c) = execFadd g a b c := rfl
theorem exec_fsub (g : Guard) (a : SOp) (b : SOp) (c : SOp) : exec (.fsub g a b c) = execFsub g a b c := rfl
theorem exec_fmul (g : Guard) (a : SOp) (b : SOp) (c : SOp) : exec (.fmul g a b c) = execFmul g a b c := rfl
theorem exec_fdiv (g : Guard) (a : SOp) (b : SOp) (c : SOp) : exec (.fdiv g a b c) = execFdiv g a b c := rfl
theorem exec_fmin (g : Guard) (a : SOp) (b : SOp) (c : SOp) : exec (.fmin g a b c) = execFmin g a b c := rfl
theorem exec_fmax (g : Guard) (a : SOp) (b : SOp) (c : SOp) : exec (.fmax g a b c) = execFmax g a b c := rfl
theorem exec_ffma (g : Guard) (a : SReg) (b : SOp) (c : SOp) : exec (.ffma g a b c) = execFfma g a b c := rfl
theorem exec_fcmp (g : Guard) (a : PBit) (b : SOp) (c : SOp) (k : FCond) : exec (.fcmp g a b c k) = execFcmp g a b c k := rfl
theorem exec_fcvtF32S64 (g : Guard) (a : SOp) (b : SOp) : exec (.fcvtF32S64 g a b) = execFcvtF32S64 g a b := rfl
theorem exec_fcvtS64F32 (g : Guard) (a : SOp) (b : SOp) : exec (.fcvtS64F32 g a b) = execFcvtS64F32 g a b := rfl
theorem exec_fcvtF32U64 (g : Guard) (a : SOp) (b : SOp) : exec (.fcvtF32U64 g a b) = execFcvtF32U64 g a b := rfl
theorem exec_fcvtU64F32 (g : Guard) (a : SOp) (b : SOp) : exec (.fcvtU64F32 g a b) = execFcvtU64F32 g a b := rfl
theorem exec_fcvtF32Bf16 (g : Guard) (a : SOp) (b : SOp) : exec (.fcvtF32Bf16 g a b) = execFcvtF32Bf16 g a b := rfl
theorem exec_fcvtBf16F32 (g : Guard) (a : SOp) (b : SOp) : exec (.fcvtBf16F32 g a b) = execFcvtBf16F32 g a b := rfl
theorem exec_vAdd (g : Guard) (a : VReg) (b : VReg) (c : VReg) : exec (.vAdd g a b c) = execVAdd g a b c := rfl
theorem exec_vSub (g : Guard) (a : VReg) (b : VReg) (c : VReg) : exec (.vSub g a b c) = execVSub g a b c := rfl
theorem exec_vMul (g : Guard) (a : VReg) (b : VReg) (c : VReg) : exec (.vMul g a b c) = execVMul g a b c := rfl
theorem exec_vFma (g : Guard) (a : VReg) (b : VReg) (c : VReg) : exec (.vFma g a b c) = execVFma g a b c := rfl
theorem exec_vMin (g : Guard) (a : VReg) (b : VReg) (c : VReg) : exec (.vMin g a b c) = execVMin g a b c := rfl
theorem exec_vMax (g : Guard) (a : VReg) (b : VReg) (c : VReg) : exec (.vMax g a b c) = execVMax g a b c := rfl
theorem exec_vAnd (g : Guard) (a : VReg) (b : VReg) (c : VReg) : exec (.vAnd g a b c) = execVAnd g a b c := rfl
theorem exec_vOr (g : Guard) (a : VReg) (b : VReg) (c : VReg) : exec (.vOr g a b c) = execVOr g a b c := rfl
theorem exec_vXor (g : Guard) (a : VReg) (b : VReg) (c : VReg) : exec (.vXor g a b c) = execVXor g a b c := rfl
theorem exec_vShl (g : Guard) (a : VReg) (b : VReg) (c : VReg) : exec (.vShl g a b c) = execVShl g a b c := rfl
theorem exec_vShr (g : Guard) (a : VReg) (b : VReg) (c : VReg) : exec (.vShr g a b c) = execVShr g a b c := rfl
theorem exec_vCmp (g : Guard) (a : VReg) (b : VReg) (c : VReg) (k : Cond) : exec (.vCmp g a b c k) = execVCmp g a b c k := rfl
theorem exec_vSel (g : Guard) (a : VReg) (b : VReg) (c : VReg) : exec (.vSel g a b c) = execVSel g a b c := rfl
theorem exec_vClmul (g : Guard) (a : VReg) (b : VReg) (c : VReg) : exec (.vClmul g a b c) = execVClmul g a b c := rfl
theorem exec_vAbs (g : Guard) (a : VReg) (b : VReg) : exec (.vAbs g a b) = execVAbs g a b := rfl
theorem exec_vNeg (g : Guard) (a : VReg) (b : VReg) : exec (.vNeg g a b) = execVNeg g a b := rfl
theorem exec_vPopc (g : Guard) (a : VReg) (b : VReg) : exec (.vPopc g a b) = execVPopc g a b := rfl
theorem exec_vAddF (g : Guard) (a : VReg) (b : VReg) (c : VReg) : exec (.vAddF g a b c) = execVAddF g a b c := rfl
theorem exec_vSubF (g : Guard) (a : VReg) (b : VReg) (c : VReg) : exec (.vSubF g a b c) = execVSubF g a b c := rfl
theorem exec_vMulF (g : Guard) (a : VReg) (b : VReg) (c : VReg) : exec (.vMulF g a b c) = execVMulF g a b c := rfl
theorem exec_vFmaF (g : Guard) (a : VReg) (b : VReg) (c : VReg) : exec (.vFmaF g a b c) = execVFmaF g a b c := rfl
theorem exec_vMinF (g : Guard) (a : VReg) (b : VReg) (c : VReg) : exec (.vMinF g a b c) = execVMinF g a b c := rfl
theorem exec_vMaxF (g : Guard) (a : VReg) (b : VReg) (c : VReg) : exec (.vMaxF g a b c) = execVMaxF g a b c := rfl
theorem exec_vCmpF (g : Guard) (a : VReg) (b : VReg) (c : VReg) (k : FCond) : exec (.vCmpF g a b c k) = execVCmpF g a b c k := rfl
theorem exec_vAbsF (g : Guard) (a : VReg) (b : VReg) : exec (.vAbsF g a b) = execVAbsF g a b := rfl
theorem exec_vNegF (g : Guard) (a : VReg) (b : VReg) : exec (.vNegF g a b) = execVNegF g a b := rfl
theorem exec_vExp2 (g : Guard) (a : VReg) (b : VReg) : exec (.vExp2 g a b) = execVExp2 g a b := rfl
theorem exec_vLog2 (g : Guard) (a : VReg) (b : VReg) : exec (.vLog2 g a b) = execVLog2 g a b := rfl
theorem exec_vRcp (g : Guard) (a : VReg) (b : VReg) : exec (.vRcp g a b) = execVRcp g a b := rfl
theorem exec_vRsq (g : Guard) (a : VReg) (b : VReg) : exec (.vRsq g a b) = execVRsq g a b := rfl
theorem exec_vTanh (g : Guard) (a : VReg) (b : VReg) : exec (.vTanh g a b) = execVTanh g a b := rfl
theorem exec_vShape (g : Guard) (lrows : Fin 16) (esz : Fin 4) : exec (.vShape g lrows esz) = execVShape g lrows esz := rfl
theorem exec_vLd (g : Guard) (a : VReg) (b : SReg) (c : SReg) : exec (.vLd g a b c) = execVLd g a b c := rfl
theorem exec_vSt (g : Guard) (a : VReg) (b : SReg) (c : SReg) : exec (.vSt g a b c) = execVSt g a b c := rfl
theorem exec_vBcast (g : Guard) (a : VReg) (b : SReg) : exec (.vBcast g a b) = execVBcast g a b := rfl
theorem exec_vTrn (g : Guard) (a : VReg) (b : VReg) : exec (.vTrn g a b) = execVTrn g a b := rfl
theorem exec_vMovxToScalar (g : Guard) (a : SReg) (b : VReg) (c : SReg) : exec (.vMovxToScalar g a b c) = execVMovxToScalar g a b c := rfl
theorem exec_vMovxToElement (g : Guard) (a : VReg) (b : SReg) (c : SReg) : exec (.vMovxToElement g a b c) = execVMovxToElement g a b c := rfl
theorem exec_vCvt (g : Guard) (dst : VFmt) (src : VFmt) (a : VReg) (b : VReg) : exec (.vCvt g dst src a b) = execVCvt g dst src a b := rfl
theorem exec_vRedr (g : Guard) (op : RedOp) (a : VReg) (b : VReg) : exec (.vRedr g op a b) = execVRedr g op a b := rfl
theorem exec_vRedc (g : Guard) (op : RedOp) (a : VReg) (b : VReg) : exec (.vRedc g op a b) = execVRedc g op a b := rfl
theorem exec_vScan (g : Guard) (op : RedOp) (a : VReg) (b : VReg) : exec (.vScan g op a b) = execVScan g op a b := rfl
theorem exec_vPerm (g : Guard) (a : VReg) (b : VReg) (c : VReg) : exec (.vPerm g a b c) = execVPerm g a b c := rfl
theorem exec_vMaskb (g : Guard) (a : SReg) (b : VReg) (c : SReg) (row : Fin 16) : exec (.vMaskb g a b c row) = execVMaskb g a b c row := rfl
theorem exec_lrw (g : Guard) (sc : Scope) (a : SReg) (b : SReg) : exec (.lrw g sc a b) = execLrw g sc a b := rfl
theorem exec_sch (g : Guard) (sc : Scope) (a : SReg) (b : SReg) : exec (.sch g sc a b) = execSch g sc a b := rfl
theorem exec_rls (g : Guard) (sc : Scope) (b : SReg) : exec (.rls g sc b) = execRls g sc b := rfl
theorem exec_amoD (g : Guard) (o : Order) (sc : Scope) (op : AmoOp) (a : SReg) (b : SReg) (c : SReg) : exec (.amoD g o sc op a b c) = execAmoD g o sc op a b c := rfl
theorem exec_amoW (g : Guard) (o : Order) (sc : Scope) (op : AmoOp) (a : SReg) (b : SReg) (c : SReg) : exec (.amoW g o sc op a b c) = execAmoW g o sc op a b c := rfl
theorem exec_amoH (g : Guard) (o : Order) (sc : Scope) (op : AmoOp) (a : SReg) (b : SReg) (c : SReg) : exec (.amoH g o sc op a b c) = execAmoH g o sc op a b c := rfl
theorem exec_casD (g : Guard) (o : Order) (sc : Scope) (a : SReg) (b : SReg) (c : SReg) : exec (.casD g o sc a b c) = execCasD g o sc a b c := rfl
theorem exec_casQ (g : Guard) (o : Order) (sc : Scope) (a : SReg) (b : SReg) (c : SReg) : exec (.casQ g o sc a b c) = execCasQ g o sc a b c := rfl
theorem exec_red (g : Guard) (o : Order) (sc : Scope) (wd : RedWidth) (op : AmoOp) (b : SReg) (c : SReg) : exec (.red g o sc wd op b c) = execRed g o sc wd op b c := rfl
theorem exec_fence (g : Guard) (sc : Scope) : exec (.fence g sc) = execFence g sc := rfl
theorem exec_fenceS (g : Guard) (sc : Scope) : exec (.fenceS g sc) = execFenceS g sc := rfl
theorem exec_fenceX (g : Guard) (sc : Scope) (k1 : Path) (k2 : Path) : exec (.fenceX g sc k1 k2) = execFenceX g sc k1 k2 := rfl
theorem exec_clkmax (g : Guard) (a : SReg) : exec (.clkmax g a) = execClkmax g a := rfl
theorem exec_rdtck (g : Guard) (a : SReg) : exec (.rdtck g a) = execRdtck g a := rfl
theorem exec_mwait (g : Guard) : exec (.mwait g) = execMwait g := rfl
theorem exec_poll (g : Guard) (sc : Scope) (a : SReg) (b : SReg) : exec (.poll g sc a b) = execPoll g sc a b := rfl
theorem exec_mon (g : Guard) (sc : Scope) (b : SReg) : exec (.mon g sc b) = execMon g sc b := rfl
theorem exec_bari (g : Guard) (sc : Scope) (a : SReg) (b : SReg) : exec (.bari g sc a b) = execBari g sc a b := rfl
theorem exec_bara (g : Guard) (sc : Scope) (a : SReg) (b : SReg) : exec (.bara g sc a b) = execBara g sc a b := rfl
theorem exec_barx (g : Guard) (sc : Scope) (a : SReg) (b : SReg) : exec (.barx g sc a b) = execBarx g sc a b := rfl
theorem exec_barw (g : Guard) (sc : Scope) (a : SReg) (b : SReg) : exec (.barw g sc a b) = execBarw g sc a b := rfl
theorem exec_sdef (g : Guard) (a : SReg) (b : SReg) : exec (.sdef g a b) = execSdef g a b := rfl
theorem exec_sbind (g : Guard) (a : ZReg) (b : SReg) : exec (.sbind g a b) = execSbind g a b := rfl
theorem exec_sgo (g : Guard) (b : SReg) : exec (.sgo g b) = execSgo g b := rfl
theorem exec_srecall (g : Guard) (b : SReg) : exec (.srecall g b) = execSrecall g b := rfl
theorem exec_sstat (g : Guard) (a : SReg) (b : SReg) : exec (.sstat g a b) = execSstat g a b := rfl
theorem exec_swait (g : Guard) (b : SReg) : exec (.swait g b) = execSwait g b := rfl
theorem exec_sfree (g : Guard) (b : SReg) : exec (.sfree g b) = execSfree g b := rfl
theorem exec_tseal (g : Guard) (b : SReg) : exec (.tseal g b) = execTseal g b := rfl
theorem exec_tpref (g : Guard) (b : SReg) : exec (.tpref g b) = execTpref g b := rfl
theorem exec_tstat (g : Guard) (a : SReg) (b : SReg) : exec (.tstat g a b) = execTstat g a b := rfl
theorem exec_tcopySp (g : Guard) (a : SReg) (b : SReg) (c : SReg) : exec (.tcopySp g a b c) = execTcopySp g a b c := rfl
theorem exec_tcopySlot (g : Guard) (a : SReg) (b : SReg) (c : SReg) : exec (.tcopySlot g a b c) = execTcopySlot g a b c := rfl
theorem exec_tcopyWs (g : Guard) (a : SReg) (b : SReg) (c : SReg) : exec (.tcopyWs g a b c) = execTcopyWs g a b c := rfl
theorem exec_tcopyMem (g : Guard) (a : SReg) (b : SReg) (c : SReg) : exec (.tcopyMem g a b c) = execTcopyMem g a b c := rfl
theorem exec_tcopym (g : Guard) (a : SReg) (b : SReg) (c : SReg) : exec (.tcopym g a b c) = execTcopym g a b c := rfl
theorem exec_tred (g : Guard) (op : TredOp) (a : SReg) (b : SReg) (c : SReg) : exec (.tred g op a b c) = execTred g op a b c := rfl
theorem exec_mma (g : Guard) (a : CAcc) (b : MSlot) (c : MSlot) : exec (.mma g a b c) = execMma g a b c := rfl
theorem exec_mclmSlot (g : Guard) (a : MSlot) : exec (.mclmSlot g a) = execMclmSlot g a := rfl
theorem exec_mclmAcc (g : Guard) (a : CAcc) : exec (.mclmAcc g a) = execMclmAcc g a := rfl
theorem exec_mrelSlot (g : Guard) (a : MSlot) : exec (.mrelSlot g a) = execMrelSlot g a := rfl
theorem exec_mrelAcc (g : Guard) (a : CAcc) : exec (.mrelAcc g a) = execMrelAcc g a := rfl
theorem exec_mzero (g : Guard) (a : CAcc) : exec (.mzero g a) = execMzero g a := rfl
theorem exec_mstat (g : Guard) (a : SReg) : exec (.mstat g a) = execMstat g a := rfl
theorem exec_mfill (g : Guard) (a : MSlot) (b : SReg) (c : SReg) : exec (.mfill g a b c) = execMfill g a b c := rfl
theorem exec_mfillV (g : Guard) (a : MSlot) (b : VReg) : exec (.mfillV g a b) = execMfillV g a b := rfl
theorem exec_mldw (g : Guard) (a : MSlot) (b : SReg) : exec (.mldw g a b) = execMldw g a b := rfl
theorem exec_mscl (g : Guard) (a : MSlot) (b : SReg) : exec (.mscl g a b) = execMscl g a b := rfl
theorem exec_mstc (g : Guard) (a : CAcc) (b : SReg) (c : SReg) : exec (.mstc g a b c) = execMstc g a b c := rfl
theorem exec_mstcV (g : Guard) (a : CAcc) (b : VReg) : exec (.mstcV g a b) = execMstcV g a b := rfl
theorem exec_mig (g : Guard) (b : SReg) : exec (.mig g b) = execMig g b := rfl
theorem exec_migBank (g : Guard) (b : SReg) : exec (.migBank g b) = execMigBank g b := rfl
theorem exec_mbwait (g : Guard) : exec (.mbwait g) = execMbwait g := rfl
theorem exec_mbrecv (g : Guard) (a : SReg) (b : SReg) : exec (.mbrecv g a b) = execMbrecv g a b := rfl
theorem exec_mbsend (g : Guard) (a : SReg) (b : SReg) : exec (.mbsend g a b) = execMbsend g a b := rfl
theorem exec_qstat (g : Guard) (a : SReg) (b : QReg) : exec (.qstat g a b) = execQstat g a b := rfl
theorem exec_bkseq (g : Guard) (b : SReg) : exec (.bkseq g b) = execBkseq g b := rfl
theorem exec_bkstat (g : Guard) (a : SReg) (b : SReg) : exec (.bkstat g a b) = execBkstat g a b := rfl
theorem exec_drzero (g : Guard) (a : SReg) (b : SReg) : exec (.drzero g a b) = execDrzero g a b := rfl
theorem exec_amsg (g : Guard) (a : SReg) (b : SReg) (c : SReg) : exec (.amsg g a b c) = execAmsg g a b c := rfl
theorem exec_bkadd (g : Guard) (a : SReg) (b : SReg) (c : SReg) : exec (.bkadd g a b c) = execBkadd g a b c := rfl
theorem exec_bkmul (g : Guard) (a : SReg) (b : SReg) (c : SReg) : exec (.bkmul g a b c) = execBkmul g a b c := rfl
theorem exec_bkfma (g : Guard) (a : SReg) (b : SReg) (c : SReg) : exec (.bkfma g a b c) = execBkfma g a b c := rfl
theorem exec_drcpy (g : Guard) (a : SReg) (b : SReg) : exec (.drcpy g a b) = execDrcpy g a b := rfl
theorem exec_retire (g : Guard) : exec (.retire g) = execRetire g := rfl
theorem exec_tret : exec (.tret) = execTret := rfl
theorem exec_gret : exec (.gret) = execGret := rfl
theorem exec_gsync (g : Guard) : exec (.gsync g) = execGsync g := rfl
theorem exec_repart (g : Guard) (m : Mode) : exec (.repart g m) = execRepart g m := rfl
theorem exec_rdgtc (g : Guard) (a : SReg) : exec (.rdgtc g a) = execRdgtc g a := rfl
theorem exec_rdcal (g : Guard) (a : SReg) (n : Fin 5) : exec (.rdcal g a n) = execRdcal g a n := rfl
theorem exec_slotset (g : Guard) (b : SReg) : exec (.slotset g b) = execSlotset g b := rfl
theorem exec_step (g : Guard) (b : SReg) : exec (.step g b) = execStep g b := rfl
theorem exec_mfc (g : Guard) (a : SReg) (cr : CR) : exec (.mfc g a cr) = execMfc g a cr := rfl
theorem exec_mtc (g : Guard) (cr : CR) (a : SReg) : exec (.mtc g cr a) = execMtc g cr a := rfl
theorem exec_trap (g : Guard) (imm : Int) : exec (.trap g imm) = execTrap g imm := rfl
theorem exec_yield (d : Fin 128) : exec (.yield d) = execYield d := rfl
theorem exec_gate (n : Fin 256) : exec (.gate n) = execGate n := rfl
theorem exec_launch (g : Guard) (a : SReg) (b : SReg) (c : SReg) : exec (.launch g a b c) = execLaunch g a b c := rfl
theorem exec_launchW (g : Guard) (a : SReg) (b : SReg) (c : SReg) : exec (.launchW g a b c) = execLaunchW g a b c := rfl
theorem exec_launchi (g : Guard) (a : SReg) (b : SReg) (c : SReg) : exec (.launchi g a b c) = execLaunchi g a b c := rfl
theorem exec_launchiW (g : Guard) (a : SReg) (b : SReg) (c : SReg) : exec (.launchiW g a b c) = execLaunchiW g a b c := rfl
theorem exec_clnr (g : Guard) (a : SReg) (b : SReg) : exec (.clnr g a b) = execClnr g a b := rfl
theorem exec_invr (g : Guard) (a : SReg) (b : SReg) : exec (.invr g a b) = execInvr g a b := rfl
theorem exec_flsr (g : Guard) (a : SReg) (b : SReg) : exec (.flsr g a b) = execFlsr g a b := rfl
theorem exec_pref (g : Guard) (a : SReg) (b : SReg) : exec (.pref g a b) = execPref g a b := rfl
theorem exec_tlbi (g : Guard) (a : SReg) (b : SReg) : exec (.tlbi g a b) = execTlbi g a b := rfl
theorem exec_tlbsd (g : Guard) (a : SReg) (b : SReg) : exec (.tlbsd g a b) = execTlbsd g a b := rfl
theorem exec_asyncCauseDelivery : exec (.asyncCauseDelivery) = execAsyncCauseDelivery := rfl
theorem exec_yieldOverrun : exec (.yieldOverrun) = execYieldOverrun := rfl
theorem exec_handlerOverrun : exec (.handlerOverrun) = execHandlerOverrun := rfl
theorem exec_bankReturnTrap : exec (.bankReturnTrap) = execBankReturnTrap := rfl
theorem exec_loadCompletion (k : Nat) : exec (.loadCompletion k) = execLoadCompletion k := rfl
theorem exec_storeHomePerform (k : Nat) (id : Nat) : exec (.storeHomePerform k id) = execStoreHomePerform k id := rfl
theorem exec_storeAcknowledgement (k : Nat) (id : Nat) : exec (.storeAcknowledgement k id) = execStoreAcknowledgement k id := rfl
theorem exec_redHomeStep (k : Nat) (id : Nat) : exec (.redHomeStep k id) = execRedHomeStep k id := rfl
theorem exec_prefetchFill : exec (.prefetchFill) = execPrefetchFill := rfl
theorem exec_shootdownHolderDrop (h : Nat) : exec (.shootdownHolderDrop h) = execShootdownHolderDrop h := rfl
theorem exec_remoteScratchpadAccess (k : Nat) (id : Nat) : exec (.remoteScratchpadAccess k id) = execRemoteScratchpadAccess k id := rfl
theorem exec_handlerStart (c : Nat) : exec (.handlerStart c) = execHandlerStart c := rfl
theorem exec_amsgReply (k : Nat) : exec (.amsgReply k) = execAmsgReply k := rfl
theorem exec_migrationRunqGrant (c : Nat) : exec (.migrationRunqGrant c) = execMigrationRunqGrant c := rfl
theorem exec_migrationPacketArrival (k : Nat) : exec (.migrationPacketArrival k) = execMigrationPacketArrival k := rfl
theorem exec_seatEntry (c : Nat) (d : Nat) : exec (.seatEntry c d) = execSeatEntry c d := rfl
theorem exec_maltsterDispatch (die : Nat) : exec (.maltsterDispatch die) = execMaltsterDispatch die := rfl
theorem exec_launchWordWatch (r : Nat) : exec (.launchWordWatch r) = execLaunchWordWatch r := rfl
theorem exec_regionDependenceReread (r : Nat) : exec (.regionDependenceReread r) = execRegionDependenceReread r := rfl
theorem exec_priorityAging (r : Nat) : exec (.priorityAging r) = execPriorityAging r := rfl
theorem exec_launchiCountRead (r : Nat) : exec (.launchiCountRead r) = execLaunchiCountRead r := rfl
theorem exec_launchParkRelease (k : Nat) : exec (.launchParkRelease k) = execLaunchParkRelease k := rfl
theorem exec_gsyncComplete (gid : Nat) : exec (.gsyncComplete gid) = execGsyncComplete gid := rfl
theorem exec_slotRotationHandover (c : Nat) (slot : Nat) : exec (.slotRotationHandover c slot) = execSlotRotationHandover c slot := rfl
theorem exec_heldMessageDelivery (c : Nat) (d : Nat) : exec (.heldMessageDelivery c d) = execHeldMessageDelivery c d := rfl
theorem exec_mbwaitWake (c : Nat) (d : Nat) : exec (.mbwaitWake c d) = execMbwaitWake c d := rfl
theorem exec_reservationGrant (pa : Nat) : exec (.reservationGrant pa) = execReservationGrant pa := rfl
theorem exec_barwWake (k : Nat) : exec (.barwWake k) = execBarwWake k := rfl
theorem exec_mwaitWake (k : Nat) : exec (.mwaitWake k) = execMwaitWake k := rfl
theorem exec_swaitWake (k : Nat) : exec (.swaitWake k) = execSwaitWake k := rfl
theorem exec_minorSlotStart : exec (.minorSlotStart) = execMinorSlotStart := rfl
theorem exec_majorSlotStart : exec (.majorSlotStart) = execMajorSlotStart := rfl
theorem exec_drainDeadline : exec (.drainDeadline) = execDrainDeadline := rfl
theorem exec_intervalEnd : exec (.intervalEnd) = execIntervalEnd := rfl
theorem exec_streamElement (c : Nat) (x : Nat) (float : Bool) : exec (.streamElement c x float) = execStreamElement c x float := rfl
theorem exec_streamRecallArrive (c : Nat) (x : Nat) : exec (.streamRecallArrive c x) = execStreamRecallArrive c x := rfl
theorem exec_streamWindowFill (c : Nat) (x : Nat) : exec (.streamWindowFill c x) = execStreamWindowFill c x := rfl
theorem exec_streamPushWrite (c : Nat) (x : Nat) : exec (.streamPushWrite c x) = execStreamPushWrite c x := rfl
theorem exec_copyBurst (c : Nat) (id : Nat) : exec (.copyBurst c id) = execCopyBurst c id := rfl
theorem exec_copyCompletion (c : Nat) (id : Nat) : exec (.copyCompletion c id) = execCopyCompletion c id := rfl
theorem exec_mmaCompletion (c : Nat) : exec (.mmaCompletion c) = execMmaCompletion c := rfl
theorem exec_matrixCommandCompletion (c : Nat) : exec (.matrixCommandCompletion c) = execMatrixCommandCompletion c := rfl
theorem exec_bankRowOperation (ch : Nat) : exec (.bankRowOperation ch) = execBankRowOperation ch := rfl
theorem exec_bankCommandEnd (id : Nat) : exec (.bankCommandEnd id) = execBankCommandEnd id := rfl
theorem exec_scratchpadBankHandover (c : Nat) (bank : Nat) : exec (.scratchpadBankHandover c bank) = execScratchpadBankHandover c bank := rfl
theorem exec_partitionReset (d : Nat) : exec (.partitionReset d) = execPartitionReset d := rfl
theorem exec_fatalError (u : Unit3) : exec (.fatalError u) = execFatalError u := rfl
theorem exec_partitionRegisterWrite (addr : Word) (val : Word) : exec (.partitionRegisterWrite addr val) = execPartitionRegisterWrite addr val := rfl
theorem exec_slotownWrite (c : Nat) (slot : Nat) (d : Nat) : exec (.slotownWrite c slot d) = execSlotownWrite c slot d := rfl
theorem exec_spbankWrite (c : Nat) (d : Nat) (m : BitVec 16) : exec (.spbankWrite c d m) = execSpbankWrite c d m := rfl
theorem exec_wsgWrite (c : Nat) (d : Nat) (m : BitVec 16) : exec (.wsgWrite c d m) = execWsgWrite c d m := rfl
theorem exec_frelm (c : Nat) (d : Nat) (m : BitVec 16) : exec (.frelm c d m) = execFrelm c d m := rfl
theorem exec_frelc (c : Nat) (d : Nat) (m : BitVec 8) : exec (.frelc c d m) = execFrelc c d m := rfl
theorem exec_mboxWrite (c : Nat) (d : Nat) (n : Nat) : exec (.mboxWrite c d n) = execMboxWrite c d n := rfl
theorem exec_strqWrite (c : Nat) (d : Nat) (n : Nat) : exec (.strqWrite c d n) = execStrqWrite c d n := rfl
theorem exec_setRangeWrite (sl : Nat) (ix : Nat) (val : Word) : exec (.setRangeWrite sl ix val) = execSetRangeWrite sl ix val := rfl
theorem exec_schedWrite (d : Nat) (val : Word) : exec (.schedWrite d val) = execSchedWrite d val := rfl
theorem exec_partitionResetRequest (d : Nat) : exec (.partitionResetRequest d) = execPartitionResetRequest d := rfl
theorem exec_partitionCreate (d : Nat) : exec (.partitionCreate d) = execPartitionCreate d := rfl
theorem exec_hportWrite (d : Nat) (port : Nat) : exec (.hportWrite d port) = execHportWrite d port := rfl
theorem exec_healthWclr : exec (.healthWclr) = execHealthWclr := rfl
theorem exec_biasFlipRequest (val : Word) : exec (.biasFlipRequest val) = execBiasFlipRequest val := rfl
theorem exec_hostBiasFlipCommand (ld : Nat) (page : Nat) (host : Bool) : exec (.hostBiasFlipCommand ld page host) = execHostBiasFlipCommand ld page host := rfl
theorem exec_hostWrite (fn : Nat) (port : Nat) (ld : Nat) (addr : Nat) (data : List Byte) (ro : Bool) : exec (.hostWrite fn port ld addr data ro) = execHostWrite fn port ld addr data ro := rfl
theorem exec_hostRead (fn : Nat) (port : Nat) (ld : Nat) (addr : Nat) (n : Nat) : exec (.hostRead fn port ld addr n) = execHostRead fn port ld addr n := rfl
theorem exec_ldBind (ld : Nat) (d : Option Nat) : exec (.ldBind ld d) = execLdBind ld d := rfl
theorem exec_interruptRequest (val : Word) : exec (.interruptRequest val) = execInterruptRequest val := rfl
theorem exec_interruptCoalesceExpiry (d : Nat) : exec (.interruptCoalesceExpiry d) = execInterruptCoalesceExpiry d := rfl
theorem exec_thaythFrameReceive (port : Nat) (good : Bool) : exec (.thaythFrameReceive port good) = execThaythFrameReceive port good := rfl
theorem exec_thaythPortDown (port : Nat) : exec (.thaythPortDown port) = execThaythPortDown port := rfl
theorem exec_remoteMessageReceive (m : RemoteMsg) : exec (.remoteMessageReceive m) = execRemoteMessageReceive m := rfl
theorem exec_packageReset (good : Bool) : exec (.packageReset good) = execPackageReset good := rfl
theorem exec_attestationRequest (nonce : BitVec 256) : exec (.attestationRequest nonce) = execAttestationRequest nonce := rfl
theorem exec_clockThrottle (low : Bool) : exec (.clockThrottle low) = execClockThrottle low := rfl
theorem exec_illegalEncoding (wd : Word) : exec (.illegalEncoding wd) = execIllegalEncoding wd := rfl
theorem exec_instructionFetchFault (cause : Cause) (tval : Word) : exec (.instructionFetchFault cause tval) = execInstructionFetchFault cause tval := rfl
theorem exec_writebackReachesArrays (line : Nat) : exec (.writebackReachesArrays line) = execWritebackReachesArrays line := rfl
theorem exec_hostPortLaneFailure (port : Nat) (lanes : Nat) : exec (.hostPortLaneFailure port lanes) = execHostPortLaneFailure port lanes := rfl
theorem exec_virtualFunctionBind (fn : Nat) (d : Option Nat) : exec (.virtualFunctionBind fn d) = execVirtualFunctionBind fn d := rfl

end Sys2Proof.Machine
end

