-- ==== Sys2Proof/Laws/Memory.lean ====
section
/-! SUPPORT. The byte store: reading after writing, and the canonical form that every operation on it keeps. -/

namespace Sys2Proof.Machine

/-- Keys of a canonical tail lie above its head. -/
theorem memWf_cons {a : Nat} {b : Byte} {m : List Host.Cell} : memWf ((a, b) :: m) = true ↔ b ≠ 0 ∧ (∀ c ∈ m, a < c.1) ∧ memWf m = true := by
  induction m generalizing a b with
  | nil => simp [memWf]
  | cons c m ih =>
    obtain ⟨k, x⟩ := c
    constructor
    · intro h
      simp only [memWf, Bool.and_eq_true, bne_iff_ne, ne_eq, decide_eq_true_eq] at h
      obtain ⟨⟨h1, h2⟩, h3⟩ := h
      refine ⟨h1, ?_, h3⟩
      intro c hc
      rcases List.mem_cons.1 hc with e | e
      · rw [e]; exact h2
      · exact Nat.lt_trans h2 ((ih.1 h3).2.1 c e)
    · rintro ⟨h1, h2, h3⟩
      simp only [memWf, Bool.and_eq_true, bne_iff_ne, ne_eq, decide_eq_true_eq]
      exact ⟨⟨h1, h2 (k, x) List.mem_cons_self⟩, h3⟩

/-- The keys of a store after a write are its keys and the one written. -/
theorem memSet_keys {m : List Host.Cell} {a : Nat} {b : Byte} {c : Host.Cell} (h : c ∈ memSet m a b) : c.1 = a ∨ c ∈ m := by
  induction m with
  | nil =>
    unfold memSet at h
    split at h
    · cases h
    · rw [List.mem_singleton] at h; exact Or.inl (by rw [h])
  | cons e m ih =>
    obtain ⟨k, x⟩ := e
    unfold memSet at h
    split at h
    · split at h
      · exact Or.inr h
      · rcases List.mem_cons.1 h with e | e
        · exact Or.inl (by rw [e])
        · exact Or.inr e
    · split at h
      · split at h
        · exact Or.inr (List.mem_cons_of_mem _ h)
        · rcases List.mem_cons.1 h with e | e
          · exact Or.inl (by rw [e])
          · exact Or.inr (List.mem_cons_of_mem _ e)
      · rcases List.mem_cons.1 h with e | e
        · exact Or.inr (by rw [e]; exact List.mem_cons_self)
        · rcases ih e with h | h
          · exact Or.inl h
          · exact Or.inr (List.mem_cons_of_mem _ h)

/-- A write keeps the canonical form. -/
theorem memWf_memSet {m : List Host.Cell} (a : Nat) (b : Byte) (h : memWf m = true) : memWf (memSet m a b) = true := by
  induction m with
  | nil =>
    unfold memSet
    split
    · rfl
    · rename_i hb; exact memWf_cons.2 ⟨hb, by simp, rfl⟩
  | cons e m ih =>
    obtain ⟨k, x⟩ := e
    obtain ⟨h1, h2, h3⟩ := memWf_cons.1 h
    unfold memSet
    split
    · split
      · exact h
      · rename_i hlt hb
        refine memWf_cons.2 ⟨hb, ?_, h⟩
        intro c hc
        rcases List.mem_cons.1 hc with e | e
        · rw [e]; exact hlt
        · exact Nat.lt_trans hlt (h2 c e)
    · split
      · rename_i hlt heq
        split
        · exact h3
        · rename_i hb
          exact memWf_cons.2 ⟨hb, fun c hc => heq ▸ h2 c hc, h3⟩
      · rename_i hlt hne
        refine memWf_cons.2 ⟨h1, ?_, ih h3⟩
        intro c hc
        rcases memSet_keys hc with e | e
        · rw [e]; omega
        · exact h2 c e

/-- A byte absent from a store reads 0. -/
theorem memGet_absent {m : List Host.Cell} {a : Nat} (h : ∀ c ∈ m, c.1 ≠ a) : memGet m a = 0 := by
  unfold memGet kget
  induction m with
  | nil => rfl
  | cons e m ih =>
    obtain ⟨k, x⟩ := e
    unfold kget?
    rw [if_neg (h (k, x) List.mem_cons_self)]
    exact ih (fun c hc => h c (List.mem_cons_of_mem _ hc))

/-- Reading the head of a store. -/
theorem memGet_cons (k : Nat) (x : Byte) (m : List Host.Cell) (a : Nat) : memGet ((k, x) :: m) a = if k = a then x else memGet m a := by
  unfold memGet kget
  conv => lhs; unfold kget?
  split <;> rfl

/-- A write is read back (R5). -/
theorem memGet_memSet_same {m : List Host.Cell} (a : Nat) (b : Byte) (h : memWf m = true) : memGet (memSet m a b) a = b := by
  induction m with
  | nil =>
    unfold memSet
    split
    · rename_i hb; rw [hb]; rfl
    · rw [memGet_cons, if_pos rfl]
  | cons e m ih =>
    obtain ⟨k, x⟩ := e
    obtain ⟨h1, h2, h3⟩ := memWf_cons.1 h
    unfold memSet
    split
    · rename_i hlt
      split
      · rename_i hb
        rw [hb]
        apply memGet_absent
        intro c hc
        rcases List.mem_cons.1 hc with e | e
        · rw [e]; simp only []; omega
        · have := h2 c e; omega
      · rw [memGet_cons, if_pos rfl]
    · split
      · rename_i hlt heq
        split
        · rename_i hb
          rw [hb]
          apply memGet_absent
          intro c hc
          have := h2 c hc; omega
        · rw [memGet_cons, if_pos rfl]
      · rename_i hlt hne
        rw [memGet_cons, if_neg (by omega)]
        exact ih h3

/-- A write leaves every other byte alone. -/
theorem memGet_memSet_other (m : List Host.Cell) {a k : Nat} (b : Byte) (h : k ≠ a) : memGet (memSet m a b) k = memGet m k := by
  induction m with
  | nil =>
    unfold memSet
    split
    · rfl
    · rw [memGet_cons, if_neg (fun e => h e.symm)]
  | cons e m ih =>
    obtain ⟨j, x⟩ := e
    unfold memSet
    split
    · split
      · rfl
      · rw [memGet_cons, if_neg (fun e => h e.symm)]
    · split
      · rename_i hlt heq
        split
        · rw [memGet_cons, if_neg (by omega)]
        · rw [memGet_cons, memGet_cons, if_neg (by omega), if_neg (by omega)]
      · rw [memGet_cons, memGet_cons, ih]

/-- Bytes written keep the canonical form. -/
theorem memWf_memPut {m : List Host.Cell} (a : Nat) (bs : List Byte) (h : memWf m = true) : memWf (memPut m a bs) = true := by
  induction bs generalizing m a with
  | nil => exact h
  | cons b bs ih => exact ih _ (memWf_memSet a b h)

/-- Bytes written leave every byte outside them alone. -/
theorem memGet_memPut_other (m : List Host.Cell) {a k : Nat} (bs : List Byte) (h : k < a ∨ a + bs.length ≤ k) : memGet (memPut m a bs) k = memGet m k := by
  induction bs generalizing m a with
  | nil => rfl
  | cons b bs ih =>
    simp only [List.length_cons] at h
    unfold memPut
    rw [ih _ (by omega), memGet_memSet_other _ _ (by omega)]

/-- Bytes written are read back. -/
theorem memGet_memPut_same {m : List Host.Cell} (a : Nat) (bs : List Byte) (h : memWf m = true) (i : Nat) (hi : i < bs.length) :
    memGet (memPut m a bs) (a + i) = bs.getD i 0 := by
  induction bs generalizing m a i with
  | nil => simp at hi
  | cons b bs ih =>
    unfold memPut
    cases i with
    | zero =>
      rw [memGet_memPut_other _ _ (by omega)]
      exact memGet_memSet_same a b h
    | succ i =>
      have := ih (a + 1) (memWf_memSet a b h) i (by simpa using hi)
      rw [show a + (i + 1) = a + 1 + i by omega, this]
      rfl

/-- Entries taken out of a store leave it canonical. -/
theorem memWf_filter {m : List Host.Cell} (f : Host.Cell → Bool) (h : memWf m = true) : memWf (m.filter f) = true := by
  induction m with
  | nil => rfl
  | cons e m ih =>
    obtain ⟨k, x⟩ := e
    obtain ⟨h1, h2, h3⟩ := memWf_cons.1 h
    rw [List.filter_cons]
    split
    · exact memWf_cons.2 ⟨h1, fun c hc => h2 c (List.mem_filter.1 hc).1, ih h3⟩
    · exact ih h3

/-- Bytes set to zero leave the store canonical. -/
theorem memWf_memZero {m : List Host.Cell} (a n : Nat) (h : memWf m = true) : memWf (memZero m a n) = true := memWf_filter _ h

/-- The bytes of a value: as many as asked for. -/
theorem leBytes_length (n v : Nat) : (leBytes n v).length = n := by
  induction n generalizing v with
  | zero => rfl
  | succ n ih => simp [leBytes, ih]

/-- The bytes of a value, low byte first (R5). -/
theorem leBytes_get (n v i : Nat) (h : i < n) : (leBytes n v).getD i 0 = BitVec.ofNat 8 (v / 256 ^ i) := by
  induction n generalizing v i with
  | zero => omega
  | succ n ih =>
    cases i with
    | zero => simp [leBytes]
    | succ i =>
      have := ih (v / 256) i (by omega)
      simp only [leBytes, List.getD_cons_succ, this, Nat.pow_succ, Nat.div_div_eq_div_mul]
      rw [Nat.mul_comm]

/-- The value of the bytes of a value. -/
theorem leVal_leBytes (n v : Nat) : leVal (leBytes n v) = v % 256 ^ n := by
  induction n generalizing v with
  | zero => simp [leBytes, leVal, Nat.mod_one]
  | succ n ih =>
    simp only [leBytes, leVal, ih, BitVec.toNat_ofNat]
    rw [Nat.pow_succ' (n := n), Nat.mod_mul]

end Sys2Proof.Machine
end

