-- ==== Sys2Proof/Laws/State.lean ====
section
/-! SUPPORT. What the basic updates of the state leave, field by field: each is true by definition. -/

namespace Sys2Proof.Machine

@[simp] theorem updMe_me (s : State) (f : Strand → Strand) : (updMe s f).me = f s.me := rfl
@[simp] theorem updMe_live (s : State) (f : Strand → Strand) : (updMe s f).live = s.live := rfl
@[simp] theorem updMe_others (s : State) (f : Strand → Strand) : (updMe s f).others = s.others := rfl
@[simp] theorem updMe_agenda (s : State) (f : Strand → Strand) : (updMe s f).agenda = s.agenda := rfl
@[simp] theorem updMe_nextPc (s : State) (f : Strand → Strand) : (updMe s f).nextPc = s.nextPc := rfl
@[simp] theorem updMe_words (s : State) (f : Strand → Strand) : (updMe s f).words = s.words := rfl
@[simp] theorem updMe_chain (s : State) (f : Strand → Strand) : (updMe s f).chain = s.chain := rfl
@[simp] theorem updMe_gtc (s : State) (f : Strand → Strand) : (updMe s f).gtc = s.gtc := rfl
@[simp] theorem updMe_calMark (s : State) (f : Strand → Strand) : (updMe s f).calMark = s.calMark := rfl
@[simp] theorem updMe_era (s : State) (f : Strand → Strand) : (updMe s f).era = s.era := rfl
@[simp] theorem updMe_rblast (s : State) (f : Strand → Strand) : (updMe s f).rblast = s.rblast := rfl
@[simp] theorem updMe_majn (s : State) (f : Strand → Strand) : (updMe s f).majn = s.majn := rfl
@[simp] theorem updMe_mem (s : State) (f : Strand → Strand) : (updMe s f).mem = s.mem := rfl
@[simp] theorem updMe_poison (s : State) (f : Strand → Strand) : (updMe s f).poison = s.poison := rfl
@[simp] theorem updMe_lines (s : State) (f : Strand → Strand) : (updMe s f).lines = s.lines := rfl
@[simp] theorem updMe_l2 (s : State) (f : Strand → Strand) : (updMe s f).l2 = s.l2 := rfl
@[simp] theorem updMe_wq (s : State) (f : Strand → Strand) : (updMe s f).wq = s.wq := rfl
@[simp] theorem updMe_prefq (s : State) (f : Strand → Strand) : (updMe s f).prefq = s.prefq := rfl
@[simp] theorem updMe_cores (s : State) (f : Strand → Strand) : (updMe s f).cores = s.cores := rfl
@[simp] theorem updMe_banks (s : State) (f : Strand → Strand) : (updMe s f).banks = s.banks := rfl
@[simp] theorem updMe_doms (s : State) (f : Strand → Strand) : (updMe s f).doms = s.doms := rfl
@[simp] theorem updMe_shared (s : State) (f : Strand → Strand) : (updMe s f).shared = s.shared := rfl
@[simp] theorem updMe_sets (s : State) (f : Strand → Strand) : (updMe s f).sets = s.sets := rfl
@[simp] theorem updMe_gates (s : State) (f : Strand → Strand) : (updMe s f).gates = s.gates := rfl
@[simp] theorem updMe_peers (s : State) (f : Strand → Strand) : (updMe s f).peers = s.peers := rfl
@[simp] theorem updMe_topo (s : State) (f : Strand → Strand) : (updMe s f).topo = s.topo := rfl
@[simp] theorem updMe_health (s : State) (f : Strand → Strand) : (updMe s f).health = s.health := rfl
@[simp] theorem updMe_pkgid (s : State) (f : Strand → Strand) : (updMe s f).pkgid = s.pkgid := rfl
@[simp] theorem updMe_ports (s : State) (f : Strand → Strand) : (updMe s f).ports = s.ports := rfl
@[simp] theorem updMe_seen (s : State) (f : Strand → Strand) : (updMe s f).seen = s.seen := rfl
@[simp] theorem updMe_replies (s : State) (f : Strand → Strand) : (updMe s f).replies = s.replies := rfl
@[simp] theorem updMe_outbox (s : State) (f : Strand → Strand) : (updMe s f).outbox = s.outbox := rfl
@[simp] theorem updMe_seqs (s : State) (f : Strand → Strand) : (updMe s f).seqs = s.seqs := rfl
@[simp] theorem updMe_inbox (s : State) (f : Strand → Strand) : (updMe s f).inbox = s.inbox := rfl
@[simp] theorem updMe_peerWait (s : State) (f : Strand → Strand) : (updMe s f).peerWait = s.peerWait := rfl
@[simp] theorem updMe_host (s : State) (f : Strand → Strand) : (updMe s f).host = s.host := rfl
@[simp] theorem updMe_boot (s : State) (f : Strand → Strand) : (updMe s f).boot = s.boot := rfl
@[simp] theorem updMe_tlb (s : State) (f : Strand → Strand) : (updMe s f).tlb = s.tlb := rfl
@[simp] theorem updMe_shoots (s : State) (f : Strand → Strand) : (updMe s f).shoots = s.shoots := rfl
@[simp] theorem updMe_resv (s : State) (f : Strand → Strand) : (updMe s f).resv = s.resv := rfl
@[simp] theorem updMe_records (s : State) (f : Strand → Strand) : (updMe s f).records = s.records := rfl
@[simp] theorem updMe_tasks (s : State) (f : Strand → Strand) : (updMe s f).tasks = s.tasks := rfl
@[simp] theorem updMe_regions (s : State) (f : Strand → Strand) : (updMe s f).regions = s.regions := rfl
@[simp] theorem updMe_bank (s : State) (f : Strand → Strand) : (updMe s f).bank = s.bank := rfl
@[simp] theorem updMe_packets (s : State) (f : Strand → Strand) : (updMe s f).packets = s.packets := rfl
@[simp] theorem updMe_resets (s : State) (f : Strand → Strand) : (updMe s f).resets = s.resets := rfl
@[simp] theorem updMe_nextSid (s : State) (f : Strand → Strand) : (updMe s f).nextSid = s.nextSid := rfl
@[simp] theorem updMe_nextGid (s : State) (f : Strand → Strand) : (updMe s f).nextGid = s.nextGid := rfl
@[simp] theorem updMe_nextId (s : State) (f : Strand → Strand) : (updMe s f).nextId = s.nextId := rfl
@[simp] theorem updMe_bound (s : State) (f : Strand → Strand) : (updMe s f).bound = s.bound := rfl
@[simp] theorem updMe_parked (s : State) (f : Strand → Strand) : (updMe s f).parked = s.parked := rfl
@[simp] theorem updMe_fresh (s : State) (f : Strand → Strand) : (updMe s f).fresh = s.fresh := rfl

@[simp] theorem raiseClock_me (s : State) (t : Nat) : (raiseClock s t).me = { s.me with tck := max s.me.tck t } := rfl
@[simp] theorem raiseClock_live (s : State) (t : Nat) : (raiseClock s t).live = s.live := rfl
@[simp] theorem raiseClock_others (s : State) (t : Nat) : (raiseClock s t).others = s.others := rfl
@[simp] theorem raiseClock_agenda (s : State) (t : Nat) : (raiseClock s t).agenda = s.agenda := rfl
@[simp] theorem raiseClock_nextPc (s : State) (t : Nat) : (raiseClock s t).nextPc = s.nextPc := rfl
@[simp] theorem raiseClock_words (s : State) (t : Nat) : (raiseClock s t).words = s.words := rfl
@[simp] theorem raiseClock_chain (s : State) (t : Nat) : (raiseClock s t).chain = s.chain := rfl
@[simp] theorem raiseClock_gtc (s : State) (t : Nat) : (raiseClock s t).gtc = s.gtc := rfl
@[simp] theorem raiseClock_calMark (s : State) (t : Nat) : (raiseClock s t).calMark = s.calMark := rfl
@[simp] theorem raiseClock_era (s : State) (t : Nat) : (raiseClock s t).era = s.era := rfl
@[simp] theorem raiseClock_rblast (s : State) (t : Nat) : (raiseClock s t).rblast = s.rblast := rfl
@[simp] theorem raiseClock_majn (s : State) (t : Nat) : (raiseClock s t).majn = s.majn := rfl
@[simp] theorem raiseClock_mem (s : State) (t : Nat) : (raiseClock s t).mem = s.mem := rfl
@[simp] theorem raiseClock_poison (s : State) (t : Nat) : (raiseClock s t).poison = s.poison := rfl
@[simp] theorem raiseClock_lines (s : State) (t : Nat) : (raiseClock s t).lines = s.lines := rfl
@[simp] theorem raiseClock_l2 (s : State) (t : Nat) : (raiseClock s t).l2 = s.l2 := rfl
@[simp] theorem raiseClock_wq (s : State) (t : Nat) : (raiseClock s t).wq = s.wq := rfl
@[simp] theorem raiseClock_prefq (s : State) (t : Nat) : (raiseClock s t).prefq = s.prefq := rfl
@[simp] theorem raiseClock_cores (s : State) (t : Nat) : (raiseClock s t).cores = s.cores := rfl
@[simp] theorem raiseClock_banks (s : State) (t : Nat) : (raiseClock s t).banks = s.banks := rfl
@[simp] theorem raiseClock_doms (s : State) (t : Nat) : (raiseClock s t).doms = s.doms := rfl
@[simp] theorem raiseClock_shared (s : State) (t : Nat) : (raiseClock s t).shared = s.shared := rfl
@[simp] theorem raiseClock_sets (s : State) (t : Nat) : (raiseClock s t).sets = s.sets := rfl
@[simp] theorem raiseClock_gates (s : State) (t : Nat) : (raiseClock s t).gates = s.gates := rfl
@[simp] theorem raiseClock_peers (s : State) (t : Nat) : (raiseClock s t).peers = s.peers := rfl
@[simp] theorem raiseClock_topo (s : State) (t : Nat) : (raiseClock s t).topo = s.topo := rfl
@[simp] theorem raiseClock_health (s : State) (t : Nat) : (raiseClock s t).health = s.health := rfl
@[simp] theorem raiseClock_pkgid (s : State) (t : Nat) : (raiseClock s t).pkgid = s.pkgid := rfl
@[simp] theorem raiseClock_ports (s : State) (t : Nat) : (raiseClock s t).ports = s.ports := rfl
@[simp] theorem raiseClock_seen (s : State) (t : Nat) : (raiseClock s t).seen = s.seen := rfl
@[simp] theorem raiseClock_replies (s : State) (t : Nat) : (raiseClock s t).replies = s.replies := rfl
@[simp] theorem raiseClock_outbox (s : State) (t : Nat) : (raiseClock s t).outbox = s.outbox := rfl
@[simp] theorem raiseClock_seqs (s : State) (t : Nat) : (raiseClock s t).seqs = s.seqs := rfl
@[simp] theorem raiseClock_inbox (s : State) (t : Nat) : (raiseClock s t).inbox = s.inbox := rfl
@[simp] theorem raiseClock_peerWait (s : State) (t : Nat) : (raiseClock s t).peerWait = s.peerWait := rfl
@[simp] theorem raiseClock_host (s : State) (t : Nat) : (raiseClock s t).host = s.host := rfl
@[simp] theorem raiseClock_boot (s : State) (t : Nat) : (raiseClock s t).boot = s.boot := rfl
@[simp] theorem raiseClock_tlb (s : State) (t : Nat) : (raiseClock s t).tlb = s.tlb := rfl
@[simp] theorem raiseClock_shoots (s : State) (t : Nat) : (raiseClock s t).shoots = s.shoots := rfl
@[simp] theorem raiseClock_resv (s : State) (t : Nat) : (raiseClock s t).resv = s.resv := rfl
@[simp] theorem raiseClock_records (s : State) (t : Nat) : (raiseClock s t).records = s.records := rfl
@[simp] theorem raiseClock_tasks (s : State) (t : Nat) : (raiseClock s t).tasks = s.tasks := rfl
@[simp] theorem raiseClock_regions (s : State) (t : Nat) : (raiseClock s t).regions = s.regions := rfl
@[simp] theorem raiseClock_bank (s : State) (t : Nat) : (raiseClock s t).bank = s.bank := rfl
@[simp] theorem raiseClock_packets (s : State) (t : Nat) : (raiseClock s t).packets = s.packets := rfl
@[simp] theorem raiseClock_resets (s : State) (t : Nat) : (raiseClock s t).resets = s.resets := rfl
@[simp] theorem raiseClock_nextSid (s : State) (t : Nat) : (raiseClock s t).nextSid = s.nextSid := rfl
@[simp] theorem raiseClock_nextGid (s : State) (t : Nat) : (raiseClock s t).nextGid = s.nextGid := rfl
@[simp] theorem raiseClock_nextId (s : State) (t : Nat) : (raiseClock s t).nextId = s.nextId := rfl
@[simp] theorem raiseClock_bound (s : State) (t : Nat) : (raiseClock s t).bound = s.bound := rfl
@[simp] theorem raiseClock_parked (s : State) (t : Nat) : (raiseClock s t).parked = s.parked := rfl
@[simp] theorem raiseClock_fresh (s : State) (t : Nat) : (raiseClock s t).fresh = s.fresh := rfl

@[simp] theorem setSreg_me (s : State) (r : Nat) (v : Word) : (setSreg s r v).me = { s.me with s := s.me.s.setIfInBounds r v, tc := kdel s.me.tc r } := rfl
@[simp] theorem setSreg_live (s : State) (r : Nat) (v : Word) : (setSreg s r v).live = s.live := rfl
@[simp] theorem setSreg_others (s : State) (r : Nat) (v : Word) : (setSreg s r v).others = s.others := rfl
@[simp] theorem setSreg_agenda (s : State) (r : Nat) (v : Word) : (setSreg s r v).agenda = s.agenda := rfl
@[simp] theorem setSreg_nextPc (s : State) (r : Nat) (v : Word) : (setSreg s r v).nextPc = s.nextPc := rfl
@[simp] theorem setSreg_words (s : State) (r : Nat) (v : Word) : (setSreg s r v).words = s.words := rfl
@[simp] theorem setSreg_chain (s : State) (r : Nat) (v : Word) : (setSreg s r v).chain = s.chain := rfl
@[simp] theorem setSreg_gtc (s : State) (r : Nat) (v : Word) : (setSreg s r v).gtc = s.gtc := rfl
@[simp] theorem setSreg_calMark (s : State) (r : Nat) (v : Word) : (setSreg s r v).calMark = s.calMark := rfl
@[simp] theorem setSreg_era (s : State) (r : Nat) (v : Word) : (setSreg s r v).era = s.era := rfl
@[simp] theorem setSreg_rblast (s : State) (r : Nat) (v : Word) : (setSreg s r v).rblast = s.rblast := rfl
@[simp] theorem setSreg_majn (s : State) (r : Nat) (v : Word) : (setSreg s r v).majn = s.majn := rfl
@[simp] theorem setSreg_mem (s : State) (r : Nat) (v : Word) : (setSreg s r v).mem = s.mem := rfl
@[simp] theorem setSreg_poison (s : State) (r : Nat) (v : Word) : (setSreg s r v).poison = s.poison := rfl
@[simp] theorem setSreg_lines (s : State) (r : Nat) (v : Word) : (setSreg s r v).lines = s.lines := rfl
@[simp] theorem setSreg_l2 (s : State) (r : Nat) (v : Word) : (setSreg s r v).l2 = s.l2 := rfl
@[simp] theorem setSreg_wq (s : State) (r : Nat) (v : Word) : (setSreg s r v).wq = s.wq := rfl
@[simp] theorem setSreg_prefq (s : State) (r : Nat) (v : Word) : (setSreg s r v).prefq = s.prefq := rfl
@[simp] theorem setSreg_cores (s : State) (r : Nat) (v : Word) : (setSreg s r v).cores = s.cores := rfl
@[simp] theorem setSreg_banks (s : State) (r : Nat) (v : Word) : (setSreg s r v).banks = s.banks := rfl
@[simp] theorem setSreg_doms (s : State) (r : Nat) (v : Word) : (setSreg s r v).doms = s.doms := rfl
@[simp] theorem setSreg_shared (s : State) (r : Nat) (v : Word) : (setSreg s r v).shared = s.shared := rfl
@[simp] theorem setSreg_sets (s : State) (r : Nat) (v : Word) : (setSreg s r v).sets = s.sets := rfl
@[simp] theorem setSreg_gates (s : State) (r : Nat) (v : Word) : (setSreg s r v).gates = s.gates := rfl
@[simp] theorem setSreg_peers (s : State) (r : Nat) (v : Word) : (setSreg s r v).peers = s.peers := rfl
@[simp] theorem setSreg_topo (s : State) (r : Nat) (v : Word) : (setSreg s r v).topo = s.topo := rfl
@[simp] theorem setSreg_health (s : State) (r : Nat) (v : Word) : (setSreg s r v).health = s.health := rfl
@[simp] theorem setSreg_pkgid (s : State) (r : Nat) (v : Word) : (setSreg s r v).pkgid = s.pkgid := rfl
@[simp] theorem setSreg_ports (s : State) (r : Nat) (v : Word) : (setSreg s r v).ports = s.ports := rfl
@[simp] theorem setSreg_seen (s : State) (r : Nat) (v : Word) : (setSreg s r v).seen = s.seen := rfl
@[simp] theorem setSreg_replies (s : State) (r : Nat) (v : Word) : (setSreg s r v).replies = s.replies := rfl
@[simp] theorem setSreg_outbox (s : State) (r : Nat) (v : Word) : (setSreg s r v).outbox = s.outbox := rfl
@[simp] theorem setSreg_seqs (s : State) (r : Nat) (v : Word) : (setSreg s r v).seqs = s.seqs := rfl
@[simp] theorem setSreg_inbox (s : State) (r : Nat) (v : Word) : (setSreg s r v).inbox = s.inbox := rfl
@[simp] theorem setSreg_peerWait (s : State) (r : Nat) (v : Word) : (setSreg s r v).peerWait = s.peerWait := rfl
@[simp] theorem setSreg_host (s : State) (r : Nat) (v : Word) : (setSreg s r v).host = s.host := rfl
@[simp] theorem setSreg_boot (s : State) (r : Nat) (v : Word) : (setSreg s r v).boot = s.boot := rfl
@[simp] theorem setSreg_tlb (s : State) (r : Nat) (v : Word) : (setSreg s r v).tlb = s.tlb := rfl
@[simp] theorem setSreg_shoots (s : State) (r : Nat) (v : Word) : (setSreg s r v).shoots = s.shoots := rfl
@[simp] theorem setSreg_resv (s : State) (r : Nat) (v : Word) : (setSreg s r v).resv = s.resv := rfl
@[simp] theorem setSreg_records (s : State) (r : Nat) (v : Word) : (setSreg s r v).records = s.records := rfl
@[simp] theorem setSreg_tasks (s : State) (r : Nat) (v : Word) : (setSreg s r v).tasks = s.tasks := rfl
@[simp] theorem setSreg_regions (s : State) (r : Nat) (v : Word) : (setSreg s r v).regions = s.regions := rfl
@[simp] theorem setSreg_bank (s : State) (r : Nat) (v : Word) : (setSreg s r v).bank = s.bank := rfl
@[simp] theorem setSreg_packets (s : State) (r : Nat) (v : Word) : (setSreg s r v).packets = s.packets := rfl
@[simp] theorem setSreg_resets (s : State) (r : Nat) (v : Word) : (setSreg s r v).resets = s.resets := rfl
@[simp] theorem setSreg_nextSid (s : State) (r : Nat) (v : Word) : (setSreg s r v).nextSid = s.nextSid := rfl
@[simp] theorem setSreg_nextGid (s : State) (r : Nat) (v : Word) : (setSreg s r v).nextGid = s.nextGid := rfl
@[simp] theorem setSreg_nextId (s : State) (r : Nat) (v : Word) : (setSreg s r v).nextId = s.nextId := rfl
@[simp] theorem setSreg_bound (s : State) (r : Nat) (v : Word) : (setSreg s r v).bound = s.bound := rfl
@[simp] theorem setSreg_parked (s : State) (r : Nat) (v : Word) : (setSreg s r v).parked = s.parked := rfl
@[simp] theorem setSreg_fresh (s : State) (r : Nat) (v : Word) : (setSreg s r v).fresh = s.fresh := rfl

@[simp] theorem setVreg_me (s : State) (r : Nat) (v : VWord) : (setVreg s r v).me = { s.me with v := s.me.v.setIfInBounds r v } := rfl
@[simp] theorem setVreg_live (s : State) (r : Nat) (v : VWord) : (setVreg s r v).live = s.live := rfl
@[simp] theorem setVreg_others (s : State) (r : Nat) (v : VWord) : (setVreg s r v).others = s.others := rfl
@[simp] theorem setVreg_agenda (s : State) (r : Nat) (v : VWord) : (setVreg s r v).agenda = s.agenda := rfl
@[simp] theorem setVreg_nextPc (s : State) (r : Nat) (v : VWord) : (setVreg s r v).nextPc = s.nextPc := rfl
@[simp] theorem setVreg_words (s : State) (r : Nat) (v : VWord) : (setVreg s r v).words = s.words := rfl
@[simp] theorem setVreg_chain (s : State) (r : Nat) (v : VWord) : (setVreg s r v).chain = s.chain := rfl
@[simp] theorem setVreg_gtc (s : State) (r : Nat) (v : VWord) : (setVreg s r v).gtc = s.gtc := rfl
@[simp] theorem setVreg_calMark (s : State) (r : Nat) (v : VWord) : (setVreg s r v).calMark = s.calMark := rfl
@[simp] theorem setVreg_era (s : State) (r : Nat) (v : VWord) : (setVreg s r v).era = s.era := rfl
@[simp] theorem setVreg_rblast (s : State) (r : Nat) (v : VWord) : (setVreg s r v).rblast = s.rblast := rfl
@[simp] theorem setVreg_majn (s : State) (r : Nat) (v : VWord) : (setVreg s r v).majn = s.majn := rfl
@[simp] theorem setVreg_mem (s : State) (r : Nat) (v : VWord) : (setVreg s r v).mem = s.mem := rfl
@[simp] theorem setVreg_poison (s : State) (r : Nat) (v : VWord) : (setVreg s r v).poison = s.poison := rfl
@[simp] theorem setVreg_lines (s : State) (r : Nat) (v : VWord) : (setVreg s r v).lines = s.lines := rfl
@[simp] theorem setVreg_l2 (s : State) (r : Nat) (v : VWord) : (setVreg s r v).l2 = s.l2 := rfl
@[simp] theorem setVreg_wq (s : State) (r : Nat) (v : VWord) : (setVreg s r v).wq = s.wq := rfl
@[simp] theorem setVreg_prefq (s : State) (r : Nat) (v : VWord) : (setVreg s r v).prefq = s.prefq := rfl
@[simp] theorem setVreg_cores (s : State) (r : Nat) (v : VWord) : (setVreg s r v).cores = s.cores := rfl
@[simp] theorem setVreg_banks (s : State) (r : Nat) (v : VWord) : (setVreg s r v).banks = s.banks := rfl
@[simp] theorem setVreg_doms (s : State) (r : Nat) (v : VWord) : (setVreg s r v).doms = s.doms := rfl
@[simp] theorem setVreg_shared (s : State) (r : Nat) (v : VWord) : (setVreg s r v).shared = s.shared := rfl
@[simp] theorem setVreg_sets (s : State) (r : Nat) (v : VWord) : (setVreg s r v).sets = s.sets := rfl
@[simp] theorem setVreg_gates (s : State) (r : Nat) (v : VWord) : (setVreg s r v).gates = s.gates := rfl
@[simp] theorem setVreg_peers (s : State) (r : Nat) (v : VWord) : (setVreg s r v).peers = s.peers := rfl
@[simp] theorem setVreg_topo (s : State) (r : Nat) (v : VWord) : (setVreg s r v).topo = s.topo := rfl
@[simp] theorem setVreg_health (s : State) (r : Nat) (v : VWord) : (setVreg s r v).health = s.health := rfl
@[simp] theorem setVreg_pkgid (s : State) (r : Nat) (v : VWord) : (setVreg s r v).pkgid = s.pkgid := rfl
@[simp] theorem setVreg_ports (s : State) (r : Nat) (v : VWord) : (setVreg s r v).ports = s.ports := rfl
@[simp] theorem setVreg_seen (s : State) (r : Nat) (v : VWord) : (setVreg s r v).seen = s.seen := rfl
@[simp] theorem setVreg_replies (s : State) (r : Nat) (v : VWord) : (setVreg s r v).replies = s.replies := rfl
@[simp] theorem setVreg_outbox (s : State) (r : Nat) (v : VWord) : (setVreg s r v).outbox = s.outbox := rfl
@[simp] theorem setVreg_seqs (s : State) (r : Nat) (v : VWord) : (setVreg s r v).seqs = s.seqs := rfl
@[simp] theorem setVreg_inbox (s : State) (r : Nat) (v : VWord) : (setVreg s r v).inbox = s.inbox := rfl
@[simp] theorem setVreg_peerWait (s : State) (r : Nat) (v : VWord) : (setVreg s r v).peerWait = s.peerWait := rfl
@[simp] theorem setVreg_host (s : State) (r : Nat) (v : VWord) : (setVreg s r v).host = s.host := rfl
@[simp] theorem setVreg_boot (s : State) (r : Nat) (v : VWord) : (setVreg s r v).boot = s.boot := rfl
@[simp] theorem setVreg_tlb (s : State) (r : Nat) (v : VWord) : (setVreg s r v).tlb = s.tlb := rfl
@[simp] theorem setVreg_shoots (s : State) (r : Nat) (v : VWord) : (setVreg s r v).shoots = s.shoots := rfl
@[simp] theorem setVreg_resv (s : State) (r : Nat) (v : VWord) : (setVreg s r v).resv = s.resv := rfl
@[simp] theorem setVreg_records (s : State) (r : Nat) (v : VWord) : (setVreg s r v).records = s.records := rfl
@[simp] theorem setVreg_tasks (s : State) (r : Nat) (v : VWord) : (setVreg s r v).tasks = s.tasks := rfl
@[simp] theorem setVreg_regions (s : State) (r : Nat) (v : VWord) : (setVreg s r v).regions = s.regions := rfl
@[simp] theorem setVreg_bank (s : State) (r : Nat) (v : VWord) : (setVreg s r v).bank = s.bank := rfl
@[simp] theorem setVreg_packets (s : State) (r : Nat) (v : VWord) : (setVreg s r v).packets = s.packets := rfl
@[simp] theorem setVreg_resets (s : State) (r : Nat) (v : VWord) : (setVreg s r v).resets = s.resets := rfl
@[simp] theorem setVreg_nextSid (s : State) (r : Nat) (v : VWord) : (setVreg s r v).nextSid = s.nextSid := rfl
@[simp] theorem setVreg_nextGid (s : State) (r : Nat) (v : VWord) : (setVreg s r v).nextGid = s.nextGid := rfl
@[simp] theorem setVreg_nextId (s : State) (r : Nat) (v : VWord) : (setVreg s r v).nextId = s.nextId := rfl
@[simp] theorem setVreg_bound (s : State) (r : Nat) (v : VWord) : (setVreg s r v).bound = s.bound := rfl
@[simp] theorem setVreg_parked (s : State) (r : Nat) (v : VWord) : (setVreg s r v).parked = s.parked := rfl
@[simp] theorem setVreg_fresh (s : State) (r : Nat) (v : VWord) : (setVreg s r v).fresh = s.fresh := rfl

@[simp] theorem retireTo_me (s : State) (pc : Word) : (retireTo s pc).me = { s.me with pc := pc, ydl := s.me.ydl - 1, wait := .none, pre := none } := rfl
@[simp] theorem retireTo_live (s : State) (pc : Word) : (retireTo s pc).live = s.live := rfl
@[simp] theorem retireTo_others (s : State) (pc : Word) : (retireTo s pc).others = s.others := rfl
@[simp] theorem retireTo_agenda (s : State) (pc : Word) : (retireTo s pc).agenda = s.agenda := rfl
@[simp] theorem retireTo_nextPc (s : State) (pc : Word) : (retireTo s pc).nextPc = s.nextPc := rfl
@[simp] theorem retireTo_words (s : State) (pc : Word) : (retireTo s pc).words = s.words := rfl
@[simp] theorem retireTo_chain (s : State) (pc : Word) : (retireTo s pc).chain = s.chain := rfl
@[simp] theorem retireTo_gtc (s : State) (pc : Word) : (retireTo s pc).gtc = s.gtc := rfl
@[simp] theorem retireTo_calMark (s : State) (pc : Word) : (retireTo s pc).calMark = s.calMark := rfl
@[simp] theorem retireTo_era (s : State) (pc : Word) : (retireTo s pc).era = s.era := rfl
@[simp] theorem retireTo_rblast (s : State) (pc : Word) : (retireTo s pc).rblast = s.rblast := rfl
@[simp] theorem retireTo_majn (s : State) (pc : Word) : (retireTo s pc).majn = s.majn := rfl
@[simp] theorem retireTo_mem (s : State) (pc : Word) : (retireTo s pc).mem = s.mem := rfl
@[simp] theorem retireTo_poison (s : State) (pc : Word) : (retireTo s pc).poison = s.poison := rfl
@[simp] theorem retireTo_lines (s : State) (pc : Word) : (retireTo s pc).lines = s.lines := rfl
@[simp] theorem retireTo_l2 (s : State) (pc : Word) : (retireTo s pc).l2 = s.l2 := rfl
@[simp] theorem retireTo_wq (s : State) (pc : Word) : (retireTo s pc).wq = s.wq := rfl
@[simp] theorem retireTo_prefq (s : State) (pc : Word) : (retireTo s pc).prefq = s.prefq := rfl
@[simp] theorem retireTo_cores (s : State) (pc : Word) : (retireTo s pc).cores = s.cores := rfl
@[simp] theorem retireTo_banks (s : State) (pc : Word) : (retireTo s pc).banks = s.banks := rfl
@[simp] theorem retireTo_doms (s : State) (pc : Word) : (retireTo s pc).doms = s.doms := rfl
@[simp] theorem retireTo_shared (s : State) (pc : Word) : (retireTo s pc).shared = s.shared := rfl
@[simp] theorem retireTo_sets (s : State) (pc : Word) : (retireTo s pc).sets = s.sets := rfl
@[simp] theorem retireTo_gates (s : State) (pc : Word) : (retireTo s pc).gates = s.gates := rfl
@[simp] theorem retireTo_peers (s : State) (pc : Word) : (retireTo s pc).peers = s.peers := rfl
@[simp] theorem retireTo_topo (s : State) (pc : Word) : (retireTo s pc).topo = s.topo := rfl
@[simp] theorem retireTo_health (s : State) (pc : Word) : (retireTo s pc).health = s.health := rfl
@[simp] theorem retireTo_pkgid (s : State) (pc : Word) : (retireTo s pc).pkgid = s.pkgid := rfl
@[simp] theorem retireTo_ports (s : State) (pc : Word) : (retireTo s pc).ports = s.ports := rfl
@[simp] theorem retireTo_seen (s : State) (pc : Word) : (retireTo s pc).seen = s.seen := rfl
@[simp] theorem retireTo_replies (s : State) (pc : Word) : (retireTo s pc).replies = s.replies := rfl
@[simp] theorem retireTo_outbox (s : State) (pc : Word) : (retireTo s pc).outbox = s.outbox := rfl
@[simp] theorem retireTo_seqs (s : State) (pc : Word) : (retireTo s pc).seqs = s.seqs := rfl
@[simp] theorem retireTo_inbox (s : State) (pc : Word) : (retireTo s pc).inbox = s.inbox := rfl
@[simp] theorem retireTo_peerWait (s : State) (pc : Word) : (retireTo s pc).peerWait = s.peerWait := rfl
@[simp] theorem retireTo_host (s : State) (pc : Word) : (retireTo s pc).host = s.host := rfl
@[simp] theorem retireTo_boot (s : State) (pc : Word) : (retireTo s pc).boot = s.boot := rfl
@[simp] theorem retireTo_tlb (s : State) (pc : Word) : (retireTo s pc).tlb = s.tlb := rfl
@[simp] theorem retireTo_shoots (s : State) (pc : Word) : (retireTo s pc).shoots = s.shoots := rfl
@[simp] theorem retireTo_resv (s : State) (pc : Word) : (retireTo s pc).resv = s.resv := rfl
@[simp] theorem retireTo_records (s : State) (pc : Word) : (retireTo s pc).records = s.records := rfl
@[simp] theorem retireTo_tasks (s : State) (pc : Word) : (retireTo s pc).tasks = s.tasks := rfl
@[simp] theorem retireTo_regions (s : State) (pc : Word) : (retireTo s pc).regions = s.regions := rfl
@[simp] theorem retireTo_bank (s : State) (pc : Word) : (retireTo s pc).bank = s.bank := rfl
@[simp] theorem retireTo_packets (s : State) (pc : Word) : (retireTo s pc).packets = s.packets := rfl
@[simp] theorem retireTo_resets (s : State) (pc : Word) : (retireTo s pc).resets = s.resets := rfl
@[simp] theorem retireTo_nextSid (s : State) (pc : Word) : (retireTo s pc).nextSid = s.nextSid := rfl
@[simp] theorem retireTo_nextGid (s : State) (pc : Word) : (retireTo s pc).nextGid = s.nextGid := rfl
@[simp] theorem retireTo_nextId (s : State) (pc : Word) : (retireTo s pc).nextId = s.nextId := rfl
@[simp] theorem retireTo_bound (s : State) (pc : Word) : (retireTo s pc).bound = s.bound := rfl
@[simp] theorem retireTo_parked (s : State) (pc : Word) : (retireTo s pc).parked = s.parked := rfl
@[simp] theorem retireTo_fresh (s : State) (pc : Word) : (retireTo s pc).fresh = s.fresh := rfl

@[simp] theorem trapEntry_live (s : State) (pc : Word) (c : Cause) (a : Bool) (v : Word) : (trapEntry s pc c a v).live = s.live := rfl
@[simp] theorem trapEntry_others (s : State) (pc : Word) (c : Cause) (a : Bool) (v : Word) : (trapEntry s pc c a v).others = s.others := rfl
@[simp] theorem trapEntry_agenda (s : State) (pc : Word) (c : Cause) (a : Bool) (v : Word) : (trapEntry s pc c a v).agenda = s.agenda := rfl
@[simp] theorem trapEntry_nextPc (s : State) (pc : Word) (c : Cause) (a : Bool) (v : Word) : (trapEntry s pc c a v).nextPc = s.nextPc := rfl
@[simp] theorem trapEntry_words (s : State) (pc : Word) (c : Cause) (a : Bool) (v : Word) : (trapEntry s pc c a v).words = s.words := rfl
@[simp] theorem trapEntry_chain (s : State) (pc : Word) (c : Cause) (a : Bool) (v : Word) : (trapEntry s pc c a v).chain = s.chain := rfl
@[simp] theorem trapEntry_gtc (s : State) (pc : Word) (c : Cause) (a : Bool) (v : Word) : (trapEntry s pc c a v).gtc = s.gtc := rfl
@[simp] theorem trapEntry_calMark (s : State) (pc : Word) (c : Cause) (a : Bool) (v : Word) : (trapEntry s pc c a v).calMark = s.calMark := rfl
@[simp] theorem trapEntry_era (s : State) (pc : Word) (c : Cause) (a : Bool) (v : Word) : (trapEntry s pc c a v).era = s.era := rfl
@[simp] theorem trapEntry_rblast (s : State) (pc : Word) (c : Cause) (a : Bool) (v : Word) : (trapEntry s pc c a v).rblast = s.rblast := rfl
@[simp] theorem trapEntry_majn (s : State) (pc : Word) (c : Cause) (a : Bool) (v : Word) : (trapEntry s pc c a v).majn = s.majn := rfl
@[simp] theorem trapEntry_mem (s : State) (pc : Word) (c : Cause) (a : Bool) (v : Word) : (trapEntry s pc c a v).mem = s.mem := rfl
@[simp] theorem trapEntry_poison (s : State) (pc : Word) (c : Cause) (a : Bool) (v : Word) : (trapEntry s pc c a v).poison = s.poison := rfl
@[simp] theorem trapEntry_lines (s : State) (pc : Word) (c : Cause) (a : Bool) (v : Word) : (trapEntry s pc c a v).lines = s.lines := rfl
@[simp] theorem trapEntry_l2 (s : State) (pc : Word) (c : Cause) (a : Bool) (v : Word) : (trapEntry s pc c a v).l2 = s.l2 := rfl
@[simp] theorem trapEntry_wq (s : State) (pc : Word) (c : Cause) (a : Bool) (v : Word) : (trapEntry s pc c a v).wq = s.wq := rfl
@[simp] theorem trapEntry_prefq (s : State) (pc : Word) (c : Cause) (a : Bool) (v : Word) : (trapEntry s pc c a v).prefq = s.prefq := rfl
@[simp] theorem trapEntry_cores (s : State) (pc : Word) (c : Cause) (a : Bool) (v : Word) : (trapEntry s pc c a v).cores = s.cores := rfl
@[simp] theorem trapEntry_banks (s : State) (pc : Word) (c : Cause) (a : Bool) (v : Word) : (trapEntry s pc c a v).banks = s.banks := rfl
@[simp] theorem trapEntry_doms (s : State) (pc : Word) (c : Cause) (a : Bool) (v : Word) : (trapEntry s pc c a v).doms = s.doms := rfl
@[simp] theorem trapEntry_shared (s : State) (pc : Word) (c : Cause) (a : Bool) (v : Word) : (trapEntry s pc c a v).shared = s.shared := rfl
@[simp] theorem trapEntry_sets (s : State) (pc : Word) (c : Cause) (a : Bool) (v : Word) : (trapEntry s pc c a v).sets = s.sets := rfl
@[simp] theorem trapEntry_gates (s : State) (pc : Word) (c : Cause) (a : Bool) (v : Word) : (trapEntry s pc c a v).gates = s.gates := rfl
@[simp] theorem trapEntry_peers (s : State) (pc : Word) (c : Cause) (a : Bool) (v : Word) : (trapEntry s pc c a v).peers = s.peers := rfl
@[simp] theorem trapEntry_topo (s : State) (pc : Word) (c : Cause) (a : Bool) (v : Word) : (trapEntry s pc c a v).topo = s.topo := rfl
@[simp] theorem trapEntry_health (s : State) (pc : Word) (c : Cause) (a : Bool) (v : Word) : (trapEntry s pc c a v).health = s.health := rfl
@[simp] theorem trapEntry_pkgid (s : State) (pc : Word) (c : Cause) (a : Bool) (v : Word) : (trapEntry s pc c a v).pkgid = s.pkgid := rfl
@[simp] theorem trapEntry_ports (s : State) (pc : Word) (c : Cause) (a : Bool) (v : Word) : (trapEntry s pc c a v).ports = s.ports := rfl
@[simp] theorem trapEntry_seen (s : State) (pc : Word) (c : Cause) (a : Bool) (v : Word) : (trapEntry s pc c a v).seen = s.seen := rfl
@[simp] theorem trapEntry_replies (s : State) (pc : Word) (c : Cause) (a : Bool) (v : Word) : (trapEntry s pc c a v).replies = s.replies := rfl
@[simp] theorem trapEntry_outbox (s : State) (pc : Word) (c : Cause) (a : Bool) (v : Word) : (trapEntry s pc c a v).outbox = s.outbox := rfl
@[simp] theorem trapEntry_seqs (s : State) (pc : Word) (c : Cause) (a : Bool) (v : Word) : (trapEntry s pc c a v).seqs = s.seqs := rfl
@[simp] theorem trapEntry_inbox (s : State) (pc : Word) (c : Cause) (a : Bool) (v : Word) : (trapEntry s pc c a v).inbox = s.inbox := rfl
@[simp] theorem trapEntry_peerWait (s : State) (pc : Word) (c : Cause) (a : Bool) (v : Word) : (trapEntry s pc c a v).peerWait = s.peerWait := rfl
@[simp] theorem trapEntry_host (s : State) (pc : Word) (c : Cause) (a : Bool) (v : Word) : (trapEntry s pc c a v).host = s.host := rfl
@[simp] theorem trapEntry_boot (s : State) (pc : Word) (c : Cause) (a : Bool) (v : Word) : (trapEntry s pc c a v).boot = s.boot := rfl
@[simp] theorem trapEntry_tlb (s : State) (pc : Word) (c : Cause) (a : Bool) (v : Word) : (trapEntry s pc c a v).tlb = s.tlb := rfl
@[simp] theorem trapEntry_shoots (s : State) (pc : Word) (c : Cause) (a : Bool) (v : Word) : (trapEntry s pc c a v).shoots = s.shoots := rfl
@[simp] theorem trapEntry_resv (s : State) (pc : Word) (c : Cause) (a : Bool) (v : Word) : (trapEntry s pc c a v).resv = s.resv := rfl
@[simp] theorem trapEntry_records (s : State) (pc : Word) (c : Cause) (a : Bool) (v : Word) : (trapEntry s pc c a v).records = s.records := rfl
@[simp] theorem trapEntry_tasks (s : State) (pc : Word) (c : Cause) (a : Bool) (v : Word) : (trapEntry s pc c a v).tasks = s.tasks := rfl
@[simp] theorem trapEntry_regions (s : State) (pc : Word) (c : Cause) (a : Bool) (v : Word) : (trapEntry s pc c a v).regions = s.regions := rfl
@[simp] theorem trapEntry_bank (s : State) (pc : Word) (c : Cause) (a : Bool) (v : Word) : (trapEntry s pc c a v).bank = s.bank := rfl
@[simp] theorem trapEntry_packets (s : State) (pc : Word) (c : Cause) (a : Bool) (v : Word) : (trapEntry s pc c a v).packets = s.packets := rfl
@[simp] theorem trapEntry_resets (s : State) (pc : Word) (c : Cause) (a : Bool) (v : Word) : (trapEntry s pc c a v).resets = s.resets := rfl
@[simp] theorem trapEntry_nextSid (s : State) (pc : Word) (c : Cause) (a : Bool) (v : Word) : (trapEntry s pc c a v).nextSid = s.nextSid := rfl
@[simp] theorem trapEntry_nextGid (s : State) (pc : Word) (c : Cause) (a : Bool) (v : Word) : (trapEntry s pc c a v).nextGid = s.nextGid := rfl
@[simp] theorem trapEntry_nextId (s : State) (pc : Word) (c : Cause) (a : Bool) (v : Word) : (trapEntry s pc c a v).nextId = s.nextId := rfl
@[simp] theorem trapEntry_bound (s : State) (pc : Word) (c : Cause) (a : Bool) (v : Word) : (trapEntry s pc c a v).bound = s.bound := rfl
@[simp] theorem trapEntry_parked (s : State) (pc : Word) (c : Cause) (a : Bool) (v : Word) : (trapEntry s pc c a v).parked = s.parked := rfl
@[simp] theorem trapEntry_fresh (s : State) (pc : Word) (c : Cause) (a : Bool) (v : Word) : (trapEntry s pc c a v).fresh = s.fresh := rfl

@[simp] theorem trapReturn_me (s : State) : (trapReturn s).me = { s.me with pc := s.me.tpc, th := false } := rfl
@[simp] theorem trapReturn_live (s : State) : (trapReturn s).live = s.live := rfl
@[simp] theorem trapReturn_others (s : State) : (trapReturn s).others = s.others := rfl
@[simp] theorem trapReturn_agenda (s : State) : (trapReturn s).agenda = s.agenda := rfl
@[simp] theorem trapReturn_nextPc (s : State) : (trapReturn s).nextPc = s.nextPc := rfl
@[simp] theorem trapReturn_words (s : State) : (trapReturn s).words = s.words := rfl
@[simp] theorem trapReturn_chain (s : State) : (trapReturn s).chain = s.chain := rfl
@[simp] theorem trapReturn_gtc (s : State) : (trapReturn s).gtc = s.gtc := rfl
@[simp] theorem trapReturn_calMark (s : State) : (trapReturn s).calMark = s.calMark := rfl
@[simp] theorem trapReturn_era (s : State) : (trapReturn s).era = s.era := rfl
@[simp] theorem trapReturn_rblast (s : State) : (trapReturn s).rblast = s.rblast := rfl
@[simp] theorem trapReturn_majn (s : State) : (trapReturn s).majn = s.majn := rfl
@[simp] theorem trapReturn_mem (s : State) : (trapReturn s).mem = s.mem := rfl
@[simp] theorem trapReturn_poison (s : State) : (trapReturn s).poison = s.poison := rfl
@[simp] theorem trapReturn_lines (s : State) : (trapReturn s).lines = s.lines := rfl
@[simp] theorem trapReturn_l2 (s : State) : (trapReturn s).l2 = s.l2 := rfl
@[simp] theorem trapReturn_wq (s : State) : (trapReturn s).wq = s.wq := rfl
@[simp] theorem trapReturn_prefq (s : State) : (trapReturn s).prefq = s.prefq := rfl
@[simp] theorem trapReturn_cores (s : State) : (trapReturn s).cores = s.cores := rfl
@[simp] theorem trapReturn_banks (s : State) : (trapReturn s).banks = s.banks := rfl
@[simp] theorem trapReturn_doms (s : State) : (trapReturn s).doms = s.doms := rfl
@[simp] theorem trapReturn_shared (s : State) : (trapReturn s).shared = s.shared := rfl
@[simp] theorem trapReturn_sets (s : State) : (trapReturn s).sets = s.sets := rfl
@[simp] theorem trapReturn_gates (s : State) : (trapReturn s).gates = s.gates := rfl
@[simp] theorem trapReturn_peers (s : State) : (trapReturn s).peers = s.peers := rfl
@[simp] theorem trapReturn_topo (s : State) : (trapReturn s).topo = s.topo := rfl
@[simp] theorem trapReturn_health (s : State) : (trapReturn s).health = s.health := rfl
@[simp] theorem trapReturn_pkgid (s : State) : (trapReturn s).pkgid = s.pkgid := rfl
@[simp] theorem trapReturn_ports (s : State) : (trapReturn s).ports = s.ports := rfl
@[simp] theorem trapReturn_seen (s : State) : (trapReturn s).seen = s.seen := rfl
@[simp] theorem trapReturn_replies (s : State) : (trapReturn s).replies = s.replies := rfl
@[simp] theorem trapReturn_outbox (s : State) : (trapReturn s).outbox = s.outbox := rfl
@[simp] theorem trapReturn_seqs (s : State) : (trapReturn s).seqs = s.seqs := rfl
@[simp] theorem trapReturn_inbox (s : State) : (trapReturn s).inbox = s.inbox := rfl
@[simp] theorem trapReturn_peerWait (s : State) : (trapReturn s).peerWait = s.peerWait := rfl
@[simp] theorem trapReturn_host (s : State) : (trapReturn s).host = s.host := rfl
@[simp] theorem trapReturn_boot (s : State) : (trapReturn s).boot = s.boot := rfl
@[simp] theorem trapReturn_tlb (s : State) : (trapReturn s).tlb = s.tlb := rfl
@[simp] theorem trapReturn_shoots (s : State) : (trapReturn s).shoots = s.shoots := rfl
@[simp] theorem trapReturn_resv (s : State) : (trapReturn s).resv = s.resv := rfl
@[simp] theorem trapReturn_records (s : State) : (trapReturn s).records = s.records := rfl
@[simp] theorem trapReturn_tasks (s : State) : (trapReturn s).tasks = s.tasks := rfl
@[simp] theorem trapReturn_regions (s : State) : (trapReturn s).regions = s.regions := rfl
@[simp] theorem trapReturn_bank (s : State) : (trapReturn s).bank = s.bank := rfl
@[simp] theorem trapReturn_packets (s : State) : (trapReturn s).packets = s.packets := rfl
@[simp] theorem trapReturn_resets (s : State) : (trapReturn s).resets = s.resets := rfl
@[simp] theorem trapReturn_nextSid (s : State) : (trapReturn s).nextSid = s.nextSid := rfl
@[simp] theorem trapReturn_nextGid (s : State) : (trapReturn s).nextGid = s.nextGid := rfl
@[simp] theorem trapReturn_nextId (s : State) : (trapReturn s).nextId = s.nextId := rfl
@[simp] theorem trapReturn_bound (s : State) : (trapReturn s).bound = s.bound := rfl
@[simp] theorem trapReturn_parked (s : State) : (trapReturn s).parked = s.parked := rfl
@[simp] theorem trapReturn_fresh (s : State) : (trapReturn s).fresh = s.fresh := rfl

@[simp] theorem setCore_me (s : State) (c : Nat) (x : CoreSt) : (setCore s c x).me = s.me := rfl
@[simp] theorem setCore_live (s : State) (c : Nat) (x : CoreSt) : (setCore s c x).live = s.live := rfl
@[simp] theorem setCore_others (s : State) (c : Nat) (x : CoreSt) : (setCore s c x).others = s.others := rfl
@[simp] theorem setCore_agenda (s : State) (c : Nat) (x : CoreSt) : (setCore s c x).agenda = s.agenda := rfl
@[simp] theorem setCore_nextPc (s : State) (c : Nat) (x : CoreSt) : (setCore s c x).nextPc = s.nextPc := rfl
@[simp] theorem setCore_words (s : State) (c : Nat) (x : CoreSt) : (setCore s c x).words = s.words := rfl
@[simp] theorem setCore_chain (s : State) (c : Nat) (x : CoreSt) : (setCore s c x).chain = s.chain := rfl
@[simp] theorem setCore_gtc (s : State) (c : Nat) (x : CoreSt) : (setCore s c x).gtc = s.gtc := rfl
@[simp] theorem setCore_calMark (s : State) (c : Nat) (x : CoreSt) : (setCore s c x).calMark = s.calMark := rfl
@[simp] theorem setCore_era (s : State) (c : Nat) (x : CoreSt) : (setCore s c x).era = s.era := rfl
@[simp] theorem setCore_rblast (s : State) (c : Nat) (x : CoreSt) : (setCore s c x).rblast = s.rblast := rfl
@[simp] theorem setCore_majn (s : State) (c : Nat) (x : CoreSt) : (setCore s c x).majn = s.majn := rfl
@[simp] theorem setCore_mem (s : State) (c : Nat) (x : CoreSt) : (setCore s c x).mem = s.mem := rfl
@[simp] theorem setCore_poison (s : State) (c : Nat) (x : CoreSt) : (setCore s c x).poison = s.poison := rfl
@[simp] theorem setCore_lines (s : State) (c : Nat) (x : CoreSt) : (setCore s c x).lines = s.lines := rfl
@[simp] theorem setCore_l2 (s : State) (c : Nat) (x : CoreSt) : (setCore s c x).l2 = s.l2 := rfl
@[simp] theorem setCore_wq (s : State) (c : Nat) (x : CoreSt) : (setCore s c x).wq = s.wq := rfl
@[simp] theorem setCore_prefq (s : State) (c : Nat) (x : CoreSt) : (setCore s c x).prefq = s.prefq := rfl
@[simp] theorem setCore_cores (s : State) (c : Nat) (x : CoreSt) : (setCore s c x).cores = kset s.cores c x := rfl
@[simp] theorem setCore_banks (s : State) (c : Nat) (x : CoreSt) : (setCore s c x).banks = s.banks := rfl
@[simp] theorem setCore_doms (s : State) (c : Nat) (x : CoreSt) : (setCore s c x).doms = s.doms := rfl
@[simp] theorem setCore_shared (s : State) (c : Nat) (x : CoreSt) : (setCore s c x).shared = s.shared := rfl
@[simp] theorem setCore_sets (s : State) (c : Nat) (x : CoreSt) : (setCore s c x).sets = s.sets := rfl
@[simp] theorem setCore_gates (s : State) (c : Nat) (x : CoreSt) : (setCore s c x).gates = s.gates := rfl
@[simp] theorem setCore_peers (s : State) (c : Nat) (x : CoreSt) : (setCore s c x).peers = s.peers := rfl
@[simp] theorem setCore_topo (s : State) (c : Nat) (x : CoreSt) : (setCore s c x).topo = s.topo := rfl
@[simp] theorem setCore_health (s : State) (c : Nat) (x : CoreSt) : (setCore s c x).health = s.health := rfl
@[simp] theorem setCore_pkgid (s : State) (c : Nat) (x : CoreSt) : (setCore s c x).pkgid = s.pkgid := rfl
@[simp] theorem setCore_ports (s : State) (c : Nat) (x : CoreSt) : (setCore s c x).ports = s.ports := rfl
@[simp] theorem setCore_seen (s : State) (c : Nat) (x : CoreSt) : (setCore s c x).seen = s.seen := rfl
@[simp] theorem setCore_replies (s : State) (c : Nat) (x : CoreSt) : (setCore s c x).replies = s.replies := rfl
@[simp] theorem setCore_outbox (s : State) (c : Nat) (x : CoreSt) : (setCore s c x).outbox = s.outbox := rfl
@[simp] theorem setCore_seqs (s : State) (c : Nat) (x : CoreSt) : (setCore s c x).seqs = s.seqs := rfl
@[simp] theorem setCore_inbox (s : State) (c : Nat) (x : CoreSt) : (setCore s c x).inbox = s.inbox := rfl
@[simp] theorem setCore_peerWait (s : State) (c : Nat) (x : CoreSt) : (setCore s c x).peerWait = s.peerWait := rfl
@[simp] theorem setCore_host (s : State) (c : Nat) (x : CoreSt) : (setCore s c x).host = s.host := rfl
@[simp] theorem setCore_boot (s : State) (c : Nat) (x : CoreSt) : (setCore s c x).boot = s.boot := rfl
@[simp] theorem setCore_tlb (s : State) (c : Nat) (x : CoreSt) : (setCore s c x).tlb = s.tlb := rfl
@[simp] theorem setCore_shoots (s : State) (c : Nat) (x : CoreSt) : (setCore s c x).shoots = s.shoots := rfl
@[simp] theorem setCore_resv (s : State) (c : Nat) (x : CoreSt) : (setCore s c x).resv = s.resv := rfl
@[simp] theorem setCore_records (s : State) (c : Nat) (x : CoreSt) : (setCore s c x).records = s.records := rfl
@[simp] theorem setCore_tasks (s : State) (c : Nat) (x : CoreSt) : (setCore s c x).tasks = s.tasks := rfl
@[simp] theorem setCore_regions (s : State) (c : Nat) (x : CoreSt) : (setCore s c x).regions = s.regions := rfl
@[simp] theorem setCore_bank (s : State) (c : Nat) (x : CoreSt) : (setCore s c x).bank = s.bank := rfl
@[simp] theorem setCore_packets (s : State) (c : Nat) (x : CoreSt) : (setCore s c x).packets = s.packets := rfl
@[simp] theorem setCore_resets (s : State) (c : Nat) (x : CoreSt) : (setCore s c x).resets = s.resets := rfl
@[simp] theorem setCore_nextSid (s : State) (c : Nat) (x : CoreSt) : (setCore s c x).nextSid = s.nextSid := rfl
@[simp] theorem setCore_nextGid (s : State) (c : Nat) (x : CoreSt) : (setCore s c x).nextGid = s.nextGid := rfl
@[simp] theorem setCore_nextId (s : State) (c : Nat) (x : CoreSt) : (setCore s c x).nextId = s.nextId := rfl
@[simp] theorem setCore_bound (s : State) (c : Nat) (x : CoreSt) : (setCore s c x).bound = s.bound := rfl
@[simp] theorem setCore_parked (s : State) (c : Nat) (x : CoreSt) : (setCore s c x).parked = s.parked := rfl
@[simp] theorem setCore_fresh (s : State) (c : Nat) (x : CoreSt) : (setCore s c x).fresh = s.fresh := rfl

@[simp] theorem updCore_me (s : State) (c : Nat) (f : CoreSt → CoreSt) : (updCore s c f).me = s.me := rfl
@[simp] theorem updCore_live (s : State) (c : Nat) (f : CoreSt → CoreSt) : (updCore s c f).live = s.live := rfl
@[simp] theorem updCore_others (s : State) (c : Nat) (f : CoreSt → CoreSt) : (updCore s c f).others = s.others := rfl
@[simp] theorem updCore_agenda (s : State) (c : Nat) (f : CoreSt → CoreSt) : (updCore s c f).agenda = s.agenda := rfl
@[simp] theorem updCore_nextPc (s : State) (c : Nat) (f : CoreSt → CoreSt) : (updCore s c f).nextPc = s.nextPc := rfl
@[simp] theorem updCore_words (s : State) (c : Nat) (f : CoreSt → CoreSt) : (updCore s c f).words = s.words := rfl
@[simp] theorem updCore_chain (s : State) (c : Nat) (f : CoreSt → CoreSt) : (updCore s c f).chain = s.chain := rfl
@[simp] theorem updCore_gtc (s : State) (c : Nat) (f : CoreSt → CoreSt) : (updCore s c f).gtc = s.gtc := rfl
@[simp] theorem updCore_calMark (s : State) (c : Nat) (f : CoreSt → CoreSt) : (updCore s c f).calMark = s.calMark := rfl
@[simp] theorem updCore_era (s : State) (c : Nat) (f : CoreSt → CoreSt) : (updCore s c f).era = s.era := rfl
@[simp] theorem updCore_rblast (s : State) (c : Nat) (f : CoreSt → CoreSt) : (updCore s c f).rblast = s.rblast := rfl
@[simp] theorem updCore_majn (s : State) (c : Nat) (f : CoreSt → CoreSt) : (updCore s c f).majn = s.majn := rfl
@[simp] theorem updCore_mem (s : State) (c : Nat) (f : CoreSt → CoreSt) : (updCore s c f).mem = s.mem := rfl
@[simp] theorem updCore_poison (s : State) (c : Nat) (f : CoreSt → CoreSt) : (updCore s c f).poison = s.poison := rfl
@[simp] theorem updCore_lines (s : State) (c : Nat) (f : CoreSt → CoreSt) : (updCore s c f).lines = s.lines := rfl
@[simp] theorem updCore_l2 (s : State) (c : Nat) (f : CoreSt → CoreSt) : (updCore s c f).l2 = s.l2 := rfl
@[simp] theorem updCore_wq (s : State) (c : Nat) (f : CoreSt → CoreSt) : (updCore s c f).wq = s.wq := rfl
@[simp] theorem updCore_prefq (s : State) (c : Nat) (f : CoreSt → CoreSt) : (updCore s c f).prefq = s.prefq := rfl
@[simp] theorem updCore_cores (s : State) (c : Nat) (f : CoreSt → CoreSt) : (updCore s c f).cores = kset s.cores c (f (coreOf s c)) := rfl
@[simp] theorem updCore_banks (s : State) (c : Nat) (f : CoreSt → CoreSt) : (updCore s c f).banks = s.banks := rfl
@[simp] theorem updCore_doms (s : State) (c : Nat) (f : CoreSt → CoreSt) : (updCore s c f).doms = s.doms := rfl
@[simp] theorem updCore_shared (s : State) (c : Nat) (f : CoreSt → CoreSt) : (updCore s c f).shared = s.shared := rfl
@[simp] theorem updCore_sets (s : State) (c : Nat) (f : CoreSt → CoreSt) : (updCore s c f).sets = s.sets := rfl
@[simp] theorem updCore_gates (s : State) (c : Nat) (f : CoreSt → CoreSt) : (updCore s c f).gates = s.gates := rfl
@[simp] theorem updCore_peers (s : State) (c : Nat) (f : CoreSt → CoreSt) : (updCore s c f).peers = s.peers := rfl
@[simp] theorem updCore_topo (s : State) (c : Nat) (f : CoreSt → CoreSt) : (updCore s c f).topo = s.topo := rfl
@[simp] theorem updCore_health (s : State) (c : Nat) (f : CoreSt → CoreSt) : (updCore s c f).health = s.health := rfl
@[simp] theorem updCore_pkgid (s : State) (c : Nat) (f : CoreSt → CoreSt) : (updCore s c f).pkgid = s.pkgid := rfl
@[simp] theorem updCore_ports (s : State) (c : Nat) (f : CoreSt → CoreSt) : (updCore s c f).ports = s.ports := rfl
@[simp] theorem updCore_seen (s : State) (c : Nat) (f : CoreSt → CoreSt) : (updCore s c f).seen = s.seen := rfl
@[simp] theorem updCore_replies (s : State) (c : Nat) (f : CoreSt → CoreSt) : (updCore s c f).replies = s.replies := rfl
@[simp] theorem updCore_outbox (s : State) (c : Nat) (f : CoreSt → CoreSt) : (updCore s c f).outbox = s.outbox := rfl
@[simp] theorem updCore_seqs (s : State) (c : Nat) (f : CoreSt → CoreSt) : (updCore s c f).seqs = s.seqs := rfl
@[simp] theorem updCore_inbox (s : State) (c : Nat) (f : CoreSt → CoreSt) : (updCore s c f).inbox = s.inbox := rfl
@[simp] theorem updCore_peerWait (s : State) (c : Nat) (f : CoreSt → CoreSt) : (updCore s c f).peerWait = s.peerWait := rfl
@[simp] theorem updCore_host (s : State) (c : Nat) (f : CoreSt → CoreSt) : (updCore s c f).host = s.host := rfl
@[simp] theorem updCore_boot (s : State) (c : Nat) (f : CoreSt → CoreSt) : (updCore s c f).boot = s.boot := rfl
@[simp] theorem updCore_tlb (s : State) (c : Nat) (f : CoreSt → CoreSt) : (updCore s c f).tlb = s.tlb := rfl
@[simp] theorem updCore_shoots (s : State) (c : Nat) (f : CoreSt → CoreSt) : (updCore s c f).shoots = s.shoots := rfl
@[simp] theorem updCore_resv (s : State) (c : Nat) (f : CoreSt → CoreSt) : (updCore s c f).resv = s.resv := rfl
@[simp] theorem updCore_records (s : State) (c : Nat) (f : CoreSt → CoreSt) : (updCore s c f).records = s.records := rfl
@[simp] theorem updCore_tasks (s : State) (c : Nat) (f : CoreSt → CoreSt) : (updCore s c f).tasks = s.tasks := rfl
@[simp] theorem updCore_regions (s : State) (c : Nat) (f : CoreSt → CoreSt) : (updCore s c f).regions = s.regions := rfl
@[simp] theorem updCore_bank (s : State) (c : Nat) (f : CoreSt → CoreSt) : (updCore s c f).bank = s.bank := rfl
@[simp] theorem updCore_packets (s : State) (c : Nat) (f : CoreSt → CoreSt) : (updCore s c f).packets = s.packets := rfl
@[simp] theorem updCore_resets (s : State) (c : Nat) (f : CoreSt → CoreSt) : (updCore s c f).resets = s.resets := rfl
@[simp] theorem updCore_nextSid (s : State) (c : Nat) (f : CoreSt → CoreSt) : (updCore s c f).nextSid = s.nextSid := rfl
@[simp] theorem updCore_nextGid (s : State) (c : Nat) (f : CoreSt → CoreSt) : (updCore s c f).nextGid = s.nextGid := rfl
@[simp] theorem updCore_nextId (s : State) (c : Nat) (f : CoreSt → CoreSt) : (updCore s c f).nextId = s.nextId := rfl
@[simp] theorem updCore_bound (s : State) (c : Nat) (f : CoreSt → CoreSt) : (updCore s c f).bound = s.bound := rfl
@[simp] theorem updCore_parked (s : State) (c : Nat) (f : CoreSt → CoreSt) : (updCore s c f).parked = s.parked := rfl
@[simp] theorem updCore_fresh (s : State) (c : Nat) (f : CoreSt → CoreSt) : (updCore s c f).fresh = s.fresh := rfl

@[simp] theorem updCtx_me (s : State) (c x : Nat) (f : Ctx → Ctx) : (updCtx s c x f).me = s.me := rfl
@[simp] theorem updCtx_live (s : State) (c x : Nat) (f : Ctx → Ctx) : (updCtx s c x f).live = s.live := rfl
@[simp] theorem updCtx_others (s : State) (c x : Nat) (f : Ctx → Ctx) : (updCtx s c x f).others = s.others := rfl
@[simp] theorem updCtx_agenda (s : State) (c x : Nat) (f : Ctx → Ctx) : (updCtx s c x f).agenda = s.agenda := rfl
@[simp] theorem updCtx_nextPc (s : State) (c x : Nat) (f : Ctx → Ctx) : (updCtx s c x f).nextPc = s.nextPc := rfl
@[simp] theorem updCtx_words (s : State) (c x : Nat) (f : Ctx → Ctx) : (updCtx s c x f).words = s.words := rfl
@[simp] theorem updCtx_chain (s : State) (c x : Nat) (f : Ctx → Ctx) : (updCtx s c x f).chain = s.chain := rfl
@[simp] theorem updCtx_gtc (s : State) (c x : Nat) (f : Ctx → Ctx) : (updCtx s c x f).gtc = s.gtc := rfl
@[simp] theorem updCtx_calMark (s : State) (c x : Nat) (f : Ctx → Ctx) : (updCtx s c x f).calMark = s.calMark := rfl
@[simp] theorem updCtx_era (s : State) (c x : Nat) (f : Ctx → Ctx) : (updCtx s c x f).era = s.era := rfl
@[simp] theorem updCtx_rblast (s : State) (c x : Nat) (f : Ctx → Ctx) : (updCtx s c x f).rblast = s.rblast := rfl
@[simp] theorem updCtx_majn (s : State) (c x : Nat) (f : Ctx → Ctx) : (updCtx s c x f).majn = s.majn := rfl
@[simp] theorem updCtx_mem (s : State) (c x : Nat) (f : Ctx → Ctx) : (updCtx s c x f).mem = s.mem := rfl
@[simp] theorem updCtx_poison (s : State) (c x : Nat) (f : Ctx → Ctx) : (updCtx s c x f).poison = s.poison := rfl
@[simp] theorem updCtx_lines (s : State) (c x : Nat) (f : Ctx → Ctx) : (updCtx s c x f).lines = s.lines := rfl
@[simp] theorem updCtx_l2 (s : State) (c x : Nat) (f : Ctx → Ctx) : (updCtx s c x f).l2 = s.l2 := rfl
@[simp] theorem updCtx_wq (s : State) (c x : Nat) (f : Ctx → Ctx) : (updCtx s c x f).wq = s.wq := rfl
@[simp] theorem updCtx_prefq (s : State) (c x : Nat) (f : Ctx → Ctx) : (updCtx s c x f).prefq = s.prefq := rfl
@[simp] theorem updCtx_banks (s : State) (c x : Nat) (f : Ctx → Ctx) : (updCtx s c x f).banks = s.banks := rfl
@[simp] theorem updCtx_doms (s : State) (c x : Nat) (f : Ctx → Ctx) : (updCtx s c x f).doms = s.doms := rfl
@[simp] theorem updCtx_shared (s : State) (c x : Nat) (f : Ctx → Ctx) : (updCtx s c x f).shared = s.shared := rfl
@[simp] theorem updCtx_sets (s : State) (c x : Nat) (f : Ctx → Ctx) : (updCtx s c x f).sets = s.sets := rfl
@[simp] theorem updCtx_gates (s : State) (c x : Nat) (f : Ctx → Ctx) : (updCtx s c x f).gates = s.gates := rfl
@[simp] theorem updCtx_peers (s : State) (c x : Nat) (f : Ctx → Ctx) : (updCtx s c x f).peers = s.peers := rfl
@[simp] theorem updCtx_topo (s : State) (c x : Nat) (f : Ctx → Ctx) : (updCtx s c x f).topo = s.topo := rfl
@[simp] theorem updCtx_health (s : State) (c x : Nat) (f : Ctx → Ctx) : (updCtx s c x f).health = s.health := rfl
@[simp] theorem updCtx_pkgid (s : State) (c x : Nat) (f : Ctx → Ctx) : (updCtx s c x f).pkgid = s.pkgid := rfl
@[simp] theorem updCtx_ports (s : State) (c x : Nat) (f : Ctx → Ctx) : (updCtx s c x f).ports = s.ports := rfl
@[simp] theorem updCtx_seen (s : State) (c x : Nat) (f : Ctx → Ctx) : (updCtx s c x f).seen = s.seen := rfl
@[simp] theorem updCtx_replies (s : State) (c x : Nat) (f : Ctx → Ctx) : (updCtx s c x f).replies = s.replies := rfl
@[simp] theorem updCtx_outbox (s : State) (c x : Nat) (f : Ctx → Ctx) : (updCtx s c x f).outbox = s.outbox := rfl
@[simp] theorem updCtx_seqs (s : State) (c x : Nat) (f : Ctx → Ctx) : (updCtx s c x f).seqs = s.seqs := rfl
@[simp] theorem updCtx_inbox (s : State) (c x : Nat) (f : Ctx → Ctx) : (updCtx s c x f).inbox = s.inbox := rfl
@[simp] theorem updCtx_peerWait (s : State) (c x : Nat) (f : Ctx → Ctx) : (updCtx s c x f).peerWait = s.peerWait := rfl
@[simp] theorem updCtx_host (s : State) (c x : Nat) (f : Ctx → Ctx) : (updCtx s c x f).host = s.host := rfl
@[simp] theorem updCtx_boot (s : State) (c x : Nat) (f : Ctx → Ctx) : (updCtx s c x f).boot = s.boot := rfl
@[simp] theorem updCtx_tlb (s : State) (c x : Nat) (f : Ctx → Ctx) : (updCtx s c x f).tlb = s.tlb := rfl
@[simp] theorem updCtx_shoots (s : State) (c x : Nat) (f : Ctx → Ctx) : (updCtx s c x f).shoots = s.shoots := rfl
@[simp] theorem updCtx_resv (s : State) (c x : Nat) (f : Ctx → Ctx) : (updCtx s c x f).resv = s.resv := rfl
@[simp] theorem updCtx_records (s : State) (c x : Nat) (f : Ctx → Ctx) : (updCtx s c x f).records = s.records := rfl
@[simp] theorem updCtx_tasks (s : State) (c x : Nat) (f : Ctx → Ctx) : (updCtx s c x f).tasks = s.tasks := rfl
@[simp] theorem updCtx_regions (s : State) (c x : Nat) (f : Ctx → Ctx) : (updCtx s c x f).regions = s.regions := rfl
@[simp] theorem updCtx_bank (s : State) (c x : Nat) (f : Ctx → Ctx) : (updCtx s c x f).bank = s.bank := rfl
@[simp] theorem updCtx_packets (s : State) (c x : Nat) (f : Ctx → Ctx) : (updCtx s c x f).packets = s.packets := rfl
@[simp] theorem updCtx_resets (s : State) (c x : Nat) (f : Ctx → Ctx) : (updCtx s c x f).resets = s.resets := rfl
@[simp] theorem updCtx_nextSid (s : State) (c x : Nat) (f : Ctx → Ctx) : (updCtx s c x f).nextSid = s.nextSid := rfl
@[simp] theorem updCtx_nextGid (s : State) (c x : Nat) (f : Ctx → Ctx) : (updCtx s c x f).nextGid = s.nextGid := rfl
@[simp] theorem updCtx_nextId (s : State) (c x : Nat) (f : Ctx → Ctx) : (updCtx s c x f).nextId = s.nextId := rfl
@[simp] theorem updCtx_bound (s : State) (c x : Nat) (f : Ctx → Ctx) : (updCtx s c x f).bound = s.bound := rfl
@[simp] theorem updCtx_parked (s : State) (c x : Nat) (f : Ctx → Ctx) : (updCtx s c x f).parked = s.parked := rfl
@[simp] theorem updCtx_fresh (s : State) (c x : Nat) (f : Ctx → Ctx) : (updCtx s c x f).fresh = s.fresh := rfl

@[simp] theorem updBank_me (s : State) (c : Nat) (f : BankSt → BankSt) : (updBank s c f).me = s.me := rfl
@[simp] theorem updBank_live (s : State) (c : Nat) (f : BankSt → BankSt) : (updBank s c f).live = s.live := rfl
@[simp] theorem updBank_others (s : State) (c : Nat) (f : BankSt → BankSt) : (updBank s c f).others = s.others := rfl
@[simp] theorem updBank_agenda (s : State) (c : Nat) (f : BankSt → BankSt) : (updBank s c f).agenda = s.agenda := rfl
@[simp] theorem updBank_nextPc (s : State) (c : Nat) (f : BankSt → BankSt) : (updBank s c f).nextPc = s.nextPc := rfl
@[simp] theorem updBank_words (s : State) (c : Nat) (f : BankSt → BankSt) : (updBank s c f).words = s.words := rfl
@[simp] theorem updBank_chain (s : State) (c : Nat) (f : BankSt → BankSt) : (updBank s c f).chain = s.chain := rfl
@[simp] theorem updBank_gtc (s : State) (c : Nat) (f : BankSt → BankSt) : (updBank s c f).gtc = s.gtc := rfl
@[simp] theorem updBank_calMark (s : State) (c : Nat) (f : BankSt → BankSt) : (updBank s c f).calMark = s.calMark := rfl
@[simp] theorem updBank_era (s : State) (c : Nat) (f : BankSt → BankSt) : (updBank s c f).era = s.era := rfl
@[simp] theorem updBank_rblast (s : State) (c : Nat) (f : BankSt → BankSt) : (updBank s c f).rblast = s.rblast := rfl
@[simp] theorem updBank_majn (s : State) (c : Nat) (f : BankSt → BankSt) : (updBank s c f).majn = s.majn := rfl
@[simp] theorem updBank_mem (s : State) (c : Nat) (f : BankSt → BankSt) : (updBank s c f).mem = s.mem := rfl
@[simp] theorem updBank_poison (s : State) (c : Nat) (f : BankSt → BankSt) : (updBank s c f).poison = s.poison := rfl
@[simp] theorem updBank_lines (s : State) (c : Nat) (f : BankSt → BankSt) : (updBank s c f).lines = s.lines := rfl
@[simp] theorem updBank_l2 (s : State) (c : Nat) (f : BankSt → BankSt) : (updBank s c f).l2 = s.l2 := rfl
@[simp] theorem updBank_wq (s : State) (c : Nat) (f : BankSt → BankSt) : (updBank s c f).wq = s.wq := rfl
@[simp] theorem updBank_prefq (s : State) (c : Nat) (f : BankSt → BankSt) : (updBank s c f).prefq = s.prefq := rfl
@[simp] theorem updBank_cores (s : State) (c : Nat) (f : BankSt → BankSt) : (updBank s c f).cores = s.cores := rfl
@[simp] theorem updBank_banks (s : State) (c : Nat) (f : BankSt → BankSt) : (updBank s c f).banks = kset s.banks c (f (bankOf s c)) := rfl
@[simp] theorem updBank_doms (s : State) (c : Nat) (f : BankSt → BankSt) : (updBank s c f).doms = s.doms := rfl
@[simp] theorem updBank_shared (s : State) (c : Nat) (f : BankSt → BankSt) : (updBank s c f).shared = s.shared := rfl
@[simp] theorem updBank_sets (s : State) (c : Nat) (f : BankSt → BankSt) : (updBank s c f).sets = s.sets := rfl
@[simp] theorem updBank_gates (s : State) (c : Nat) (f : BankSt → BankSt) : (updBank s c f).gates = s.gates := rfl
@[simp] theorem updBank_peers (s : State) (c : Nat) (f : BankSt → BankSt) : (updBank s c f).peers = s.peers := rfl
@[simp] theorem updBank_topo (s : State) (c : Nat) (f : BankSt → BankSt) : (updBank s c f).topo = s.topo := rfl
@[simp] theorem updBank_health (s : State) (c : Nat) (f : BankSt → BankSt) : (updBank s c f).health = s.health := rfl
@[simp] theorem updBank_pkgid (s : State) (c : Nat) (f : BankSt → BankSt) : (updBank s c f).pkgid = s.pkgid := rfl
@[simp] theorem updBank_ports (s : State) (c : Nat) (f : BankSt → BankSt) : (updBank s c f).ports = s.ports := rfl
@[simp] theorem updBank_seen (s : State) (c : Nat) (f : BankSt → BankSt) : (updBank s c f).seen = s.seen := rfl
@[simp] theorem updBank_replies (s : State) (c : Nat) (f : BankSt → BankSt) : (updBank s c f).replies = s.replies := rfl
@[simp] theorem updBank_outbox (s : State) (c : Nat) (f : BankSt → BankSt) : (updBank s c f).outbox = s.outbox := rfl
@[simp] theorem updBank_seqs (s : State) (c : Nat) (f : BankSt → BankSt) : (updBank s c f).seqs = s.seqs := rfl
@[simp] theorem updBank_inbox (s : State) (c : Nat) (f : BankSt → BankSt) : (updBank s c f).inbox = s.inbox := rfl
@[simp] theorem updBank_peerWait (s : State) (c : Nat) (f : BankSt → BankSt) : (updBank s c f).peerWait = s.peerWait := rfl
@[simp] theorem updBank_host (s : State) (c : Nat) (f : BankSt → BankSt) : (updBank s c f).host = s.host := rfl
@[simp] theorem updBank_boot (s : State) (c : Nat) (f : BankSt → BankSt) : (updBank s c f).boot = s.boot := rfl
@[simp] theorem updBank_tlb (s : State) (c : Nat) (f : BankSt → BankSt) : (updBank s c f).tlb = s.tlb := rfl
@[simp] theorem updBank_shoots (s : State) (c : Nat) (f : BankSt → BankSt) : (updBank s c f).shoots = s.shoots := rfl
@[simp] theorem updBank_resv (s : State) (c : Nat) (f : BankSt → BankSt) : (updBank s c f).resv = s.resv := rfl
@[simp] theorem updBank_records (s : State) (c : Nat) (f : BankSt → BankSt) : (updBank s c f).records = s.records := rfl
@[simp] theorem updBank_tasks (s : State) (c : Nat) (f : BankSt → BankSt) : (updBank s c f).tasks = s.tasks := rfl
@[simp] theorem updBank_regions (s : State) (c : Nat) (f : BankSt → BankSt) : (updBank s c f).regions = s.regions := rfl
@[simp] theorem updBank_bank (s : State) (c : Nat) (f : BankSt → BankSt) : (updBank s c f).bank = s.bank := rfl
@[simp] theorem updBank_packets (s : State) (c : Nat) (f : BankSt → BankSt) : (updBank s c f).packets = s.packets := rfl
@[simp] theorem updBank_resets (s : State) (c : Nat) (f : BankSt → BankSt) : (updBank s c f).resets = s.resets := rfl
@[simp] theorem updBank_nextSid (s : State) (c : Nat) (f : BankSt → BankSt) : (updBank s c f).nextSid = s.nextSid := rfl
@[simp] theorem updBank_nextGid (s : State) (c : Nat) (f : BankSt → BankSt) : (updBank s c f).nextGid = s.nextGid := rfl
@[simp] theorem updBank_nextId (s : State) (c : Nat) (f : BankSt → BankSt) : (updBank s c f).nextId = s.nextId := rfl
@[simp] theorem updBank_bound (s : State) (c : Nat) (f : BankSt → BankSt) : (updBank s c f).bound = s.bound := rfl
@[simp] theorem updBank_parked (s : State) (c : Nat) (f : BankSt → BankSt) : (updBank s c f).parked = s.parked := rfl
@[simp] theorem updBank_fresh (s : State) (c : Nat) (f : BankSt → BankSt) : (updBank s c f).fresh = s.fresh := rfl

@[simp] theorem updDom_me (s : State) (d : Nat) (f : PkgDom → PkgDom) : (updDom s d f).me = s.me := rfl
@[simp] theorem updDom_live (s : State) (d : Nat) (f : PkgDom → PkgDom) : (updDom s d f).live = s.live := rfl
@[simp] theorem updDom_others (s : State) (d : Nat) (f : PkgDom → PkgDom) : (updDom s d f).others = s.others := rfl
@[simp] theorem updDom_agenda (s : State) (d : Nat) (f : PkgDom → PkgDom) : (updDom s d f).agenda = s.agenda := rfl
@[simp] theorem updDom_nextPc (s : State) (d : Nat) (f : PkgDom → PkgDom) : (updDom s d f).nextPc = s.nextPc := rfl
@[simp] theorem updDom_words (s : State) (d : Nat) (f : PkgDom → PkgDom) : (updDom s d f).words = s.words := rfl
@[simp] theorem updDom_chain (s : State) (d : Nat) (f : PkgDom → PkgDom) : (updDom s d f).chain = s.chain := rfl
@[simp] theorem updDom_gtc (s : State) (d : Nat) (f : PkgDom → PkgDom) : (updDom s d f).gtc = s.gtc := rfl
@[simp] theorem updDom_calMark (s : State) (d : Nat) (f : PkgDom → PkgDom) : (updDom s d f).calMark = s.calMark := rfl
@[simp] theorem updDom_era (s : State) (d : Nat) (f : PkgDom → PkgDom) : (updDom s d f).era = s.era := rfl
@[simp] theorem updDom_rblast (s : State) (d : Nat) (f : PkgDom → PkgDom) : (updDom s d f).rblast = s.rblast := rfl
@[simp] theorem updDom_majn (s : State) (d : Nat) (f : PkgDom → PkgDom) : (updDom s d f).majn = s.majn := rfl
@[simp] theorem updDom_mem (s : State) (d : Nat) (f : PkgDom → PkgDom) : (updDom s d f).mem = s.mem := rfl
@[simp] theorem updDom_poison (s : State) (d : Nat) (f : PkgDom → PkgDom) : (updDom s d f).poison = s.poison := rfl
@[simp] theorem updDom_lines (s : State) (d : Nat) (f : PkgDom → PkgDom) : (updDom s d f).lines = s.lines := rfl
@[simp] theorem updDom_l2 (s : State) (d : Nat) (f : PkgDom → PkgDom) : (updDom s d f).l2 = s.l2 := rfl
@[simp] theorem updDom_wq (s : State) (d : Nat) (f : PkgDom → PkgDom) : (updDom s d f).wq = s.wq := rfl
@[simp] theorem updDom_prefq (s : State) (d : Nat) (f : PkgDom → PkgDom) : (updDom s d f).prefq = s.prefq := rfl
@[simp] theorem updDom_cores (s : State) (d : Nat) (f : PkgDom → PkgDom) : (updDom s d f).cores = s.cores := rfl
@[simp] theorem updDom_banks (s : State) (d : Nat) (f : PkgDom → PkgDom) : (updDom s d f).banks = s.banks := rfl
@[simp] theorem updDom_doms (s : State) (d : Nat) (f : PkgDom → PkgDom) : (updDom s d f).doms = kset s.doms d (f (domOf s d)) := rfl
@[simp] theorem updDom_shared (s : State) (d : Nat) (f : PkgDom → PkgDom) : (updDom s d f).shared = s.shared := rfl
@[simp] theorem updDom_sets (s : State) (d : Nat) (f : PkgDom → PkgDom) : (updDom s d f).sets = s.sets := rfl
@[simp] theorem updDom_gates (s : State) (d : Nat) (f : PkgDom → PkgDom) : (updDom s d f).gates = s.gates := rfl
@[simp] theorem updDom_peers (s : State) (d : Nat) (f : PkgDom → PkgDom) : (updDom s d f).peers = s.peers := rfl
@[simp] theorem updDom_topo (s : State) (d : Nat) (f : PkgDom → PkgDom) : (updDom s d f).topo = s.topo := rfl
@[simp] theorem updDom_health (s : State) (d : Nat) (f : PkgDom → PkgDom) : (updDom s d f).health = s.health := rfl
@[simp] theorem updDom_pkgid (s : State) (d : Nat) (f : PkgDom → PkgDom) : (updDom s d f).pkgid = s.pkgid := rfl
@[simp] theorem updDom_ports (s : State) (d : Nat) (f : PkgDom → PkgDom) : (updDom s d f).ports = s.ports := rfl
@[simp] theorem updDom_seen (s : State) (d : Nat) (f : PkgDom → PkgDom) : (updDom s d f).seen = s.seen := rfl
@[simp] theorem updDom_replies (s : State) (d : Nat) (f : PkgDom → PkgDom) : (updDom s d f).replies = s.replies := rfl
@[simp] theorem updDom_outbox (s : State) (d : Nat) (f : PkgDom → PkgDom) : (updDom s d f).outbox = s.outbox := rfl
@[simp] theorem updDom_seqs (s : State) (d : Nat) (f : PkgDom → PkgDom) : (updDom s d f).seqs = s.seqs := rfl
@[simp] theorem updDom_inbox (s : State) (d : Nat) (f : PkgDom → PkgDom) : (updDom s d f).inbox = s.inbox := rfl
@[simp] theorem updDom_peerWait (s : State) (d : Nat) (f : PkgDom → PkgDom) : (updDom s d f).peerWait = s.peerWait := rfl
@[simp] theorem updDom_host (s : State) (d : Nat) (f : PkgDom → PkgDom) : (updDom s d f).host = s.host := rfl
@[simp] theorem updDom_boot (s : State) (d : Nat) (f : PkgDom → PkgDom) : (updDom s d f).boot = s.boot := rfl
@[simp] theorem updDom_tlb (s : State) (d : Nat) (f : PkgDom → PkgDom) : (updDom s d f).tlb = s.tlb := rfl
@[simp] theorem updDom_shoots (s : State) (d : Nat) (f : PkgDom → PkgDom) : (updDom s d f).shoots = s.shoots := rfl
@[simp] theorem updDom_resv (s : State) (d : Nat) (f : PkgDom → PkgDom) : (updDom s d f).resv = s.resv := rfl
@[simp] theorem updDom_records (s : State) (d : Nat) (f : PkgDom → PkgDom) : (updDom s d f).records = s.records := rfl
@[simp] theorem updDom_tasks (s : State) (d : Nat) (f : PkgDom → PkgDom) : (updDom s d f).tasks = s.tasks := rfl
@[simp] theorem updDom_regions (s : State) (d : Nat) (f : PkgDom → PkgDom) : (updDom s d f).regions = s.regions := rfl
@[simp] theorem updDom_bank (s : State) (d : Nat) (f : PkgDom → PkgDom) : (updDom s d f).bank = s.bank := rfl
@[simp] theorem updDom_packets (s : State) (d : Nat) (f : PkgDom → PkgDom) : (updDom s d f).packets = s.packets := rfl
@[simp] theorem updDom_resets (s : State) (d : Nat) (f : PkgDom → PkgDom) : (updDom s d f).resets = s.resets := rfl
@[simp] theorem updDom_nextSid (s : State) (d : Nat) (f : PkgDom → PkgDom) : (updDom s d f).nextSid = s.nextSid := rfl
@[simp] theorem updDom_nextGid (s : State) (d : Nat) (f : PkgDom → PkgDom) : (updDom s d f).nextGid = s.nextGid := rfl
@[simp] theorem updDom_nextId (s : State) (d : Nat) (f : PkgDom → PkgDom) : (updDom s d f).nextId = s.nextId := rfl
@[simp] theorem updDom_bound (s : State) (d : Nat) (f : PkgDom → PkgDom) : (updDom s d f).bound = s.bound := rfl
@[simp] theorem updDom_parked (s : State) (d : Nat) (f : PkgDom → PkgDom) : (updDom s d f).parked = s.parked := rfl
@[simp] theorem updDom_fresh (s : State) (d : Nat) (f : PkgDom → PkgDom) : (updDom s d f).fresh = s.fresh := rfl

@[simp] theorem addCnt_me (s : State) (d i n : Nat) : (addCnt s d i n).me = s.me := rfl
@[simp] theorem addCnt_live (s : State) (d i n : Nat) : (addCnt s d i n).live = s.live := rfl
@[simp] theorem addCnt_others (s : State) (d i n : Nat) : (addCnt s d i n).others = s.others := rfl
@[simp] theorem addCnt_agenda (s : State) (d i n : Nat) : (addCnt s d i n).agenda = s.agenda := rfl
@[simp] theorem addCnt_nextPc (s : State) (d i n : Nat) : (addCnt s d i n).nextPc = s.nextPc := rfl
@[simp] theorem addCnt_words (s : State) (d i n : Nat) : (addCnt s d i n).words = s.words := rfl
@[simp] theorem addCnt_chain (s : State) (d i n : Nat) : (addCnt s d i n).chain = s.chain := rfl
@[simp] theorem addCnt_gtc (s : State) (d i n : Nat) : (addCnt s d i n).gtc = s.gtc := rfl
@[simp] theorem addCnt_calMark (s : State) (d i n : Nat) : (addCnt s d i n).calMark = s.calMark := rfl
@[simp] theorem addCnt_era (s : State) (d i n : Nat) : (addCnt s d i n).era = s.era := rfl
@[simp] theorem addCnt_rblast (s : State) (d i n : Nat) : (addCnt s d i n).rblast = s.rblast := rfl
@[simp] theorem addCnt_majn (s : State) (d i n : Nat) : (addCnt s d i n).majn = s.majn := rfl
@[simp] theorem addCnt_mem (s : State) (d i n : Nat) : (addCnt s d i n).mem = s.mem := rfl
@[simp] theorem addCnt_poison (s : State) (d i n : Nat) : (addCnt s d i n).poison = s.poison := rfl
@[simp] theorem addCnt_lines (s : State) (d i n : Nat) : (addCnt s d i n).lines = s.lines := rfl
@[simp] theorem addCnt_l2 (s : State) (d i n : Nat) : (addCnt s d i n).l2 = s.l2 := rfl
@[simp] theorem addCnt_wq (s : State) (d i n : Nat) : (addCnt s d i n).wq = s.wq := rfl
@[simp] theorem addCnt_prefq (s : State) (d i n : Nat) : (addCnt s d i n).prefq = s.prefq := rfl
@[simp] theorem addCnt_cores (s : State) (d i n : Nat) : (addCnt s d i n).cores = s.cores := rfl
@[simp] theorem addCnt_banks (s : State) (d i n : Nat) : (addCnt s d i n).banks = s.banks := rfl
@[simp] theorem addCnt_shared (s : State) (d i n : Nat) : (addCnt s d i n).shared = s.shared := rfl
@[simp] theorem addCnt_sets (s : State) (d i n : Nat) : (addCnt s d i n).sets = s.sets := rfl
@[simp] theorem addCnt_gates (s : State) (d i n : Nat) : (addCnt s d i n).gates = s.gates := rfl
@[simp] theorem addCnt_peers (s : State) (d i n : Nat) : (addCnt s d i n).peers = s.peers := rfl
@[simp] theorem addCnt_topo (s : State) (d i n : Nat) : (addCnt s d i n).topo = s.topo := rfl
@[simp] theorem addCnt_health (s : State) (d i n : Nat) : (addCnt s d i n).health = s.health := rfl
@[simp] theorem addCnt_pkgid (s : State) (d i n : Nat) : (addCnt s d i n).pkgid = s.pkgid := rfl
@[simp] theorem addCnt_ports (s : State) (d i n : Nat) : (addCnt s d i n).ports = s.ports := rfl
@[simp] theorem addCnt_seen (s : State) (d i n : Nat) : (addCnt s d i n).seen = s.seen := rfl
@[simp] theorem addCnt_replies (s : State) (d i n : Nat) : (addCnt s d i n).replies = s.replies := rfl
@[simp] theorem addCnt_outbox (s : State) (d i n : Nat) : (addCnt s d i n).outbox = s.outbox := rfl
@[simp] theorem addCnt_seqs (s : State) (d i n : Nat) : (addCnt s d i n).seqs = s.seqs := rfl
@[simp] theorem addCnt_inbox (s : State) (d i n : Nat) : (addCnt s d i n).inbox = s.inbox := rfl
@[simp] theorem addCnt_peerWait (s : State) (d i n : Nat) : (addCnt s d i n).peerWait = s.peerWait := rfl
@[simp] theorem addCnt_host (s : State) (d i n : Nat) : (addCnt s d i n).host = s.host := rfl
@[simp] theorem addCnt_boot (s : State) (d i n : Nat) : (addCnt s d i n).boot = s.boot := rfl
@[simp] theorem addCnt_tlb (s : State) (d i n : Nat) : (addCnt s d i n).tlb = s.tlb := rfl
@[simp] theorem addCnt_shoots (s : State) (d i n : Nat) : (addCnt s d i n).shoots = s.shoots := rfl
@[simp] theorem addCnt_resv (s : State) (d i n : Nat) : (addCnt s d i n).resv = s.resv := rfl
@[simp] theorem addCnt_records (s : State) (d i n : Nat) : (addCnt s d i n).records = s.records := rfl
@[simp] theorem addCnt_tasks (s : State) (d i n : Nat) : (addCnt s d i n).tasks = s.tasks := rfl
@[simp] theorem addCnt_regions (s : State) (d i n : Nat) : (addCnt s d i n).regions = s.regions := rfl
@[simp] theorem addCnt_bank (s : State) (d i n : Nat) : (addCnt s d i n).bank = s.bank := rfl
@[simp] theorem addCnt_packets (s : State) (d i n : Nat) : (addCnt s d i n).packets = s.packets := rfl
@[simp] theorem addCnt_resets (s : State) (d i n : Nat) : (addCnt s d i n).resets = s.resets := rfl
@[simp] theorem addCnt_nextSid (s : State) (d i n : Nat) : (addCnt s d i n).nextSid = s.nextSid := rfl
@[simp] theorem addCnt_nextGid (s : State) (d i n : Nat) : (addCnt s d i n).nextGid = s.nextGid := rfl
@[simp] theorem addCnt_nextId (s : State) (d i n : Nat) : (addCnt s d i n).nextId = s.nextId := rfl
@[simp] theorem addCnt_bound (s : State) (d i n : Nat) : (addCnt s d i n).bound = s.bound := rfl
@[simp] theorem addCnt_parked (s : State) (d i n : Nat) : (addCnt s d i n).parked = s.parked := rfl
@[simp] theorem addCnt_fresh (s : State) (d i n : Nat) : (addCnt s d i n).fresh = s.fresh := rfl

@[simp] theorem addEnergy_me (s : State) (d i n : Nat) : (addEnergy s d i n).me = s.me := rfl
@[simp] theorem addEnergy_live (s : State) (d i n : Nat) : (addEnergy s d i n).live = s.live := rfl
@[simp] theorem addEnergy_others (s : State) (d i n : Nat) : (addEnergy s d i n).others = s.others := rfl
@[simp] theorem addEnergy_agenda (s : State) (d i n : Nat) : (addEnergy s d i n).agenda = s.agenda := rfl
@[simp] theorem addEnergy_nextPc (s : State) (d i n : Nat) : (addEnergy s d i n).nextPc = s.nextPc := rfl
@[simp] theorem addEnergy_words (s : State) (d i n : Nat) : (addEnergy s d i n).words = s.words := rfl
@[simp] theorem addEnergy_chain (s : State) (d i n : Nat) : (addEnergy s d i n).chain = s.chain := rfl
@[simp] theorem addEnergy_gtc (s : State) (d i n : Nat) : (addEnergy s d i n).gtc = s.gtc := rfl
@[simp] theorem addEnergy_calMark (s : State) (d i n : Nat) : (addEnergy s d i n).calMark = s.calMark := rfl
@[simp] theorem addEnergy_era (s : State) (d i n : Nat) : (addEnergy s d i n).era = s.era := rfl
@[simp] theorem addEnergy_rblast (s : State) (d i n : Nat) : (addEnergy s d i n).rblast = s.rblast := rfl
@[simp] theorem addEnergy_majn (s : State) (d i n : Nat) : (addEnergy s d i n).majn = s.majn := rfl
@[simp] theorem addEnergy_mem (s : State) (d i n : Nat) : (addEnergy s d i n).mem = s.mem := rfl
@[simp] theorem addEnergy_poison (s : State) (d i n : Nat) : (addEnergy s d i n).poison = s.poison := rfl
@[simp] theorem addEnergy_lines (s : State) (d i n : Nat) : (addEnergy s d i n).lines = s.lines := rfl
@[simp] theorem addEnergy_l2 (s : State) (d i n : Nat) : (addEnergy s d i n).l2 = s.l2 := rfl
@[simp] theorem addEnergy_wq (s : State) (d i n : Nat) : (addEnergy s d i n).wq = s.wq := rfl
@[simp] theorem addEnergy_prefq (s : State) (d i n : Nat) : (addEnergy s d i n).prefq = s.prefq := rfl
@[simp] theorem addEnergy_cores (s : State) (d i n : Nat) : (addEnergy s d i n).cores = s.cores := rfl
@[simp] theorem addEnergy_banks (s : State) (d i n : Nat) : (addEnergy s d i n).banks = s.banks := rfl
@[simp] theorem addEnergy_shared (s : State) (d i n : Nat) : (addEnergy s d i n).shared = s.shared := rfl
@[simp] theorem addEnergy_sets (s : State) (d i n : Nat) : (addEnergy s d i n).sets = s.sets := rfl
@[simp] theorem addEnergy_gates (s : State) (d i n : Nat) : (addEnergy s d i n).gates = s.gates := rfl
@[simp] theorem addEnergy_peers (s : State) (d i n : Nat) : (addEnergy s d i n).peers = s.peers := rfl
@[simp] theorem addEnergy_topo (s : State) (d i n : Nat) : (addEnergy s d i n).topo = s.topo := rfl
@[simp] theorem addEnergy_health (s : State) (d i n : Nat) : (addEnergy s d i n).health = s.health := rfl
@[simp] theorem addEnergy_pkgid (s : State) (d i n : Nat) : (addEnergy s d i n).pkgid = s.pkgid := rfl
@[simp] theorem addEnergy_ports (s : State) (d i n : Nat) : (addEnergy s d i n).ports = s.ports := rfl
@[simp] theorem addEnergy_seen (s : State) (d i n : Nat) : (addEnergy s d i n).seen = s.seen := rfl
@[simp] theorem addEnergy_replies (s : State) (d i n : Nat) : (addEnergy s d i n).replies = s.replies := rfl
@[simp] theorem addEnergy_outbox (s : State) (d i n : Nat) : (addEnergy s d i n).outbox = s.outbox := rfl
@[simp] theorem addEnergy_seqs (s : State) (d i n : Nat) : (addEnergy s d i n).seqs = s.seqs := rfl
@[simp] theorem addEnergy_inbox (s : State) (d i n : Nat) : (addEnergy s d i n).inbox = s.inbox := rfl
@[simp] theorem addEnergy_peerWait (s : State) (d i n : Nat) : (addEnergy s d i n).peerWait = s.peerWait := rfl
@[simp] theorem addEnergy_host (s : State) (d i n : Nat) : (addEnergy s d i n).host = s.host := rfl
@[simp] theorem addEnergy_boot (s : State) (d i n : Nat) : (addEnergy s d i n).boot = s.boot := rfl
@[simp] theorem addEnergy_tlb (s : State) (d i n : Nat) : (addEnergy s d i n).tlb = s.tlb := rfl
@[simp] theorem addEnergy_shoots (s : State) (d i n : Nat) : (addEnergy s d i n).shoots = s.shoots := rfl
@[simp] theorem addEnergy_resv (s : State) (d i n : Nat) : (addEnergy s d i n).resv = s.resv := rfl
@[simp] theorem addEnergy_records (s : State) (d i n : Nat) : (addEnergy s d i n).records = s.records := rfl
@[simp] theorem addEnergy_tasks (s : State) (d i n : Nat) : (addEnergy s d i n).tasks = s.tasks := rfl
@[simp] theorem addEnergy_regions (s : State) (d i n : Nat) : (addEnergy s d i n).regions = s.regions := rfl
@[simp] theorem addEnergy_bank (s : State) (d i n : Nat) : (addEnergy s d i n).bank = s.bank := rfl
@[simp] theorem addEnergy_packets (s : State) (d i n : Nat) : (addEnergy s d i n).packets = s.packets := rfl
@[simp] theorem addEnergy_resets (s : State) (d i n : Nat) : (addEnergy s d i n).resets = s.resets := rfl
@[simp] theorem addEnergy_nextSid (s : State) (d i n : Nat) : (addEnergy s d i n).nextSid = s.nextSid := rfl
@[simp] theorem addEnergy_nextGid (s : State) (d i n : Nat) : (addEnergy s d i n).nextGid = s.nextGid := rfl
@[simp] theorem addEnergy_nextId (s : State) (d i n : Nat) : (addEnergy s d i n).nextId = s.nextId := rfl
@[simp] theorem addEnergy_bound (s : State) (d i n : Nat) : (addEnergy s d i n).bound = s.bound := rfl
@[simp] theorem addEnergy_parked (s : State) (d i n : Nat) : (addEnergy s d i n).parked = s.parked := rfl
@[simp] theorem addEnergy_fresh (s : State) (d i n : Nat) : (addEnergy s d i n).fresh = s.fresh := rfl

@[simp] theorem chargeEnergy_me (s : State) (d i : Nat) : (chargeEnergy s d i).me = s.me := rfl
@[simp] theorem chargeEnergy_live (s : State) (d i : Nat) : (chargeEnergy s d i).live = s.live := rfl
@[simp] theorem chargeEnergy_others (s : State) (d i : Nat) : (chargeEnergy s d i).others = s.others := rfl
@[simp] theorem chargeEnergy_agenda (s : State) (d i : Nat) : (chargeEnergy s d i).agenda = s.agenda := rfl
@[simp] theorem chargeEnergy_nextPc (s : State) (d i : Nat) : (chargeEnergy s d i).nextPc = s.nextPc := rfl
@[simp] theorem chargeEnergy_words (s : State) (d i : Nat) : (chargeEnergy s d i).words = s.words := rfl
@[simp] theorem chargeEnergy_chain (s : State) (d i : Nat) : (chargeEnergy s d i).chain = s.chain := rfl
@[simp] theorem chargeEnergy_gtc (s : State) (d i : Nat) : (chargeEnergy s d i).gtc = s.gtc := rfl
@[simp] theorem chargeEnergy_calMark (s : State) (d i : Nat) : (chargeEnergy s d i).calMark = s.calMark := rfl
@[simp] theorem chargeEnergy_era (s : State) (d i : Nat) : (chargeEnergy s d i).era = s.era := rfl
@[simp] theorem chargeEnergy_rblast (s : State) (d i : Nat) : (chargeEnergy s d i).rblast = s.rblast := rfl
@[simp] theorem chargeEnergy_majn (s : State) (d i : Nat) : (chargeEnergy s d i).majn = s.majn := rfl
@[simp] theorem chargeEnergy_mem (s : State) (d i : Nat) : (chargeEnergy s d i).mem = s.mem := rfl
@[simp] theorem chargeEnergy_poison (s : State) (d i : Nat) : (chargeEnergy s d i).poison = s.poison := rfl
@[simp] theorem chargeEnergy_lines (s : State) (d i : Nat) : (chargeEnergy s d i).lines = s.lines := rfl
@[simp] theorem chargeEnergy_l2 (s : State) (d i : Nat) : (chargeEnergy s d i).l2 = s.l2 := rfl
@[simp] theorem chargeEnergy_wq (s : State) (d i : Nat) : (chargeEnergy s d i).wq = s.wq := rfl
@[simp] theorem chargeEnergy_prefq (s : State) (d i : Nat) : (chargeEnergy s d i).prefq = s.prefq := rfl
@[simp] theorem chargeEnergy_cores (s : State) (d i : Nat) : (chargeEnergy s d i).cores = s.cores := rfl
@[simp] theorem chargeEnergy_banks (s : State) (d i : Nat) : (chargeEnergy s d i).banks = s.banks := rfl
@[simp] theorem chargeEnergy_shared (s : State) (d i : Nat) : (chargeEnergy s d i).shared = s.shared := rfl
@[simp] theorem chargeEnergy_sets (s : State) (d i : Nat) : (chargeEnergy s d i).sets = s.sets := rfl
@[simp] theorem chargeEnergy_gates (s : State) (d i : Nat) : (chargeEnergy s d i).gates = s.gates := rfl
@[simp] theorem chargeEnergy_peers (s : State) (d i : Nat) : (chargeEnergy s d i).peers = s.peers := rfl
@[simp] theorem chargeEnergy_topo (s : State) (d i : Nat) : (chargeEnergy s d i).topo = s.topo := rfl
@[simp] theorem chargeEnergy_health (s : State) (d i : Nat) : (chargeEnergy s d i).health = s.health := rfl
@[simp] theorem chargeEnergy_pkgid (s : State) (d i : Nat) : (chargeEnergy s d i).pkgid = s.pkgid := rfl
@[simp] theorem chargeEnergy_ports (s : State) (d i : Nat) : (chargeEnergy s d i).ports = s.ports := rfl
@[simp] theorem chargeEnergy_seen (s : State) (d i : Nat) : (chargeEnergy s d i).seen = s.seen := rfl
@[simp] theorem chargeEnergy_replies (s : State) (d i : Nat) : (chargeEnergy s d i).replies = s.replies := rfl
@[simp] theorem chargeEnergy_outbox (s : State) (d i : Nat) : (chargeEnergy s d i).outbox = s.outbox := rfl
@[simp] theorem chargeEnergy_seqs (s : State) (d i : Nat) : (chargeEnergy s d i).seqs = s.seqs := rfl
@[simp] theorem chargeEnergy_inbox (s : State) (d i : Nat) : (chargeEnergy s d i).inbox = s.inbox := rfl
@[simp] theorem chargeEnergy_peerWait (s : State) (d i : Nat) : (chargeEnergy s d i).peerWait = s.peerWait := rfl
@[simp] theorem chargeEnergy_host (s : State) (d i : Nat) : (chargeEnergy s d i).host = s.host := rfl
@[simp] theorem chargeEnergy_boot (s : State) (d i : Nat) : (chargeEnergy s d i).boot = s.boot := rfl
@[simp] theorem chargeEnergy_tlb (s : State) (d i : Nat) : (chargeEnergy s d i).tlb = s.tlb := rfl
@[simp] theorem chargeEnergy_shoots (s : State) (d i : Nat) : (chargeEnergy s d i).shoots = s.shoots := rfl
@[simp] theorem chargeEnergy_resv (s : State) (d i : Nat) : (chargeEnergy s d i).resv = s.resv := rfl
@[simp] theorem chargeEnergy_records (s : State) (d i : Nat) : (chargeEnergy s d i).records = s.records := rfl
@[simp] theorem chargeEnergy_tasks (s : State) (d i : Nat) : (chargeEnergy s d i).tasks = s.tasks := rfl
@[simp] theorem chargeEnergy_regions (s : State) (d i : Nat) : (chargeEnergy s d i).regions = s.regions := rfl
@[simp] theorem chargeEnergy_bank (s : State) (d i : Nat) : (chargeEnergy s d i).bank = s.bank := rfl
@[simp] theorem chargeEnergy_packets (s : State) (d i : Nat) : (chargeEnergy s d i).packets = s.packets := rfl
@[simp] theorem chargeEnergy_resets (s : State) (d i : Nat) : (chargeEnergy s d i).resets = s.resets := rfl
@[simp] theorem chargeEnergy_nextSid (s : State) (d i : Nat) : (chargeEnergy s d i).nextSid = s.nextSid := rfl
@[simp] theorem chargeEnergy_nextGid (s : State) (d i : Nat) : (chargeEnergy s d i).nextGid = s.nextGid := rfl
@[simp] theorem chargeEnergy_nextId (s : State) (d i : Nat) : (chargeEnergy s d i).nextId = s.nextId := rfl
@[simp] theorem chargeEnergy_bound (s : State) (d i : Nat) : (chargeEnergy s d i).bound = s.bound := rfl
@[simp] theorem chargeEnergy_parked (s : State) (d i : Nat) : (chargeEnergy s d i).parked = s.parked := rfl
@[simp] theorem chargeEnergy_fresh (s : State) (d i : Nat) : (chargeEnergy s d i).fresh = s.fresh + 1 := rfl

@[simp] theorem setTimes_me (s : State) (ln w r : Nat) : (setTimes s ln w r).me = s.me := rfl
@[simp] theorem setTimes_live (s : State) (ln w r : Nat) : (setTimes s ln w r).live = s.live := rfl
@[simp] theorem setTimes_others (s : State) (ln w r : Nat) : (setTimes s ln w r).others = s.others := rfl
@[simp] theorem setTimes_agenda (s : State) (ln w r : Nat) : (setTimes s ln w r).agenda = s.agenda := rfl
@[simp] theorem setTimes_nextPc (s : State) (ln w r : Nat) : (setTimes s ln w r).nextPc = s.nextPc := rfl
@[simp] theorem setTimes_words (s : State) (ln w r : Nat) : (setTimes s ln w r).words = s.words := rfl
@[simp] theorem setTimes_chain (s : State) (ln w r : Nat) : (setTimes s ln w r).chain = s.chain := rfl
@[simp] theorem setTimes_gtc (s : State) (ln w r : Nat) : (setTimes s ln w r).gtc = s.gtc := rfl
@[simp] theorem setTimes_calMark (s : State) (ln w r : Nat) : (setTimes s ln w r).calMark = s.calMark := rfl
@[simp] theorem setTimes_era (s : State) (ln w r : Nat) : (setTimes s ln w r).era = s.era := rfl
@[simp] theorem setTimes_rblast (s : State) (ln w r : Nat) : (setTimes s ln w r).rblast = s.rblast := rfl
@[simp] theorem setTimes_majn (s : State) (ln w r : Nat) : (setTimes s ln w r).majn = s.majn := rfl
@[simp] theorem setTimes_mem (s : State) (ln w r : Nat) : (setTimes s ln w r).mem = s.mem := rfl
@[simp] theorem setTimes_poison (s : State) (ln w r : Nat) : (setTimes s ln w r).poison = s.poison := rfl
@[simp] theorem setTimes_lines (s : State) (ln w r : Nat) : (setTimes s ln w r).lines = kset s.lines ln ⟨w, r, (timesOf s ln).n⟩ := rfl
@[simp] theorem setTimes_l2 (s : State) (ln w r : Nat) : (setTimes s ln w r).l2 = s.l2 := rfl
@[simp] theorem setTimes_wq (s : State) (ln w r : Nat) : (setTimes s ln w r).wq = s.wq := rfl
@[simp] theorem setTimes_prefq (s : State) (ln w r : Nat) : (setTimes s ln w r).prefq = s.prefq := rfl
@[simp] theorem setTimes_cores (s : State) (ln w r : Nat) : (setTimes s ln w r).cores = s.cores := rfl
@[simp] theorem setTimes_banks (s : State) (ln w r : Nat) : (setTimes s ln w r).banks = s.banks := rfl
@[simp] theorem setTimes_doms (s : State) (ln w r : Nat) : (setTimes s ln w r).doms = s.doms := rfl
@[simp] theorem setTimes_shared (s : State) (ln w r : Nat) : (setTimes s ln w r).shared = s.shared := rfl
@[simp] theorem setTimes_sets (s : State) (ln w r : Nat) : (setTimes s ln w r).sets = s.sets := rfl
@[simp] theorem setTimes_gates (s : State) (ln w r : Nat) : (setTimes s ln w r).gates = s.gates := rfl
@[simp] theorem setTimes_peers (s : State) (ln w r : Nat) : (setTimes s ln w r).peers = s.peers := rfl
@[simp] theorem setTimes_topo (s : State) (ln w r : Nat) : (setTimes s ln w r).topo = s.topo := rfl
@[simp] theorem setTimes_health (s : State) (ln w r : Nat) : (setTimes s ln w r).health = s.health := rfl
@[simp] theorem setTimes_pkgid (s : State) (ln w r : Nat) : (setTimes s ln w r).pkgid = s.pkgid := rfl
@[simp] theorem setTimes_ports (s : State) (ln w r : Nat) : (setTimes s ln w r).ports = s.ports := rfl
@[simp] theorem setTimes_seen (s : State) (ln w r : Nat) : (setTimes s ln w r).seen = s.seen := rfl
@[simp] theorem setTimes_replies (s : State) (ln w r : Nat) : (setTimes s ln w r).replies = s.replies := rfl
@[simp] theorem setTimes_outbox (s : State) (ln w r : Nat) : (setTimes s ln w r).outbox = s.outbox := rfl
@[simp] theorem setTimes_seqs (s : State) (ln w r : Nat) : (setTimes s ln w r).seqs = s.seqs := rfl
@[simp] theorem setTimes_inbox (s : State) (ln w r : Nat) : (setTimes s ln w r).inbox = s.inbox := rfl
@[simp] theorem setTimes_peerWait (s : State) (ln w r : Nat) : (setTimes s ln w r).peerWait = s.peerWait := rfl
@[simp] theorem setTimes_host (s : State) (ln w r : Nat) : (setTimes s ln w r).host = s.host := rfl
@[simp] theorem setTimes_boot (s : State) (ln w r : Nat) : (setTimes s ln w r).boot = s.boot := rfl
@[simp] theorem setTimes_tlb (s : State) (ln w r : Nat) : (setTimes s ln w r).tlb = s.tlb := rfl
@[simp] theorem setTimes_shoots (s : State) (ln w r : Nat) : (setTimes s ln w r).shoots = s.shoots := rfl
@[simp] theorem setTimes_resv (s : State) (ln w r : Nat) : (setTimes s ln w r).resv = s.resv := rfl
@[simp] theorem setTimes_records (s : State) (ln w r : Nat) : (setTimes s ln w r).records = s.records := rfl
@[simp] theorem setTimes_tasks (s : State) (ln w r : Nat) : (setTimes s ln w r).tasks = s.tasks := rfl
@[simp] theorem setTimes_regions (s : State) (ln w r : Nat) : (setTimes s ln w r).regions = s.regions := rfl
@[simp] theorem setTimes_bank (s : State) (ln w r : Nat) : (setTimes s ln w r).bank = s.bank := rfl
@[simp] theorem setTimes_packets (s : State) (ln w r : Nat) : (setTimes s ln w r).packets = s.packets := rfl
@[simp] theorem setTimes_resets (s : State) (ln w r : Nat) : (setTimes s ln w r).resets = s.resets := rfl
@[simp] theorem setTimes_nextSid (s : State) (ln w r : Nat) : (setTimes s ln w r).nextSid = s.nextSid := rfl
@[simp] theorem setTimes_nextGid (s : State) (ln w r : Nat) : (setTimes s ln w r).nextGid = s.nextGid := rfl
@[simp] theorem setTimes_nextId (s : State) (ln w r : Nat) : (setTimes s ln w r).nextId = s.nextId := rfl
@[simp] theorem setTimes_bound (s : State) (ln w r : Nat) : (setTimes s ln w r).bound = s.bound := rfl
@[simp] theorem setTimes_parked (s : State) (ln w r : Nat) : (setTimes s ln w r).parked = s.parked := rfl
@[simp] theorem setTimes_fresh (s : State) (ln w r : Nat) : (setTimes s ln w r).fresh = s.fresh := rfl

@[simp] theorem wroteTimes_me (s : State) (ln ws : Nat) : (wroteTimes s ln ws).me = s.me := rfl
@[simp] theorem wroteTimes_live (s : State) (ln ws : Nat) : (wroteTimes s ln ws).live = s.live := rfl
@[simp] theorem wroteTimes_others (s : State) (ln ws : Nat) : (wroteTimes s ln ws).others = s.others := rfl
@[simp] theorem wroteTimes_agenda (s : State) (ln ws : Nat) : (wroteTimes s ln ws).agenda = s.agenda := rfl
@[simp] theorem wroteTimes_nextPc (s : State) (ln ws : Nat) : (wroteTimes s ln ws).nextPc = s.nextPc := rfl
@[simp] theorem wroteTimes_words (s : State) (ln ws : Nat) : (wroteTimes s ln ws).words = s.words := rfl
@[simp] theorem wroteTimes_chain (s : State) (ln ws : Nat) : (wroteTimes s ln ws).chain = s.chain := rfl
@[simp] theorem wroteTimes_gtc (s : State) (ln ws : Nat) : (wroteTimes s ln ws).gtc = s.gtc := rfl
@[simp] theorem wroteTimes_calMark (s : State) (ln ws : Nat) : (wroteTimes s ln ws).calMark = s.calMark := rfl
@[simp] theorem wroteTimes_era (s : State) (ln ws : Nat) : (wroteTimes s ln ws).era = s.era := rfl
@[simp] theorem wroteTimes_rblast (s : State) (ln ws : Nat) : (wroteTimes s ln ws).rblast = s.rblast := rfl
@[simp] theorem wroteTimes_majn (s : State) (ln ws : Nat) : (wroteTimes s ln ws).majn = s.majn := rfl
@[simp] theorem wroteTimes_mem (s : State) (ln ws : Nat) : (wroteTimes s ln ws).mem = s.mem := rfl
@[simp] theorem wroteTimes_poison (s : State) (ln ws : Nat) : (wroteTimes s ln ws).poison = s.poison := rfl
@[simp] theorem wroteTimes_lines (s : State) (ln ws : Nat) : (wroteTimes s ln ws).lines = kset s.lines ln ⟨ws, ws, (timesOf s ln).n + 1⟩ := rfl
@[simp] theorem wroteTimes_l2 (s : State) (ln ws : Nat) : (wroteTimes s ln ws).l2 = s.l2 := rfl
@[simp] theorem wroteTimes_wq (s : State) (ln ws : Nat) : (wroteTimes s ln ws).wq = s.wq := rfl
@[simp] theorem wroteTimes_prefq (s : State) (ln ws : Nat) : (wroteTimes s ln ws).prefq = s.prefq := rfl
@[simp] theorem wroteTimes_cores (s : State) (ln ws : Nat) : (wroteTimes s ln ws).cores = s.cores := rfl
@[simp] theorem wroteTimes_banks (s : State) (ln ws : Nat) : (wroteTimes s ln ws).banks = s.banks := rfl
@[simp] theorem wroteTimes_doms (s : State) (ln ws : Nat) : (wroteTimes s ln ws).doms = s.doms := rfl
@[simp] theorem wroteTimes_shared (s : State) (ln ws : Nat) : (wroteTimes s ln ws).shared = s.shared := rfl
@[simp] theorem wroteTimes_sets (s : State) (ln ws : Nat) : (wroteTimes s ln ws).sets = s.sets := rfl
@[simp] theorem wroteTimes_gates (s : State) (ln ws : Nat) : (wroteTimes s ln ws).gates = s.gates := rfl
@[simp] theorem wroteTimes_peers (s : State) (ln ws : Nat) : (wroteTimes s ln ws).peers = s.peers := rfl
@[simp] theorem wroteTimes_topo (s : State) (ln ws : Nat) : (wroteTimes s ln ws).topo = s.topo := rfl
@[simp] theorem wroteTimes_health (s : State) (ln ws : Nat) : (wroteTimes s ln ws).health = s.health := rfl
@[simp] theorem wroteTimes_pkgid (s : State) (ln ws : Nat) : (wroteTimes s ln ws).pkgid = s.pkgid := rfl
@[simp] theorem wroteTimes_ports (s : State) (ln ws : Nat) : (wroteTimes s ln ws).ports = s.ports := rfl
@[simp] theorem wroteTimes_seen (s : State) (ln ws : Nat) : (wroteTimes s ln ws).seen = s.seen := rfl
@[simp] theorem wroteTimes_replies (s : State) (ln ws : Nat) : (wroteTimes s ln ws).replies = s.replies := rfl
@[simp] theorem wroteTimes_outbox (s : State) (ln ws : Nat) : (wroteTimes s ln ws).outbox = s.outbox := rfl
@[simp] theorem wroteTimes_seqs (s : State) (ln ws : Nat) : (wroteTimes s ln ws).seqs = s.seqs := rfl
@[simp] theorem wroteTimes_inbox (s : State) (ln ws : Nat) : (wroteTimes s ln ws).inbox = s.inbox := rfl
@[simp] theorem wroteTimes_peerWait (s : State) (ln ws : Nat) : (wroteTimes s ln ws).peerWait = s.peerWait := rfl
@[simp] theorem wroteTimes_host (s : State) (ln ws : Nat) : (wroteTimes s ln ws).host = s.host := rfl
@[simp] theorem wroteTimes_boot (s : State) (ln ws : Nat) : (wroteTimes s ln ws).boot = s.boot := rfl
@[simp] theorem wroteTimes_tlb (s : State) (ln ws : Nat) : (wroteTimes s ln ws).tlb = s.tlb := rfl
@[simp] theorem wroteTimes_shoots (s : State) (ln ws : Nat) : (wroteTimes s ln ws).shoots = s.shoots := rfl
@[simp] theorem wroteTimes_resv (s : State) (ln ws : Nat) : (wroteTimes s ln ws).resv = s.resv := rfl
@[simp] theorem wroteTimes_records (s : State) (ln ws : Nat) : (wroteTimes s ln ws).records = s.records := rfl
@[simp] theorem wroteTimes_tasks (s : State) (ln ws : Nat) : (wroteTimes s ln ws).tasks = s.tasks := rfl
@[simp] theorem wroteTimes_regions (s : State) (ln ws : Nat) : (wroteTimes s ln ws).regions = s.regions := rfl
@[simp] theorem wroteTimes_bank (s : State) (ln ws : Nat) : (wroteTimes s ln ws).bank = s.bank := rfl
@[simp] theorem wroteTimes_packets (s : State) (ln ws : Nat) : (wroteTimes s ln ws).packets = s.packets := rfl
@[simp] theorem wroteTimes_resets (s : State) (ln ws : Nat) : (wroteTimes s ln ws).resets = s.resets := rfl
@[simp] theorem wroteTimes_nextSid (s : State) (ln ws : Nat) : (wroteTimes s ln ws).nextSid = s.nextSid := rfl
@[simp] theorem wroteTimes_nextGid (s : State) (ln ws : Nat) : (wroteTimes s ln ws).nextGid = s.nextGid := rfl
@[simp] theorem wroteTimes_nextId (s : State) (ln ws : Nat) : (wroteTimes s ln ws).nextId = s.nextId := rfl
@[simp] theorem wroteTimes_bound (s : State) (ln ws : Nat) : (wroteTimes s ln ws).bound = s.bound := rfl
@[simp] theorem wroteTimes_parked (s : State) (ln ws : Nat) : (wroteTimes s ln ws).parked = s.parked := rfl
@[simp] theorem wroteTimes_fresh (s : State) (ln ws : Nat) : (wroteTimes s ln ws).fresh = s.fresh := rfl

@[simp] theorem setPbit_live (s : State) (n : Nat) (b : Bool) : (setPbit s n b).live = s.live := by unfold setPbit; split <;> rfl
@[simp] theorem setPbit_others (s : State) (n : Nat) (b : Bool) : (setPbit s n b).others = s.others := by unfold setPbit; split <;> rfl
@[simp] theorem setPbit_agenda (s : State) (n : Nat) (b : Bool) : (setPbit s n b).agenda = s.agenda := by unfold setPbit; split <;> rfl
@[simp] theorem setPbit_nextPc (s : State) (n : Nat) (b : Bool) : (setPbit s n b).nextPc = s.nextPc := by unfold setPbit; split <;> rfl
@[simp] theorem setPbit_words (s : State) (n : Nat) (b : Bool) : (setPbit s n b).words = s.words := by unfold setPbit; split <;> rfl
@[simp] theorem setPbit_chain (s : State) (n : Nat) (b : Bool) : (setPbit s n b).chain = s.chain := by unfold setPbit; split <;> rfl
@[simp] theorem setPbit_gtc (s : State) (n : Nat) (b : Bool) : (setPbit s n b).gtc = s.gtc := by unfold setPbit; split <;> rfl
@[simp] theorem setPbit_calMark (s : State) (n : Nat) (b : Bool) : (setPbit s n b).calMark = s.calMark := by unfold setPbit; split <;> rfl
@[simp] theorem setPbit_era (s : State) (n : Nat) (b : Bool) : (setPbit s n b).era = s.era := by unfold setPbit; split <;> rfl
@[simp] theorem setPbit_rblast (s : State) (n : Nat) (b : Bool) : (setPbit s n b).rblast = s.rblast := by unfold setPbit; split <;> rfl
@[simp] theorem setPbit_majn (s : State) (n : Nat) (b : Bool) : (setPbit s n b).majn = s.majn := by unfold setPbit; split <;> rfl
@[simp] theorem setPbit_mem (s : State) (n : Nat) (b : Bool) : (setPbit s n b).mem = s.mem := by unfold setPbit; split <;> rfl
@[simp] theorem setPbit_poison (s : State) (n : Nat) (b : Bool) : (setPbit s n b).poison = s.poison := by unfold setPbit; split <;> rfl
@[simp] theorem setPbit_lines (s : State) (n : Nat) (b : Bool) : (setPbit s n b).lines = s.lines := by unfold setPbit; split <;> rfl
@[simp] theorem setPbit_l2 (s : State) (n : Nat) (b : Bool) : (setPbit s n b).l2 = s.l2 := by unfold setPbit; split <;> rfl
@[simp] theorem setPbit_wq (s : State) (n : Nat) (b : Bool) : (setPbit s n b).wq = s.wq := by unfold setPbit; split <;> rfl
@[simp] theorem setPbit_prefq (s : State) (n : Nat) (b : Bool) : (setPbit s n b).prefq = s.prefq := by unfold setPbit; split <;> rfl
@[simp] theorem setPbit_cores (s : State) (n : Nat) (b : Bool) : (setPbit s n b).cores = s.cores := by unfold setPbit; split <;> rfl
@[simp] theorem setPbit_banks (s : State) (n : Nat) (b : Bool) : (setPbit s n b).banks = s.banks := by unfold setPbit; split <;> rfl
@[simp] theorem setPbit_doms (s : State) (n : Nat) (b : Bool) : (setPbit s n b).doms = s.doms := by unfold setPbit; split <;> rfl
@[simp] theorem setPbit_shared (s : State) (n : Nat) (b : Bool) : (setPbit s n b).shared = s.shared := by unfold setPbit; split <;> rfl
@[simp] theorem setPbit_sets (s : State) (n : Nat) (b : Bool) : (setPbit s n b).sets = s.sets := by unfold setPbit; split <;> rfl
@[simp] theorem setPbit_gates (s : State) (n : Nat) (b : Bool) : (setPbit s n b).gates = s.gates := by unfold setPbit; split <;> rfl
@[simp] theorem setPbit_peers (s : State) (n : Nat) (b : Bool) : (setPbit s n b).peers = s.peers := by unfold setPbit; split <;> rfl
@[simp] theorem setPbit_topo (s : State) (n : Nat) (b : Bool) : (setPbit s n b).topo = s.topo := by unfold setPbit; split <;> rfl
@[simp] theorem setPbit_health (s : State) (n : Nat) (b : Bool) : (setPbit s n b).health = s.health := by unfold setPbit; split <;> rfl
@[simp] theorem setPbit_pkgid (s : State) (n : Nat) (b : Bool) : (setPbit s n b).pkgid = s.pkgid := by unfold setPbit; split <;> rfl
@[simp] theorem setPbit_ports (s : State) (n : Nat) (b : Bool) : (setPbit s n b).ports = s.ports := by unfold setPbit; split <;> rfl
@[simp] theorem setPbit_seen (s : State) (n : Nat) (b : Bool) : (setPbit s n b).seen = s.seen := by unfold setPbit; split <;> rfl
@[simp] theorem setPbit_replies (s : State) (n : Nat) (b : Bool) : (setPbit s n b).replies = s.replies := by unfold setPbit; split <;> rfl
@[simp] theorem setPbit_outbox (s : State) (n : Nat) (b : Bool) : (setPbit s n b).outbox = s.outbox := by unfold setPbit; split <;> rfl
@[simp] theorem setPbit_seqs (s : State) (n : Nat) (b : Bool) : (setPbit s n b).seqs = s.seqs := by unfold setPbit; split <;> rfl
@[simp] theorem setPbit_inbox (s : State) (n : Nat) (b : Bool) : (setPbit s n b).inbox = s.inbox := by unfold setPbit; split <;> rfl
@[simp] theorem setPbit_peerWait (s : State) (n : Nat) (b : Bool) : (setPbit s n b).peerWait = s.peerWait := by unfold setPbit; split <;> rfl
@[simp] theorem setPbit_host (s : State) (n : Nat) (b : Bool) : (setPbit s n b).host = s.host := by unfold setPbit; split <;> rfl
@[simp] theorem setPbit_boot (s : State) (n : Nat) (b : Bool) : (setPbit s n b).boot = s.boot := by unfold setPbit; split <;> rfl
@[simp] theorem setPbit_tlb (s : State) (n : Nat) (b : Bool) : (setPbit s n b).tlb = s.tlb := by unfold setPbit; split <;> rfl
@[simp] theorem setPbit_shoots (s : State) (n : Nat) (b : Bool) : (setPbit s n b).shoots = s.shoots := by unfold setPbit; split <;> rfl
@[simp] theorem setPbit_resv (s : State) (n : Nat) (b : Bool) : (setPbit s n b).resv = s.resv := by unfold setPbit; split <;> rfl
@[simp] theorem setPbit_records (s : State) (n : Nat) (b : Bool) : (setPbit s n b).records = s.records := by unfold setPbit; split <;> rfl
@[simp] theorem setPbit_tasks (s : State) (n : Nat) (b : Bool) : (setPbit s n b).tasks = s.tasks := by unfold setPbit; split <;> rfl
@[simp] theorem setPbit_regions (s : State) (n : Nat) (b : Bool) : (setPbit s n b).regions = s.regions := by unfold setPbit; split <;> rfl
@[simp] theorem setPbit_bank (s : State) (n : Nat) (b : Bool) : (setPbit s n b).bank = s.bank := by unfold setPbit; split <;> rfl
@[simp] theorem setPbit_packets (s : State) (n : Nat) (b : Bool) : (setPbit s n b).packets = s.packets := by unfold setPbit; split <;> rfl
@[simp] theorem setPbit_resets (s : State) (n : Nat) (b : Bool) : (setPbit s n b).resets = s.resets := by unfold setPbit; split <;> rfl
@[simp] theorem setPbit_nextSid (s : State) (n : Nat) (b : Bool) : (setPbit s n b).nextSid = s.nextSid := by unfold setPbit; split <;> rfl
@[simp] theorem setPbit_nextGid (s : State) (n : Nat) (b : Bool) : (setPbit s n b).nextGid = s.nextGid := by unfold setPbit; split <;> rfl
@[simp] theorem setPbit_nextId (s : State) (n : Nat) (b : Bool) : (setPbit s n b).nextId = s.nextId := by unfold setPbit; split <;> rfl
@[simp] theorem setPbit_bound (s : State) (n : Nat) (b : Bool) : (setPbit s n b).bound = s.bound := by unfold setPbit; split <;> rfl
@[simp] theorem setPbit_parked (s : State) (n : Nat) (b : Bool) : (setPbit s n b).parked = s.parked := by unfold setPbit; split <;> rfl
@[simp] theorem setPbit_fresh (s : State) (n : Nat) (b : Bool) : (setPbit s n b).fresh = s.fresh := by unfold setPbit; split <;> rfl

end Sys2Proof.Machine
end

