-- ==== Sys2Proof/Laws/Home.lean ====
section
/-! SUPPORT. What the operations of storage, homes and translations can change, each said once. -/

namespace Sys2Proof.Machine

/-- `t` differs from `s` at most in storage, line times, caches, poison met in a channel that has failed, translations held, package counters and the numbers the model counts. -/
def HomeOnly (s t : State) : Prop :=
  t = { s with
    l2 := t.l2
    wq := t.wq
    lines := t.lines
    doms := t.doms
    prefq := t.prefq
    nextId := t.nextId
    mem := t.mem
    poison := t.poison
    cores := t.cores
    fresh := t.fresh
    tlb := t.tlb }

theorem HomeOnly.refl (s : State) : HomeOnly s s := rfl

theorem HomeOnly.trans {s t u : State} (h : HomeOnly s t) (k : HomeOnly t u) : HomeOnly s u := by
  unfold HomeOnly at *
  rw [k, h]

theorem HomeOnly.me {s t : State} (h : HomeOnly s t) : t.me = s.me := by unfold HomeOnly at h; rw [h]
theorem HomeOnly.live {s t : State} (h : HomeOnly s t) : t.live = s.live := by unfold HomeOnly at h; rw [h]
theorem HomeOnly.others {s t : State} (h : HomeOnly s t) : t.others = s.others := by unfold HomeOnly at h; rw [h]
theorem HomeOnly.nextPc {s t : State} (h : HomeOnly s t) : t.nextPc = s.nextPc := by unfold HomeOnly at h; rw [h]
theorem HomeOnly.words {s t : State} (h : HomeOnly s t) : t.words = s.words := by unfold HomeOnly at h; rw [h]
theorem HomeOnly.boot {s t : State} (h : HomeOnly s t) : t.boot = s.boot := by unfold HomeOnly at h; rw [h]
theorem HomeOnly.gtc {s t : State} (h : HomeOnly s t) : t.gtc = s.gtc := by unfold HomeOnly at h; rw [h]
theorem HomeOnly.resv {s t : State} (h : HomeOnly s t) : t.resv = s.resv := by unfold HomeOnly at h; rw [h]
theorem HomeOnly.health {s t : State} (h : HomeOnly s t) : t.health = s.health := by unfold HomeOnly at h; rw [h]

theorem homeOnly_addCnt (s : State) (d i n : Nat) : HomeOnly s (addCnt s d i n) := rfl
theorem homeOnly_chargeEnergy (s : State) (d i : Nat) : HomeOnly s (chargeEnergy s d i) := rfl
theorem homeOnly_setTimes (s : State) (ln w r : Nat) : HomeOnly s (setTimes s ln w r) := rfl
theorem homeOnly_wroteTimes (s : State) (ln ws : Nat) : HomeOnly s (wroteTimes s ln ws) := rfl
theorem homeOnly_updCore (s : State) (c : Nat) (f : CoreSt → CoreSt) : HomeOnly s (updCore s c f) := rfl

theorem homeOnly_tlbKeep (s : State) (h d va : Nat) : HomeOnly s (tlbKeep s h d va) := by
  unfold tlbKeep; split
  · rfl
  · split <;> rfl

theorem homeOnly_homePut (s : State) (pa : Nat) (d : List Byte) : HomeOnly s (homePut s pa d) := by
  unfold homePut; simp only []; split
  · rfl
  · split <;> rfl

theorem homeOnly_dropL2 (s : State) (ln : Nat) (b : Bool) : HomeOnly s (dropL2 s ln b) := by
  unfold dropL2; split
  · rfl
  · simp only []; split <;> split <;> rfl

theorem homeOnly_postMsg (s : State) (c d : Nat) (m : MboxMsg) : HomeOnly s (postMsg s c d m) := by
  unfold postMsg; simp only []; split <;> rfl

theorem homeOnly_rasPost (s : State) (d time addr src sev adid unit : Nat) : HomeOnly s (rasPost s d time addr src sev adid unit) := by
  unfold rasPost; simp only []; split
  · exact homeOnly_postMsg _ _ _ _
  · rfl

theorem homeOnly_poisonMark (s : State) (k a : Nat) : HomeOnly s (poisonMark s k a) := by
  unfold poisonMark; split
  · rfl
  · exact HomeOnly.trans (t := updDom { s with poison := s.poison ++ [k / 64] } (rasPlace s k).1 (fun b => { b with uecnt := b.uecnt + 1 })) rfl
      (homeOnly_rasPost _ _ _ _ _ _ _ _)

theorem homeOnly_foundDead (s : State) (k n a : Nat) : HomeOnly s (foundDead s k n a) := by
  unfold foundDead; split
  · rfl
  · rename_i h
    clear h
    generalize upto _ _ = l
    induction l generalizing s with
    | nil => rfl
    | cons g l ih =>
      simp only [List.foldl_cons]
      split
      · exact (homeOnly_poisonMark _ _ _).trans (ih _)
      · exact ih s

theorem homeOnly_biasLook (s : State) (pa d : Nat) : HomeOnly s (biasLook s pa d) := by
  unfold biasLook
  cases biasByte s pa with
  | none => rfl
  | some x => exact homeOnly_foundDead _ _ _ _

theorem homeOnly_fillL2 (s : State) (ln : Nat) (p : Option Nat) (d : Nat) : HomeOnly s (fillL2 s ln p d) := by
  unfold fillL2
  extract_lets pa s0
  split
  · rfl
  · have h0 : HomeOnly s s0 := by
      show HomeOnly s (if deadGranule s ln then poisonMark s pa d else s)
      split
      · exact homeOnly_poisonMark _ _ _
      · rfl
    clear_value s0
    split
    · exact h0
    · rename_i r _
      extract_lets reg k set ls s1 s2
      split
      · exact h0
      · have h1 : HomeOnly s0 s1 := by
          show HomeOnly s0 (if ls.length < 16 then s0 else match victimOf s0 r ls with | some v => dropL2 s0 v.line true | none => s0)
          split
          · rfl
          · split
            · exact homeOnly_dropL2 _ _ _
            · rfl
        have h2 : HomeOnly s1 s2 := by
          show HomeOnly s1 (match p with | some d => _ | none => _)
          split <;> rfl
        exact ((h0.trans h1).trans h2).trans rfl

theorem homeOnly_demand (s : State) (ln d : Nat) : HomeOnly s (demand s ln d) := by
  unfold demand
  extract_lets b c s1
  have hb : HomeOnly s b := homeOnly_biasLook _ _ _
  clear_value b
  have hc : HomeOnly b c := by
    show HomeOnly b (if _ then _ else _)
    split <;> rfl
  clear_value c
  have h1 : HomeOnly c s1 := by
    show HomeOnly c (match c.prefq.find? (fun q => q.1 == ln) with | some (_, _, _) => _ | none => _)
    split
    · rename_i pd _ _
      have h0 : HomeOnly c (addCnt { c with prefq := c.prefq.filter (fun q => q.1 != ln) } pd 2 1) := rfl
      exact (h0.trans (homeOnly_fillL2 _ _ _ _)).trans rfl
    · rfl
  clear_value s1
  refine ((hb.trans hc).trans h1).trans ?_
  split
  · split <;> rfl
  · exact homeOnly_fillL2 _ _ _ _

theorem homeOnly_l1Store (s : State) (c ln t : Nat) : HomeOnly s (l1Store s c ln t) := by
  unfold l1Store; split <;> rfl

theorem homeOnly_l1Drop (s : State) (c ln : Nat) : HomeOnly s (l1Drop s c ln) := by
  unfold l1Drop; split <;> rfl

theorem homeOnly_l1Put (s : State) (c : Nat) (x : L1Line) : HomeOnly s (l1Put s c x) := by
  unfold l1Put; simp only []; split <;> rfl

theorem homeOnly_lease (s : State) (ln t d : Nat) : HomeOnly s (lease s ln t d).1 := rfl

theorem homeOnly_renew (s : State) (ln t d : Nat) : HomeOnly s (renew s ln t d).1 :=
  (homeOnly_demand s ln d).trans (homeOnly_lease _ _ _ _)

theorem homeOnly_windowRead (s : State) (pa n t d : Nat) : HomeOnly s (windowRead s pa n t d).1 := by
  unfold windowRead; simp only []
  split
  · exact homeOnly_lease _ _ _ _
  · exact (homeOnly_fillL2 _ _ _ _).trans (homeOnly_lease _ _ _ _)

theorem homeOnly_homeRead (s : State) (pa n t d : Nat) : HomeOnly s (homeRead s pa n t d).1 := homeOnly_renew s (pa / 64) t d

theorem homeOnly_homeWrite (s : State) (pa : Nat) (d : List Byte) (c f k a : Nat) : HomeOnly s (homeWrite s pa d c f k a).1 := by
  unfold homeWrite; simp only []
  exact (((homeOnly_demand s (pa / 64) a).trans (homeOnly_homePut _ pa d)).trans (homeOnly_wroteTimes _ _ _)).trans (homeOnly_l1Store _ _ _ _)

theorem homeOnly_fetchCopy (s : State) (pa : Nat) : HomeOnly s (fetchCopy s pa).1 := by
  unfold fetchCopy
  extract_lets ln
  have h : HomeOnly s (renew (chargeEnergy s s.me.did 1) ln s.me.tck s.me.did).1 := (homeOnly_chargeEnergy s s.me.did 1).trans (homeOnly_renew _ _ _ _)
  split
  rename_i t w r e
  rw [e] at h
  simp only []
  split
  · exact h
  · exact h.trans (homeOnly_l1Put _ _ _)

/-- What reading an operand changes: the strand's clock, and the queue or context popped. -/
theorem Reads.only {s t : State} {o : SOp} {x : Word} (h : Reads s o x t) :
    t = { s with me := { s.me with tck := t.me.tck }, cores := t.cores } := by
  cases h with
  | reg r => rfl
  | queue q x t rest h => rfl
  | stream z i e tl pa rest hb hd hi hh hf => rfl

theorem mergeTokens_only (s : State) (rd : List Nat) : mergeTokens s rd = { s with me := { s.me with tck := (mergeTokens s rd).me.tck } } := by
  unfold mergeTokens
  induction rd generalizing s with
  | nil => rfl
  | cons r rd ih =>
    simp only [List.foldl_cons]
    split
    · rename_i t _
      exact (ih _).trans rfl
    · exact ih s

end Sys2Proof.Machine
end

