-- ==== Sys2Proof/Laws/Issue.lean ====
section
/-! SUPPORT. What issuing an instruction and reading and writing its operands can do, each said once. -/

namespace Sys2Proof.Machine

/-- Where no overrun stands on a bank core, the order of causes there changes nothing (R397). -/
theorem bankOrder_eq {s : State} {r : Res} (h : onBank s = true → s.me.ydl ≠ 0) : bankOrder s r = r := by
  unfold bankOrder
  unfold onBank at h
  split
  · rename_i hs
    rw [if_neg (h (by rw [hs]))]
  · rfl

/-- An instruction that issues runs its body in the state in which its effect begins. -/
theorem issue_next {x : Issue} {s u : State} (body : State → Res) (h : Issues x s u) :
    issue x body s = .next (finish s (body u)) := by
  obtain ⟨hr, hn, hv, ht, hvt, hg, hh, hb, hf, hy⟩ := h
  have e1 : (x.rd ++ x.wr).any (fun r => decide (modeS (modeOfStrand s s.me) ≤ r)) = false := by
    rw [List.any_eq_false]; rw [List.all_eq_true] at hn
    intro r hr'; have := hn r hr'; simp at this ⊢; omega
  have e2 : x.vregs.any (fun r => decide (modeV (modeOfStrand s s.me) ≤ r)) = false := by
    rw [List.any_eq_false]; rw [List.all_eq_true] at hv
    intro r hr'; have := hv r hr'; simp at this ⊢; omega
  have e3 : (x.rd ++ x.wr).any (fun r => s.me.pend.contains r && !x.noTok.contains r) = false := by
    rw [List.any_eq_false]; rw [List.all_eq_true] at ht
    intro r hr'; have := ht r hr'; revert this; cases s.me.pend.contains r <;> cases x.noTok.contains r <;> simp
  have e4 : x.vregs.any s.me.vpend.contains = false := by
    rw [List.any_eq_false]; rw [List.all_eq_true] at hvt
    intro r hr'; have := hvt r hr'; revert this; cases s.me.vpend.contains r <;> simp
  have e5 : (s.me.seat == .handler && !x.handler) = false := by
    cases hq : (s.me.seat == .handler)
    · rfl
    · rw [hh (by simpa using hq)]; rfl
  obtain ⟨t, hm, hu⟩ : ∃ t, meetFences s x.begins = some t ∧ mergeTokens t x.rd = u := by
    cases hm : meetFences s x.begins with
    | none => rw [hm] at hf; simp at hf
    | some t => rw [hm] at hf; exact ⟨t, rfl, by simpa using hf⟩
  have e6 : ∀ b : Bool, onBank s = b → (b && x.bank == .ill) = false ∧ (b && x.bank == .ret) = false := by
    intro b hb'
    cases b
    · exact ⟨rfl, rfl⟩
    · rw [hb hb']; exact ⟨rfl, rfl⟩
  obtain ⟨e7, e8⟩ := e6 _ rfl
  unfold issue issueRes
  rw [bankOrder_eq hy]
  simp only [hr, e1, e2, e3, e4, hg, e5, hm, hu, Bool.or_self, Bool.not_true, Bool.false_eq_true, if_false]
  rw [if_neg (fun hx => Bool.noConfusion (hx.symm.trans e7)), if_neg (fun hx => Bool.noConfusion (hx.symm.trans e8))]

/-- A guard that fails leaves the strand at NextPC and changes nothing else (R42). -/
theorem issue_skip {x : Issue} {s : State} (body : State → Res) (hr : s.boot.recovery = false)
    (hn : (x.rd ++ x.wr).all (fun r => decide (r < modeS (modeOfStrand s s.me))) = true)
    (hv : x.vregs.all (fun r => decide (r < modeV (modeOfStrand s s.me))) = true)
    (hp : s.me.pend = []) (hvp : s.me.vpend = []) (hg : guardOk s x.g = false) (hy : onBank s = true → s.me.ydl ≠ 0) :
    issue x body s = .next (retireTo s s.nextPc) := by
  have e1 : (x.rd ++ x.wr).any (fun r => decide (modeS (modeOfStrand s s.me) ≤ r)) = false := by
    rw [List.any_eq_false]; rw [List.all_eq_true] at hn
    intro r hr'; have := hn r hr'; simp at this ⊢; omega
  have e2 : x.vregs.any (fun r => decide (modeV (modeOfStrand s s.me) ≤ r)) = false := by
    rw [List.any_eq_false]; rw [List.all_eq_true] at hv
    intro r hr'; have := hv r hr'; simp at this ⊢; omega
  have e3 : (x.rd ++ x.wr).any (fun r => s.me.pend.contains r && !x.noTok.contains r) = false := by
    rw [List.any_eq_false]; intro r _; rw [hp]; simp
  have e4 : x.vregs.any s.me.vpend.contains = false := by
    rw [List.any_eq_false]; intro r _; rw [hvp]; simp
  unfold issue issueRes
  rw [bankOrder_eq hy]
  simp only [hr, e1, e2, e3, e4, hg, Bool.or_self, Bool.not_false, Bool.false_eq_true, if_false, if_true]
  rfl

/-- A package in recovery mode runs nothing (R466). -/
theorem issue_recovery (x : Issue) (body : State → Res) {s : State} (h : s.boot.recovery = true) : issue x body s = .fault .recovery := by
  unfold issue; simp [h]

/-- A package in recovery mode performs no event (R466). -/
theorem event_recovery (f : State → State) {s : State} (h : s.boot.recovery = true) : event f s = .fault .recovery := by
  unfold event; simp [h]

/-- An event of a running package. -/
theorem event_next (f : State → State) {s : State} (h : s.boot.recovery = false) : event f s = .next (f s) := by
  unfold event; simp [h]

/-- An operand that is read gives its value and the state after it. -/
theorem withRead_eq {s t : State} {o : SOp} {x : Word} (k : State → Word → Res) (h : Reads s o x t) : withRead s o k = k t x := by
  cases h with
  | reg r => rfl
  | queue q x t rest h =>
    obtain ⟨h1, h2, h3⟩ := h
    unfold withRead queueTrap
    simp only [h1, h2, h3, if_true, Bool.not_true, Bool.false_eq_true, if_false]
    rfl
  | stream z i e tl pa rest hb hd hi hh hf =>
    have h1 : ¬ streamLen (ctxOf s s.me.core i).srec ≤ (ctxOf s s.me.core i).eidx := by omega
    have h2 : ¬ tl < kget s.me.floors 3 0 := by omega
    unfold withRead streamPop
    simp only [hb, hd, h1, hh, h2, List.dropWhile, decide_false, List.length_cons, if_true, Bool.false_eq_true, if_false]
    rfl

/-- A destination that accepts stops nothing. -/
theorem writeStop_none {s : State} {o : SOp} (h : Accepts s o) : writeStop s o = none := by
  cases h with
  | reg r => rfl
  | queue q own turn room =>
    unfold writeStop queueTrap
    simp only [own, if_true, room, turn, decide_true, Bool.and_self]
  | stream z i pa hb hd hi hw hc hr =>
    have h1 : ¬ streamLen (ctxOf s s.me.core i).srec ≤ (ctxOf s s.me.core i).eidx := by omega
    have h2 : ¬ 64 ≤ (ctxOf s s.me.core i).pushes.length := by omega
    unfold writeStop
    simp only [hb, hd, h1, hw, hc, h2, Bool.not_true, Bool.false_eq_true, if_false]

/-- A result is written to a destination that accepts. -/
theorem withWrite_eq {s : State} {o : SOp} (v : Word) (h : Accepts s o) : withWrite s o v = .done (putOp s o v) := by
  unfold withWrite; rw [writeStop_none h]

/-- An instruction that completes has no trap to rank. -/
@[simp] theorem ranked_done (s t : State) (rd wr : List SOp) (more : List (Option (Cause × Word))) : ranked s rd wr more (.done t) = .done t := rfl

/-- An instruction that transfers control has no trap to rank. -/
@[simp] theorem ranked_jump (s t : State) (pc : Word) (rd wr : List SOp) (more : List (Option (Cause × Word))) :
    ranked s rd wr more (.jump t pc) = .jump t pc := rfl

/-- Three-operand forms. -/
theorem op3_next {g : Guard} {a b c : SOp} {s u : State} {x y : Word} (f : State → Word → Word → Word) (h : Op3Ready g a b c s u x y) :
    op3 g a b c f s = .next (writes s u a (f u x y)) := by
  obtain ⟨v, w, hi, hb, hc, ha⟩ := h
  unfold op3
  rw [issue_next _ hi, withRead_eq _ hb, withRead_eq _ hc, withWrite_eq _ ha, ranked_done]
  rfl

/-- Two-operand forms. -/
theorem op2_next {g : Guard} {a b : SOp} {s u : State} {x : Word} (f : State → Word → Word) (h : Op2Ready g a b s u x) :
    op2 g a b f s = .next (writes s u a (f u x)) := by
  obtain ⟨v, hi, hb, ha⟩ := h
  unfold op2
  rw [issue_next _ hi, withRead_eq _ hb, withWrite_eq _ ha, ranked_done]
  rfl

/-- Three-operand forms, their result in another spelling. -/
theorem op3_gives {g : Guard} {a b c : SOp} {s u : State} {x y : Word} {f : State → Word → Word → Word} (v : Word) (hv : f u x y = v)
    (h : Op3Ready g a b c s u x y) : op3 g a b c f s = .next (writes s u a v) := hv ▸ op3_next f h

/-- Two-operand forms, their result in another spelling. -/
theorem op2_gives {g : Guard} {a b : SOp} {s u : State} {x : Word} {f : State → Word → Word} (v : Word) (hv : f u x = v)
    (h : Op2Ready g a b s u x) : op2 g a b f s = .next (writes s u a v) := hv ▸ op2_next f h

/-- Forms that write one operand. -/
theorem op1_next {g : Guard} {a : SOp} {s u : State} (v : State → Word) (h : Op1Ready g a s u) :
    issue (opIssue g [] [a] [] []) (fun s => withWrite s a (v s)) s = .next (writes s u a (v u)) := by
  obtain ⟨hi, ha⟩ := h
  rw [issue_next _ hi, withWrite_eq _ ha]
  rfl

/-- Forms that read their destination and one operand. -/
theorem opRmw_next {g : Guard} {a : SReg} {b : SOp} {s u : State} {x : Word} (f : State → Word → Word → Word) (h : Rmw2Ready g a b s u x) :
    opRmw g a b f s = .next (goesOn s (setSreg u a.val (f u (sreg u a.val) x))) := by
  obtain ⟨v, hi, hb⟩ := h
  unfold opRmw
  rw [issue_next _ hi, withRead_eq _ hb]
  rfl

/-- Forms that read their destination and two operands. -/
theorem opRmw3_next {g : Guard} {a : SReg} {b c : SOp} {s u : State} {x y : Word} (f : State → Word → Word → Word → Word)
    (h : Rmw3Ready g a b c s u x y) :
    opRmw3 g a b c f s = .next (goesOn s (setSreg u a.val (f u (sreg u a.val) x y))) := by
  obtain ⟨v, w, hi, hb, hc⟩ := h
  unfold opRmw3
  rw [issue_next _ hi, withRead_eq _ hb, withRead_eq _ hc, ranked_done]
  rfl

/-- Forms that read their destination, their result in another spelling. -/
theorem opRmw_gives {g : Guard} {a : SReg} {b : SOp} {s u : State} {x : Word} {f : State → Word → Word → Word} (v : Word)
    (hv : f u (sreg u a.val) x = v) (h : Rmw2Ready g a b s u x) : opRmw g a b f s = .next (goesOn s (setSreg u a.val v)) := hv ▸ opRmw_next f h

/-- Forms that read their destination and two operands, their result in another spelling. -/
theorem opRmw3_gives {g : Guard} {a : SReg} {b c : SOp} {s u : State} {x y : Word} {f : State → Word → Word → Word → Word} (v : Word)
    (hv : f u (sreg u a.val) x y = v) (h : Rmw3Ready g a b c s u x y) : opRmw3 g a b c f s = .next (goesOn s (setSreg u a.val v)) :=
  hv ▸ opRmw3_next f h

/-- Compares. -/
theorem opPred_next {g : Guard} {a : PBit} {b c : SOp} {s u : State} {x y : Word} (f : Word → Word → Bool) (h : Cmp2Ready g b c s u x y) :
    opPred g a b c f s = .next (goesOn s (setPbit u a.val (f x y))) := by
  obtain ⟨v, w, hi, hb, hc⟩ := h
  unfold opPred
  rw [issue_next _ hi, withRead_eq _ hb, withRead_eq _ hc, ranked_done]
  rfl

/-- Compares, their result in another spelling. -/
theorem opPred_gives {g : Guard} {a : PBit} {b c : SOp} {s u : State} {x y : Word} {f : Word → Word → Bool} (v : Bool) (hv : f x y = v)
    (h : Cmp2Ready g b c s u x y) : opPred g a b c f s = .next (goesOn s (setPbit u a.val v)) := hv ▸ opPred_next f h

/-- Forms that read one operand. -/
theorem cmp1_next {g : Guard} {b : SOp} {s u : State} {x : Word} (k : State → Word → Res) (h : Cmp1Ready g b s u x) :
    issue (opIssue g [b] [] [] []) (fun s => withRead s b k) s = .next (finish s (k u x)) := by
  obtain ⟨v, hi, hb⟩ := h
  rw [issue_next _ hi, withRead_eq _ hb]

/-- Every instruction with an encoding goes through its issue. -/
theorem exec_issue {i : Instr} {x : Issue} {s : State} (h : issueOf s i = some x) : ∃ body, exec i s = issue x body s := by
  cases i <;> first | (cases h; exact ⟨_, rfl⟩) | cases h

/-- Every event but a package reset goes through `event`. -/
theorem exec_event {i : Instr} {s : State} (h : issueOf s i = none) (hp : ∀ good, i ≠ .packageReset good) : ∃ f, exec i = event f := by
  cases i <;> first | exact ⟨_, rfl⟩ | (exfalso; cases h; done) | exact absurd rfl (hp _)

/-! ### What a waiting instruction keeps of its issue (R27) -/

/-- Only the snapshot of the strand may change. -/
theorem keepPre_rest (s t : State) : keepPre s t = { t with me := { t.me with pre := (keepPre s t).me.pre } } := by
  unfold keepPre; split <;> rfl

/-- An instruction that does not wait keeps nothing. -/
theorem keepPre_of_none {s t : State} (h : t.me.wait = .none) : keepPre s t = t := by
  unfold keepPre; simp [h]

/-- The strand that waits in its instruction keeps the snapshot it had, else its clock, obligations and floors at issue. -/
theorem keepPre_me {s t : State} (h1 : t.live = true) (h2 : t.me.key = s.me.key) (h3 : t.me.wait ≠ .none) :
    (keepPre s t).me = { t.me with pre := some (s.me.pre.getD ⟨s.me.tck, s.me.fencex, s.me.floors, s.chain⟩) } := by
  unfold keepPre
  rw [if_pos (by simp [h1, h2, h3])]
  rfl

/-- Undoing changes the clock, the obligations and the floors of the strand in turn, and nothing else. -/
theorem undoPre_rest (s : State) :
    undoPre s = { s with me := { s.me with
      tck := (undoPre s).me.tck
      fencex := (undoPre s).me.fencex
      floors := (undoPre s).me.floors
      pre := (undoPre s).me.pre } } := by
  unfold undoPre; split <;> rfl

/-- Where nothing is kept there is nothing to undo. -/
theorem undoPre_of_none {s : State} (h : s.me.pre = none) : undoPre s = s := by
  unfold undoPre; simp [h]

/-- A strand that asks for no run-queue entry gives none back (R187). -/
theorem stayHere_of_none {s : State} (h : s.me.dest = none) : stayHere s = s := by simp [stayHere, h]

/-- Once a migration is given up the strand has no destination (R187). -/
theorem stayHere_dest (s : State) : (stayHere s).me.dest = none := by
  unfold stayHere
  split
  · rfl
  · simpa using ‹¬ s.me.dest.isSome›

/-- A reservation that is held passes to nobody (R207). -/
theorem grantDue_held {s : State} {pa : Nat} {q : Resv} (h : kget? s.resv pa = some q) (hq : q.holder.isSome) : grantDue s pa = s := by
  obtain ⟨k, hk⟩ := Option.isSome_iff_exists.mp hq
  simp [grantDue, h, hk]

/-- Where a hardware access is next at a handler slot, no handler runs there and no message waits (R192). -/
theorem handlerFree_cases {s : State} {c : Nat} (h : handlerFree s c = true) :
    handlerIdle s c = true ∧ (coreOf s c).hq = [] ∧ (coreOf s c).hwait = [] := by
  simpa [handlerFree, and_assoc] using h

/-- An accumulator that is poisoned already is not counted again (R444). -/
theorem accFound_again {s : State} {k a : Nat} (h : (coreOf s (accPlace k).1).accPois.getLsbD (accPlace k).2 = true) : accFound s k a = s := by
  simp [accFound, h]

/-- Telling the strands that wait for a stream how it ended changes nothing but strands (R331). -/
theorem tellWaiters_rest (s : State) (c x : Nat) :
    tellWaiters s c x = { s with me := (tellWaiters s c x).me, others := (tellWaiters s c x).others } := rfl

/-- A store that takes the place of earlier ones changes nothing else of its strand (R267). -/
theorem supersede_rest (t : Strand) (early : Posted → Bool) (k n : Nat) :
    supersede t early k n = { t with posted := (supersede t early k n).posted } := by
  unfold supersede
  split <;> rfl

end Sys2Proof.Machine
end

