-- ==== Sys2Proof/Tests/Slice0.lean ====
section
/-! SUPPORT. Tests: words written out from the encodings of the spec decode to their instructions, ill-formed terms are refused, single steps, and for
each statement a state that meets its hypotheses. -/

set_option maxRecDepth 30000
set_option exponentiation.threshold 10000

namespace Sys2Proof.Tests

open Sys2Proof Sys2Proof.Machine

/-! ### Decoding: a word of every row of the table of operations, from its match, its fields and R47 and R48 -/

theorem test_decode_page0a :
    decode [0x0259#16] = .ok (.add .always (.s 2) (.s 5) (.s 9)) 1
    ∧ decode [0x1259#16] = .ok (.sub .always (.s 2) (.s 5) (.s 9)) 1
    ∧ decode [0x2259#16] = .ok (.and .always (.s 2) (.s 5) (.s 9)) 1
    ∧ decode [0x3259#16] = .ok (.or .always (.s 2) (.s 5) (.s 9)) 1
    ∧ decode [0x4259#16] = .ok (.xor .always (.s 2) (.s 5) (.s 9)) 1
    ∧ decode [0xF407#16, 0x5259#16] = .ok (.sel .always (.s 2) (.s 5) (.s 9) 7) 2
    ∧ decode [0xF402#16, 0x6259#16] = .ok (.cmpReg .always 2 (.s 5) (.s 9) .lt) 2
    ∧ decode [0xF405#16, 0x725D#16] = .ok (.cmpImm .always 2 (.s 5) (-3) .geu) 2
    ∧ decode [0x82FD#16] = .ok (.li .always (.s 2) (-3)) 1
    ∧ decode [0x9FFD#16] = .ok (.j .always (-3)) 1
    ∧ decode [0xA025#16] = .ok (.ldB .always (.s 2) (.s 5) 0) 1
    ∧ decode [0xA125#16] = .ok (.ldBu .always (.s 2) (.s 5) 0) 1
    ∧ decode [0xA225#16] = .ok (.ldH .always (.s 2) (.s 5) 0) 1
    ∧ decode [0xA325#16] = .ok (.ldHu .always (.s 2) (.s 5) 0) 1
    ∧ decode [0xA425#16] = .ok (.ldW .always (.s 2) (.s 5) 0) 1
    ∧ decode [0xA525#16] = .ok (.ldWu .always (.s 2) (.s 5) 0) 1 := by
  and_intros <;> rfl

theorem test_decode_page0b :
    decode [0xA625#16] = .ok (.ldD .always (.s 2) (.s 5) 0) 1
    ∧ decode [0xA725#16] = .ok (.lea .always (.s 2) (.s 5) 0) 1
    ∧ decode [0xA825#16] = .ok (.stB .always (.s 2) (.s 5) 0) 1
    ∧ decode [0xA925#16] = .ok (.stH .always (.s 2) (.s 5) 0) 1
    ∧ decode [0xAA25#16] = .ok (.stW .always (.s 2) (.s 5) 0) 1
    ∧ decode [0xAB25#16] = .ok (.stD .always (.s 2) (.s 5) 0) 1
    ∧ decode [0xAC25#16] = .ok (.ldq .always 2 (.s 5) 0) 1
    ∧ decode [0xAD25#16] = .ok (.stq .always 2 (.s 5) 0) 1
    ∧ decode [0xB025#16] = .ok (.mov .always (.s 2) (.s 5)) 1
    ∧ decode [0xB125#16] = .ok (.andn .always 2 (.s 5)) 1
    ∧ decode [0xB225#16] = .ok (.shlReg .always 2 (.s 5)) 1
    ∧ decode [0xB325#16] = .ok (.shrReg .always 2 (.s 5)) 1
    ∧ decode [0xB425#16] = .ok (.sraReg .always 2 (.s 5)) 1
    ∧ decode [0xB52B#16] = .ok (.shlImm .always 2 11) 1
    ∧ decode [0xB62B#16] = .ok (.shrImm .always 2 11) 1
    ∧ decode [0xB72B#16] = .ok (.sraImm .always 2 11) 1 := by
  and_intros <;> rfl

theorem test_decode_page0c :
    decode [0xB825#16] = .ok (.psetAnd .always 2 5) 1
    ∧ decode [0xB925#16] = .ok (.psetOr .always 2 5) 1
    ∧ decode [0xBA25#16] = .ok (.psetXor .always 2 5) 1
    ∧ decode [0xBB25#16] = .ok (.psetAndn .always 2 5) 1
    ∧ decode [0xBC25#16] = .ok (.psetMov .always 2 5) 1
    ∧ decode [0xBD25#16] = .ok (.psetNot .always 2 5) 1
    ∧ decode [0xBE20#16] = .ok (.jr .always (.s 2)) 1
    ∧ decode [0xBF00#16] = .ok (.nop .always) 1
    ∧ decode [0xC2FD#16] = .ok (.bTrue .always 2 (-3)) 1
    ∧ decode [0xD2FD#16] = .ok (.bFalse .always 2 (-3)) 1
    ∧ decode [0xE2FD#16] = .ok (.jal .always (.s 2) (-3)) 1 := by
  and_intros <;> rfl

theorem test_decode_page1a :
    decode [0xF810#16, 0x0259#16] = .ok (.mul .always (.s 2) (.s 5) (.s 9)) 2
    ∧ decode [0xF810#16, 0x1259#16] = .ok (.mulh .always (.s 2) (.s 5) (.s 9)) 2
    ∧ decode [0xF810#16, 0x2259#16] = .ok (.mulhu .always (.s 2) (.s 5) (.s 9)) 2
    ∧ decode [0xF810#16, 0x3259#16] = .ok (.div .always (.s 2) (.s 5) (.s 9)) 2
    ∧ decode [0xF810#16, 0x4259#16] = .ok (.divu .always (.s 2) (.s 5) (.s 9)) 2
    ∧ decode [0xF810#16, 0x5259#16] = .ok (.rem .always (.s 2) (.s 5) (.s 9)) 2
    ∧ decode [0xF810#16, 0x6259#16] = .ok (.remu .always (.s 2) (.s 5) (.s 9)) 2
    ∧ decode [0xF810#16, 0x7259#16] = .ok (.min .always (.s 2) (.s 5) (.s 9)) 2
    ∧ decode [0xF810#16, 0x8259#16] = .ok (.max .always (.s 2) (.s 5) (.s 9)) 2
    ∧ decode [0xF810#16, 0x9259#16] = .ok (.minu .always (.s 2) (.s 5) (.s 9)) 2
    ∧ decode [0xF810#16, 0xA259#16] = .ok (.maxu .always (.s 2) (.s 5) (.s 9)) 2
    ∧ decode [0xF814#16, 0x0259#16] = .ok (.rol .always (.s 2) (.s 5) (.s 9)) 2
    ∧ decode [0xF814#16, 0x1259#16] = .ok (.ror .always (.s 2) (.s 5) (.s 9)) 2
    ∧ decode [0xF814#16, 0x2259#16] = .ok (.clmul .always (.s 2) (.s 5) (.s 9)) 2
    ∧ decode [0xF814#16, 0x3259#16] = .ok (.clmulh .always (.s 2) (.s 5) (.s 9)) 2
    ∧ decode [0xF814#16, 0x4259#16] = .ok (.bext .always (.s 2) (.s 5) (.s 9)) 2 := by
  and_intros <;> rfl

theorem test_decode_page1b :
    decode [0xF814#16, 0x5259#16] = .ok (.bins .always 2 (.s 5) (.s 9)) 2
    ∧ decode [0xF814#16, 0x6025#16] = .ok (.clz .always (.s 2) (.s 5)) 2
    ∧ decode [0xF814#16, 0x6125#16] = .ok (.ctz .always (.s 2) (.s 5)) 2
    ∧ decode [0xF814#16, 0x6225#16] = .ok (.popc .always (.s 2) (.s 5)) 2
    ∧ decode [0xF814#16, 0x6325#16] = .ok (.brev .always (.s 2) (.s 5)) 2
    ∧ decode [0xF814#16, 0x6425#16] = .ok (.bswap .always (.s 2) (.s 5)) 2
    ∧ decode [0xF814#16, 0x6525#16] = .ok (.sextB .always (.s 2) (.s 5)) 2
    ∧ decode [0xF814#16, 0x6625#16] = .ok (.sextH .always (.s 2) (.s 5)) 2
    ∧ decode [0xF814#16, 0x6725#16] = .ok (.sextW .always (.s 2) (.s 5)) 2
    ∧ decode [0xF814#16, 0x6825#16] = .ok (.zextB .always (.s 2) (.s 5)) 2
    ∧ decode [0xF814#16, 0x6925#16] = .ok (.zextH .always (.s 2) (.s 5)) 2
    ∧ decode [0xF814#16, 0x6A25#16] = .ok (.zextW .always (.s 2) (.s 5)) 2
    ∧ decode [0xF814#16, 0x6B20#16] = .ok (.mfp .always (.s 2)) 2
    ∧ decode [0xF814#16, 0x6C20#16] = .ok (.mtp .always (.s 2)) 2
    ∧ decode [0xF818#16, 0x0259#16] = .ok (.fadd .always (.s 2) (.s 5) (.s 9)) 2
    ∧ decode [0xF818#16, 0x1259#16] = .ok (.fsub .always (.s 2) (.s 5) (.s 9)) 2 := by
  and_intros <;> rfl

theorem test_decode_page1c :
    decode [0xF818#16, 0x2259#16] = .ok (.fmul .always (.s 2) (.s 5) (.s 9)) 2
    ∧ decode [0xF818#16, 0x3259#16] = .ok (.fdiv .always (.s 2) (.s 5) (.s 9)) 2
    ∧ decode [0xF818#16, 0x4259#16] = .ok (.fmin .always (.s 2) (.s 5) (.s 9)) 2
    ∧ decode [0xF818#16, 0x5259#16] = .ok (.fmax .always (.s 2) (.s 5) (.s 9)) 2
    ∧ decode [0xF818#16, 0x6259#16] = .ok (.ffma .always 2 (.s 5) (.s 9)) 2
    ∧ decode [0xF818#16, 0xF403#16, 0x7259#16] = .ok (.fcmp .always 2 (.s 5) (.s 9) .un) 3
    ∧ decode [0xF818#16, 0x8025#16] = .ok (.fcvtF32S64 .always (.s 2) (.s 5)) 2
    ∧ decode [0xF818#16, 0x8125#16] = .ok (.fcvtS64F32 .always (.s 2) (.s 5)) 2
    ∧ decode [0xF818#16, 0x8225#16] = .ok (.fcvtF32U64 .always (.s 2) (.s 5)) 2
    ∧ decode [0xF818#16, 0x8325#16] = .ok (.fcvtU64F32 .always (.s 2) (.s 5)) 2
    ∧ decode [0xF818#16, 0x8425#16] = .ok (.fcvtF32Bf16 .always (.s 2) (.s 5)) 2
    ∧ decode [0xF818#16, 0x8525#16] = .ok (.fcvtBf16F32 .always (.s 2) (.s 5)) 2 := by
  and_intros <;> rfl

theorem test_decode_page2a :
    decode [0xF820#16, 0x0259#16] = .ok (.vAdd .always 2 5 9) 2
    ∧ decode [0xF820#16, 0x1259#16] = .ok (.vSub .always 2 5 9) 2
    ∧ decode [0xF820#16, 0x2259#16] = .ok (.vMul .always 2 5 9) 2
    ∧ decode [0xF820#16, 0x3259#16] = .ok (.vFma .always 2 5 9) 2
    ∧ decode [0xF820#16, 0x4259#16] = .ok (.vMin .always 2 5 9) 2
    ∧ decode [0xF820#16, 0x5259#16] = .ok (.vMax .always 2 5 9) 2
    ∧ decode [0xF820#16, 0x6259#16] = .ok (.vAnd .always 2 5 9) 2
    ∧ decode [0xF820#16, 0x7259#16] = .ok (.vOr .always 2 5 9) 2
    ∧ decode [0xF820#16, 0x8259#16] = .ok (.vXor .always 2 5 9) 2
    ∧ decode [0xF820#16, 0x9259#16] = .ok (.vShl .always 2 5 9) 2
    ∧ decode [0xF820#16, 0xA259#16] = .ok (.vShr .always 2 5 9) 2
    ∧ decode [0xF820#16, 0xF403#16, 0xB259#16] = .ok (.vCmp .always 2 5 9 .ltu) 3
    ∧ decode [0xF820#16, 0xC259#16] = .ok (.vSel .always 2 5 9) 2
    ∧ decode [0xF820#16, 0xD259#16] = .ok (.vClmul .always 2 5 9) 2
    ∧ decode [0xF820#16, 0xE025#16] = .ok (.vAbs .always 2 5) 2
    ∧ decode [0xF820#16, 0xE125#16] = .ok (.vNeg .always 2 5) 2 := by
  and_intros <;> rfl

theorem test_decode_page2b :
    decode [0xF820#16, 0xE225#16] = .ok (.vPopc .always 2 5) 2
    ∧ decode [0xF824#16, 0x0259#16] = .ok (.vAddF .always 2 5 9) 2
    ∧ decode [0xF824#16, 0x1259#16] = .ok (.vSubF .always 2 5 9) 2
    ∧ decode [0xF824#16, 0x2259#16] = .ok (.vMulF .always 2 5 9) 2
    ∧ decode [0xF824#16, 0x3259#16] = .ok (.vFmaF .always 2 5 9) 2
    ∧ decode [0xF824#16, 0x4259#16] = .ok (.vMinF .always 2 5 9) 2
    ∧ decode [0xF824#16, 0x5259#16] = .ok (.vMaxF .always 2 5 9) 2
    ∧ decode [0xF824#16, 0xF402#16, 0x6259#16] = .ok (.vCmpF .always 2 5 9 .le) 3
    ∧ decode [0xF824#16, 0x7025#16] = .ok (.vAbsF .always 2 5) 2
    ∧ decode [0xF824#16, 0x7125#16] = .ok (.vNegF .always 2 5) 2
    ∧ decode [0xF824#16, 0x7225#16] = .ok (.vExp2 .always 2 5) 2
    ∧ decode [0xF824#16, 0x7325#16] = .ok (.vLog2 .always 2 5) 2
    ∧ decode [0xF824#16, 0x7425#16] = .ok (.vRcp .always 2 5) 2
    ∧ decode [0xF824#16, 0x7525#16] = .ok (.vRsq .always 2 5) 2
    ∧ decode [0xF824#16, 0x7625#16] = .ok (.vTanh .always 2 5) 2
    ∧ decode [0xF828#16, 0x0041#16] = .ok (.vShape .always 4 1) 2 := by
  and_intros <;> rfl

theorem test_decode_page2c :
    decode [0xF828#16, 0x1259#16] = .ok (.vLd .always 2 5 9) 2
    ∧ decode [0xF828#16, 0x2259#16] = .ok (.vSt .always 2 5 9) 2
    ∧ decode [0xF828#16, 0x3025#16] = .ok (.vBcast .always 2 5) 2
    ∧ decode [0xF828#16, 0x3125#16] = .ok (.vTrn .always 2 5) 2
    ∧ decode [0xF828#16, 0x4259#16] = .ok (.vMovxToScalar .always 2 5 9) 2
    ∧ decode [0xF828#16, 0x5259#16] = .ok (.vMovxToElement .always 2 5 9) 2
    ∧ decode [0xF828#16, 0xF407#16, 0x6325#16] = .ok (.vCvt .always .i8 .f32 2 5) 3
    ∧ decode [0xF828#16, 0x7625#16] = .ok (.vRedr .always .fmin 2 5) 2
    ∧ decode [0xF828#16, 0x8625#16] = .ok (.vRedc .always .fmin 2 5) 2
    ∧ decode [0xF828#16, 0x9625#16] = .ok (.vScan .always .fmin 2 5) 2
    ∧ decode [0xF828#16, 0xA259#16] = .ok (.vPerm .always 2 5 9) 2
    ∧ decode [0xF828#16, 0xF409#16, 0xB259#16] = .ok (.vMaskb .always 2 5 9 9) 3 := by
  and_intros <;> rfl

theorem test_decode_page3a :
    decode [0xF831#16, 0x0025#16] = .ok (.lrw .always .die 2 5) 2
    ∧ decode [0xF831#16, 0x0125#16] = .ok (.sch .always .die 2 5) 2
    ∧ decode [0xF831#16, 0x0205#16] = .ok (.rls .always .die 5) 2
    ∧ decode [0xF83D#16, 0xF404#16, 0x1259#16] = .ok (.amoD .always .acqrel .die .min 2 5 9) 3
    ∧ decode [0xF83D#16, 0xF40A#16, 0x2259#16] = .ok (.amoW .always .acqrel .die .faddF32 2 5 9) 3
    ∧ decode [0xF83D#16, 0xF409#16, 0x3259#16] = .ok (.amoH .always .acqrel .die .faddBf16 2 5 9) 3
    ∧ decode [0xF83D#16, 0x4259#16] = .ok (.casD .always .acqrel .die 2 5 9) 2
    ∧ decode [0xF83D#16, 0x5258#16] = .ok (.casQ .always .acqrel .die 2 5 8) 2
    ∧ decode [0xF839#16, 0xF403#16, 0x6159#16] = .ok (.red .always .release .die .w .xor 5 9) 3
    ∧ decode [0xF831#16, 0x7000#16] = .ok (.fence .always .die) 2
    ∧ decode [0xF831#16, 0x7001#16] = .ok (.fenceS .always .die) 2
    ∧ decode [0xF831#16, 0x7114#16] = .ok (.fenceX .always .die .copy .bank) 2
    ∧ decode [0xF830#16, 0x7220#16] = .ok (.clkmax .always 2) 2
    ∧ decode [0xF830#16, 0x7320#16] = .ok (.rdtck .always 2) 2
    ∧ decode [0xF830#16, 0x7400#16] = .ok (.mwait .always) 2
    ∧ decode [0xF831#16, 0x8025#16] = .ok (.poll .always .die 2 5) 2 := by
  and_intros <;> rfl

theorem test_decode_page3b :
    decode [0xF831#16, 0x8105#16] = .ok (.mon .always .die 5) 2
    ∧ decode [0xF831#16, 0x9025#16] = .ok (.bari .always .die 2 5) 2
    ∧ decode [0xF831#16, 0x9125#16] = .ok (.bara .always .die 2 5) 2
    ∧ decode [0xF831#16, 0x9225#16] = .ok (.barx .always .die 2 5) 2
    ∧ decode [0xF831#16, 0x9325#16] = .ok (.barw .always .die 2 5) 2 := by
  and_intros <;> rfl

theorem test_decode_page4 :
    decode [0xF840#16, 0x0025#16] = .ok (.sdef .always 2 5) 2
    ∧ decode [0xF840#16, 0x0125#16] = .ok (.sbind .always 2 5) 2
    ∧ decode [0xF840#16, 0x0205#16] = .ok (.sgo .always 5) 2
    ∧ decode [0xF840#16, 0x0305#16] = .ok (.srecall .always 5) 2
    ∧ decode [0xF840#16, 0x0425#16] = .ok (.sstat .always 2 5) 2
    ∧ decode [0xF840#16, 0x0505#16] = .ok (.swait .always 5) 2
    ∧ decode [0xF840#16, 0x0605#16] = .ok (.sfree .always 5) 2 := by
  and_intros <;> rfl

theorem test_decode_page5 :
    decode [0xF850#16, 0x0005#16] = .ok (.tseal .always 5) 2
    ∧ decode [0xF850#16, 0x0105#16] = .ok (.tpref .always 5) 2
    ∧ decode [0xF850#16, 0x0225#16] = .ok (.tstat .always 2 5) 2
    ∧ decode [0xF850#16, 0x1259#16] = .ok (.tcopySp .always 2 5 9) 2
    ∧ decode [0xF850#16, 0xF401#16, 0x1259#16] = .ok (.tcopySlot .always 2 5 9) 3
    ∧ decode [0xF850#16, 0xF402#16, 0x1259#16] = .ok (.tcopyWs .always 2 5 9) 3
    ∧ decode [0xF850#16, 0xF403#16, 0x1259#16] = .ok (.tcopyMem .always 2 5 9) 3
    ∧ decode [0xF850#16, 0x2259#16] = .ok (.tcopym .always 2 5 9) 2
    ∧ decode [0xF850#16, 0xF402#16, 0x3259#16] = .ok (.tred .always .max 2 5 9) 3 := by
  and_intros <;> rfl

theorem test_decode_page6 :
    decode [0xF860#16, 0x0259#16] = .ok (.mma .always 2 5 9) 2
    ∧ decode [0xF860#16, 0x1020#16] = .ok (.mclmSlot .always 2) 2
    ∧ decode [0xF860#16, 0x1120#16] = .ok (.mclmAcc .always 2) 2
    ∧ decode [0xF860#16, 0x1220#16] = .ok (.mrelSlot .always 2) 2
    ∧ decode [0xF860#16, 0x1320#16] = .ok (.mrelAcc .always 2) 2
    ∧ decode [0xF860#16, 0x1420#16] = .ok (.mzero .always 2) 2
    ∧ decode [0xF860#16, 0x1520#16] = .ok (.mstat .always 2) 2
    ∧ decode [0xF860#16, 0x2259#16] = .ok (.mfill .always 2 5 9) 2
    ∧ decode [0xF860#16, 0xF401#16, 0x2250#16] = .ok (.mfillV .always 2 5) 3
    ∧ decode [0xF860#16, 0x3025#16] = .ok (.mldw .always 2 5) 2
    ∧ decode [0xF860#16, 0x3125#16] = .ok (.mscl .always 2 5) 2
    ∧ decode [0xF860#16, 0x4259#16] = .ok (.mstc .always 2 5 9) 2
    ∧ decode [0xF860#16, 0xF401#16, 0x4250#16] = .ok (.mstcV .always 2 5) 3 := by
  and_intros <;> rfl

theorem test_decode_page7 :
    decode [0xF870#16, 0x0005#16] = .ok (.mig .always 5) 2
    ∧ decode [0xF870#16, 0xF401#16, 0x0005#16] = .ok (.migBank .always 5) 3
    ∧ decode [0xF870#16, 0x0100#16] = .ok (.mbwait .always) 2
    ∧ decode [0xF870#16, 0x0225#16] = .ok (.mbrecv .always 2 5) 2
    ∧ decode [0xF870#16, 0x0325#16] = .ok (.mbsend .always 2 5) 2
    ∧ decode [0xF870#16, 0x0425#16] = .ok (.qstat .always 2 5) 2
    ∧ decode [0xF870#16, 0x0505#16] = .ok (.bkseq .always 5) 2
    ∧ decode [0xF870#16, 0x0625#16] = .ok (.bkstat .always 2 5) 2
    ∧ decode [0xF870#16, 0x0725#16] = .ok (.drzero .always 2 5) 2
    ∧ decode [0xF870#16, 0x1259#16] = .ok (.amsg .always 2 5 9) 2
    ∧ decode [0xF870#16, 0x2259#16] = .ok (.bkadd .always 2 5 9) 2
    ∧ decode [0xF870#16, 0x3259#16] = .ok (.bkmul .always 2 5 9) 2
    ∧ decode [0xF870#16, 0x4259#16] = .ok (.bkfma .always 2 5 9) 2
    ∧ decode [0xF870#16, 0x5250#16] = .ok (.drcpy .always 2 5) 2 := by
  and_intros <;> rfl

theorem test_decode_page8a :
    decode [0xF880#16, 0x0000#16] = .ok (.retire .always) 2
    ∧ decode [0xF880#16, 0x0100#16] = .ok (.tret) 2
    ∧ decode [0xF880#16, 0x0200#16] = .ok (.gret) 2
    ∧ decode [0xF880#16, 0x0300#16] = .ok (.gsync .always) 2
    ∧ decode [0xF880#16, 0x0410#16] = .ok (.repart .always .m32) 2
    ∧ decode [0xF880#16, 0x0520#16] = .ok (.rdgtc .always 2) 2
    ∧ decode [0xF880#16, 0x0623#16] = .ok (.rdcal .always 2 3) 2
    ∧ decode [0xF880#16, 0x0705#16] = .ok (.slotset .always 5) 2
    ∧ decode [0xF880#16, 0x0805#16] = .ok (.step .always 5) 2
    ∧ decode [0xF880#16, 0x1208#16] = .ok (.mfc .always 2 .vsh) 2
    ∧ decode [0xF880#16, 0x2208#16] = .ok (.mtc .always .vsh 2) 2
    ∧ decode [0xF880#16, 0x30FD#16] = .ok (.trap .always (-3)) 2
    ∧ decode [0xF880#16, 0x400F#16] = .ok (.yield 15) 2
    ∧ decode [0xF880#16, 0x5093#16] = .ok (.gate 0x93) 2
    ∧ decode [0xF880#16, 0x6259#16] = .ok (.launch .always 2 5 9) 2
    ∧ decode [0xF880#16, 0xF401#16, 0x6259#16] = .ok (.launchW .always 2 5 9) 3 := by
  and_intros <;> rfl

theorem test_decode_page8b :
    decode [0xF880#16, 0x7259#16] = .ok (.launchi .always 2 5 9) 2
    ∧ decode [0xF880#16, 0xF401#16, 0x7259#16] = .ok (.launchiW .always 2 5 9) 3
    ∧ decode [0xF880#16, 0x8025#16] = .ok (.clnr .always 2 5) 2
    ∧ decode [0xF880#16, 0x8125#16] = .ok (.invr .always 2 5) 2
    ∧ decode [0xF880#16, 0x8225#16] = .ok (.flsr .always 2 5) 2
    ∧ decode [0xF880#16, 0x8325#16] = .ok (.pref .always 2 5) 2
    ∧ decode [0xF880#16, 0x8425#16] = .ok (.tlbi .always 2 5) 2
    ∧ decode [0xF880#16, 0x8525#16] = .ok (.tlbsd .always 2 5) 2 := by
  and_intros <;> rfl

/-! ### Ill-formed terms are refused: one for each check of WellFormed -/

/-- R46: one queue or stream operand at most. -/
theorem test_wf_two_specials : (Instr.add .always (.q 0) (.z 1) (.s 2)).wf = false ∧ (Instr.mov .always (.q 0) (.q 0)).wf = false := by decide
/-- R40, R41: an immediate needs no more prefixes than the chain has room for. -/
theorem test_wf_immediates :
    (Instr.li .always (.s 0) (2 ^ 37)).wf = false ∧ (Instr.li .always (.s 0) (2 ^ 37 - 1)).wf = true
    ∧ (Instr.ldD .always (.s 0) (.s 1) (2 ^ 29)).wf = false ∧ (Instr.ldD .always (.s 0) (.s 1) (-(2 ^ 29))).wf = true
    ∧ (Instr.li (.when false 3) (.q 0) (2 ^ 27)).wf = false ∧ (Instr.j .always (2 ^ 31)).wf = false ∧ (Instr.trap (.when true 0) (2 ^ 27)).wf = false := by decide
/-- R50: a shift amount is below 64. -/
theorem test_wf_shift : (Instr.shlImm .always 0 64).wf = false ∧ (Instr.sraImm .always 63 63).wf = true := by decide
/-- R95, R53: pairs begin at an even register. -/
theorem test_wf_pairs : (Instr.ldq .always 3 (.s 0) 0).wf = false ∧ (Instr.stq .always 63 (.s 0) 0).wf = false
    ∧ (Instr.casQ .always .relaxed .core 1 0 2).wf = false ∧ (Instr.casQ .always .relaxed .core 0 0 3).wf = false := by decide
/-- R53, R200: the operations of each width, the orders of RED. -/
theorem test_wf_amo : (Instr.amoD .always .relaxed .core .faddF32 0 1 2).wf = false ∧ (Instr.amoW .always .relaxed .core .faddBf16 0 1 2).wf = false
    ∧ (Instr.amoH .always .relaxed .core .add 0 1 2).wf = false ∧ (Instr.red .always .acquire .core .d .add 0 1).wf = false
    ∧ (Instr.red .always .relaxed .core .h .add 0 1).wf = false := by decide
/-- R20, R52, R144: shapes, and pairs of formats. -/
theorem test_wf_vector : (Instr.vShape .always 8 3).wf = false ∧ (Instr.vShape .always 8 2).wf = true ∧ (Instr.vCvt .always .t8 .t8 0 1).wf = false := by decide
/-- An event has no encoding. -/
theorem test_wf_event : (Instr.intervalEnd).wf = false := rfl
/-- R59: words that are no instruction: VSHAPE of a shape R20 forbids, a REX on NOP, a Q outside its list, AMO.H with operation 0, an odd pair. -/
theorem test_illegal_words : decode [0xF828#16, 0x00B0#16] = .illegal 0xF82800B0#64 ∧ decode [0xF401#16, 0xBF00#16] = .illegal 0xF401BF00#64
    ∧ decode [0xF406#16, 0x6245#16] = .illegal 0xF4066245#64 ∧ decode [0xF830#16, 0x3259#16] = .illegal 0xF8303259#64
    ∧ decode [0xF830#16, 0x5358#16] = .illegal 0xF8305358#64 := by
  and_intros <;> rfl

/-! ### A small state for the tests below -/

/-- Scalar registers with the values listed, zero elsewhere. -/
def regs (l : List (Nat × Word)) : Vector Word 64 := l.foldl (fun v x => v.setIfInBounds x.1 x.2) (Vector.replicate 64 0)

/-- A strand of DID 1 in slot 0 of core 0: s0 an address in the scratchpad, s1 one in translated memory, s2 a small number. -/
def tMe : Strand :=
  { Strand.reset with
    key := 1
    sid := 1
    gid := 1
    did := 1
    pc := 0x1000
    seat := .slot 0
    ydl := 64
    s := regs [(0, 0xFFFFFFFFFFFC0040), (1, 0x2000), (2, 5), (4, 0x8000000000000000), (5, 0xFFFFFFFFFFFFFFFF)] }

/-- Core 0 with every unit granted to DID 1. -/
def tCore : CoreSt :=
  { CoreSt.reset with
    slotown := 1 :: 1 :: List.replicate 30 0x1F
    curown := 1 :: 1 :: List.replicate 30 0x1F
    doms := [(1, ⟨0xFF, 0xFF, 0xFFFF, 0xFFFF, 0xFFFF, 0, 0, 8, 4, 0⟩)] }

/-- The state: outside every maintenance slot, 2 MiB of memory for DID 1, and the translations of pages 1 to 5, page 3 having its home at core 0. -/
def tSt : State :=
  { State.reset with
    me := tMe
    live := true
    nextPc := 0x1002
    words := 0xABCD
    gtc := 40000
    calMark := 40000
    cores := [(0, tCore)]
    doms := [(1, { PkgDom.reset with ranges := [(0, 1), (0, 0), (0, 0), (0, 0)], tvec := 0x8000, pstate := 1, pls := 4 })]
    tlb := [⟨0, 1, 0, 0x1000, 4096, 0x1000, 0x1D⟩, ⟨0, 1, 0, 0x2000, 4096, 0x2000, 0x0D⟩, ⟨0, 1, 0, 0x3000, 4096, 0x10000, 0x0D⟩, ⟨0, 1, 0, 0x4000, 4096, 0x4000, 0x0D⟩,
      ⟨0, 1, 0, 0x5000, 4096, 0x104000, 0x0D⟩] }

/-- The state with its strand changed. -/
def tMod (f : Strand → Strand) : State := { tSt with me := f tSt.me }

/-- The state with other register values. -/
def tRegs (l : List (Nat × Word)) : State := tMod (fun m => { m with s := regs l })

/-- Nothing keeps an instruction of this issue, with no token and no FENCE.X to meet. -/
def clear (x : Issue) (s : State) : Bool :=
  !s.boot.recovery && (x.rd ++ x.wr).all (fun r => decide (r < modeS (modeOfStrand s s.me)))
    && x.vregs.all (fun r => decide (r < modeV (modeOfStrand s s.me))) && s.me.pend.isEmpty && s.me.vpend.isEmpty && s.me.fencex.isEmpty && s.me.tc.isEmpty
    && guardOk s x.g && (s.me.seat != .handler || x.handler) && (!onBank s || x.bank == .run) && (!onBank s || s.me.ydl != 0)

theorem mergeTokens_nil {s : State} (h : s.me.tc = []) (rd : List Nat) : mergeTokens s rd = s := by
  unfold mergeTokens
  induction rd with
  | nil => rfl
  | cons r rd ih => simp [h, kget?] at ih ⊢; exact ih

theorem issues_of {x : Issue} {s : State} (h : clear x s = true) : Issues x s s := by
  simp only [clear, Bool.and_eq_true, Bool.or_eq_true, Bool.not_eq_true', List.isEmpty_iff, bne_iff_ne, beq_iff_eq] at h
  obtain ⟨⟨⟨⟨⟨⟨⟨⟨⟨⟨hr, hn⟩, hv⟩, hp⟩, hw⟩, hf⟩, ht⟩, hg⟩, hh⟩, hb⟩, hy⟩ := h
  refine ⟨hr, hn, hv, ?_, ?_, hg, fun e => hh.resolve_left (fun k => k e), fun e => hb.resolve_left (by simp [e]), ?_, fun e => hy.resolve_left (by simp [e])⟩
  · simp [hp]
  · simp [hw]
  · simp [meetFences, hf, mergeTokens_nil ht]

theorem op3_ready {s : State} {a b c : SReg} {x y : Word} (h : clear (opIssue .always [.s b, .s c] [.s a] [] []) s = true)
    (hx : s.me.s.getD b.val 0 = x) (hy : s.me.s.getD c.val 0 = y) : Op3Ready .always (.s a) (.s b) (.s c) s s x y :=
  ⟨s, s, issues_of h, hx ▸ .reg b, hy ▸ .reg c, .reg a⟩
theorem op2_ready {s : State} {a b : SReg} {x : Word} (h : clear (opIssue .always [.s b] [.s a] [] []) s = true)
    (hx : s.me.s.getD b.val 0 = x) : Op2Ready .always (.s a) (.s b) s s x := ⟨s, issues_of h, hx ▸ .reg b, .reg a⟩
theorem cmp2_ready {s : State} {b c : SReg} {x y : Word} (h : clear (opIssue .always [.s b, .s c] [] [] []) s = true)
    (hx : s.me.s.getD b.val 0 = x) (hy : s.me.s.getD c.val 0 = y) : Cmp2Ready .always (.s b) (.s c) s s x y :=
  ⟨s, s, issues_of h, hx ▸ .reg b, hy ▸ .reg c⟩
theorem cmp1_ready {s : State} {b : SReg} {x : Word} (h : clear (opIssue .always [.s b] [] [] []) s = true)
    (hx : s.me.s.getD b.val 0 = x) : Cmp1Ready .always (.s b) s s x := ⟨s, issues_of h, hx ▸ .reg b⟩
theorem load_ready {s : State} {a b : SReg} {x : Word} (h : clear (memIssue (onBank s) .always [.s b] [.s a] [] []) s = true)
    (hx : s.me.s.getD b.val 0 = x) : LoadReady .always (.s a) (.s b) s s s x := ⟨issues_of h, hx ▸ .reg b, .reg a⟩
theorem store_ready {s : State} {a b : SReg} {y x : Word} (h : clear (memIssue (onBank s) .always [.s a, .s b] [] [] []) s = true)
    (hy : s.me.s.getD a.val 0 = y) (hx : s.me.s.getD b.val 0 = x) : StoreReady .always (.s a) (.s b) s s y x :=
  ⟨s, s, issues_of h, hy ▸ .reg a, hx ▸ .reg b⟩

/-! ### States that meet the hypotheses of the statements: scalar instructions -/

/-- IntegerForms, FloatForms: two operands; a divisor of zero; −2^63 by −1. -/
theorem test_ready3 : Op3Ready .always (.s 3) (.s 2) (.s 5) tSt tSt 5 0xFFFFFFFFFFFFFFFF := op3_ready rfl rfl rfl
theorem test_ready_div_zero : Op3Ready .always (.s 3) (.s 2) (.s 6) tSt tSt 5 0 := op3_ready rfl rfl rfl
theorem test_ready_div_min : Op3Ready .always (.s 3) (.s 4) (.s 5) tSt tSt 0x8000000000000000 0xFFFFFFFFFFFFFFFF := op3_ready rfl rfl rfl

/-- Every form of operand (R46, R196, R312 to R316): a queue's head and a queue with room; the head of a stream's window and a stream with an element left. -/
def tQ : State := { tSt with
  cores := [(0, { tCore with
  queues := (Vector.replicate 8 []).setIfInBounds 0 [(7, 3)]
  ctxs := [(0, { Ctx.reset with
      state := 2
      did := 1
      okey := 1
      srec := { StreamRec.zero with base := 0x2000, esz := 3, rank := 1, counts := [4], strides := [8] }
      window := [(9, 11, 0x2000)] }),
    (1, { Ctx.reset with
      state := 2
      did := 1
      okey := 1
      srec := { StreamRec.zero with base := 0x2000, esz := 3, rank := 1, counts := [4], strides := [8], write := true } })] })]
  me := { tMe with z := ((Vector.replicate 8 none).setIfInBounds 0 (some 0)).setIfInBounds 1 (some 1) } }

theorem test_reads_queue : ∃ t, Reads tQ (.q 0) 7 t := ⟨_, .queue 0 7 3 [] ⟨rfl, rfl, rfl⟩⟩
theorem test_reads_stream : ∃ t, Reads tQ (.z 0) 9 t := ⟨_, .stream 0 0 9 11 0x2000 [] rfl rfl (by decide) rfl (by decide)⟩
theorem test_accepts_queue : Accepts tQ (.q 1) := .queue 1 rfl rfl (by decide)
theorem test_accepts_stream : Accepts tQ (.z 1) := .stream 1 1 0x2000 rfl rfl (by decide) rfl rfl (by decide)
/-- Three-operand forms with a queue or a stream as an operand issue too. -/
theorem test_ready3_queue : ∃ u, Op3Ready .always (.s 3) (.q 0) (.s 2) tQ u 7 5 :=
  ⟨_, tQ, _, issues_of rfl, .queue 0 7 3 [] ⟨rfl, rfl, rfl⟩, Reads.reg (s := raiseClock _ 3) 2, .reg 3⟩
theorem test_ready2_stream : ∃ u, Op2Ready .always (.s 3) (.z 0) tQ u 9 :=
  ⟨_, tQ, issues_of rfl, .stream 0 0 9 11 0x2000 [] rfl rfl (by decide) rfl (by decide), .reg 3⟩

/-- BitForms, MovesAndShifts, Conversions. -/
theorem test_ready2 : Op2Ready .always (.s 3) (.s 2) tSt tSt 5 := op2_ready rfl rfl
theorem test_ready1 : Op1Ready .always (.s 3) tSt tSt := ⟨issues_of rfl, .reg 3⟩
theorem test_rmw2 : Rmw2Ready .always 3 (.s 2) tSt tSt 5 := ⟨tSt, issues_of rfl, .reg 2⟩
theorem test_rmw3 : Rmw3Ready .always 3 (.s 2) (.s 4) tSt tSt 5 0x8000000000000000 := ⟨tSt, tSt, issues_of rfl, .reg 2, .reg 4⟩
theorem test_issues_scalar : Issues (scalar .always [3] [3]) tSt tSt ∧ Issues (scalar (.when false 31) [] []) tSt tSt := ⟨issues_of rfl, issues_of rfl⟩

/-- FloatForms: RND.SAT set, 1.0 by +0; NaN and zeros of both signs for FMIN and FMAX. -/
def tF : State := tMod (fun m => { m with
  rnd := 8
  s := regs [(1, 0x3F800000), (3, 0x7FC00000), (4, 0x80000000)] })
theorem test_float_saturate : Op3Ready .always (.s 2) (.s 1) (.s 0) tF tF 0x3F800000 0 ∧ tF.me.rnd.getLsbD 3 = true
    ∧ decodeNum .f32 (0x3F800000 % 2 ^ 32) = .fin false (2 ^ 149) (2 ^ 149) ∧ decodeNum .f32 0 = .fin false 0 (2 ^ 149) :=
  ⟨op3_ready rfl rfl rfl, rfl, by decide, by decide⟩
theorem test_float_nan : Op3Ready .always (.s 2) (.s 3) (.s 1) tF tF 0x7FC00000 0x3F800000 ∧ isNan (decodeNum .f32 0x7FC00000) = true
    ∧ isNan (decodeNum .f32 0x3F800000) = false := ⟨op3_ready rfl rfl rfl, rfl, rfl⟩
theorem test_float_zeros : Op3Ready .always (.s 2) (.s 4) (.s 0) tF tF 0x80000000 0 ∧ Op3Ready .always (.s 2) (.s 0) (.s 4) tF tF 0 0x80000000
    ∧ ltNum (decodeNum .f32 0) (decodeNum .f32 0x3F800000) = true := ⟨op3_ready rfl rfl rfl, op3_ready rfl rfl rfl, rfl⟩
/-- Predicates, ControlFlow: compares; a jump to an even address, and to an odd one (MisalignedTraps). -/
theorem test_cmp : Cmp2Ready .always (.s 2) (.s 4) tSt tSt 5 0x8000000000000000 ∧ Cmp1Ready .always (.s 2) tSt tSt 5 := ⟨cmp2_ready rfl rfl rfl, cmp1_ready rfl rfl⟩
theorem test_jr : Cmp1Ready .always (.s 1) tSt tSt 0x2000 ∧ (0x2000#64).getLsbD 0 = false ∧ Cmp1Ready .always (.s 2) tSt tSt 5 ∧ (5#64).getLsbD 0 = true :=
  ⟨cmp1_ready rfl rfl, rfl, cmp1_ready rfl rfl, rfl⟩
/-- Rounding: 1 in BF16 and FP32; a value between two codes. -/
theorem test_rounding : (∃ neg n d, decodeNum .bf16 0x3F80 = .fin neg n d) ∧ 0x3F80 < 2 ^ (magW .bf16 + 1)
    ∧ (1 * 2 ^ unitExp .bf16 < magUnits .bf16 (maxCode .bf16 + 1) * 3 ∧ 0 < 3) := ⟨⟨false, _, _, rfl⟩, by decide, by decide⟩
/-- A tie, a value between two codes, one above Max, zero, and a magnitude that is no zero and within Max. -/
theorem test_rounding_ties : 2 * (1 * 2 ^ unitExp .e2m1) = (magUnits .e2m1 0 + magUnits .e2m1 1) * 4 ∧ magUnits .e2m1 0 * 4 < 1 * 2 ^ unitExp .e2m1 ∧ maxCode .e2m1 < roundMag .e2m1 0 false 100 1
    ∧ roundMag .e2m1 0 false 0 1 = 0 ∧ 0 < roundMag .e2m1 0 false 1 1 ∧ roundMag .e2m1 0 false 1 1 ≤ maxCode .e2m1 ∧ maxCode .e5m3 < roundMag .e5m3 0 false (2 ^ 40) 1 := by decide

/-! ### Loads and stores -/

/-- The scratchpad of the core, and translated memory. -/
theorem test_in_scratchpad : InScratchpad tSt 0xFFFFFFFFFFFC0040 16 0x40 ∧ InScratchpad tSt 0xFFFFFFFFFFFFFFF0 16 0x3FFF0 := by
  constructor <;> (refine ⟨rfl, by decide, rfl, rfl, rfl, rfl⟩)
theorem test_in_memory : InMemory tSt 0x2000 16 .both 0x2000 := ⟨rfl, by decide, rfl, by decide, rfl⟩
/-- LoadsFromScratchpad, Stores: a base in the scratchpad, without poison. -/
theorem test_load_scratchpad : LoadReady .always (.s 3) (.s 0) tSt tSt tSt 0xFFFFFFFFFFFC0040 ∧ StoreReady .always (.s 2) (.s 0) tSt tSt 5 0xFFFFFFFFFFFC0040
    ∧ poisonedAt tSt (spadKey 0 0x40) 16 = false ∧ memOk tSt := ⟨load_ready rfl rfl, store_ready rfl rfl rfl, rfl, rfl⟩
theorem test_pair_issue : Issues (memIssue false .always [.s 0] [] [] [2, 3]) tSt tSt ∧ Issues (memIssue false .always [.s 0] [] [2, 3] []) tSt tSt
    ∧ Reads tSt (.s 0) 0xFFFFFFFFFFFC0040 tSt := ⟨issues_of rfl, issues_of rfl, .reg 0⟩
/-- LoadsFromMemory: a leased copy that covers the clock, and none. -/
def tL1 : State := { tSt with cores := [(0, { tCore with l1 := [⟨1, 0x80, 2, 9, List.replicate 64 1⟩] })] }
theorem test_load_leased : LoadReady .always (.s 3) (.s 1) tL1 tL1 tL1 0x2000 ∧ InMemory tL1 (0x2000 + BitVec.ofInt 64 0) 8 .read 0x2000
    ∧ (l1Find (tlbKeep tL1 0 1 0x2000) 0 1 (0x2000 / 64)).any (fun cp => decide (tL1.me.tck ≤ cp.rts)) = true ∧ onBank tL1 = false :=
  ⟨load_ready rfl rfl, ⟨rfl, by decide, rfl, by decide, rfl⟩, rfl, rfl⟩
/-- Neither path is held back by a FENCE.X: an access of the package's memory begins no other work (R276). -/
theorem test_path_begun : pathBegun tSt (.mem 0x2000) = some tSt ∧ pathBegun tL1 (.mem 0x2000) = some tL1 ∧ tSt.live = true := ⟨rfl, rfl, rfl⟩
theorem test_load_miss : LoadReady .always (.s 3) (.s 1) tSt tSt tSt 0x2000 ∧ InMemory tSt (0x2000 + BitVec.ofInt 64 0) 8 .read 0x2000
    ∧ l1Find (tlbKeep tSt 0 1 0x2000) 0 1 (0x2000 / 64) = none := ⟨load_ready rfl rfl, ⟨rfl, by decide, rfl, by decide, rfl⟩, rfl⟩
/-- The data of an outstanding load. -/
def tLoad : State := tMod (fun m => { m with
  wait := .load
  load := some ⟨0x2008, 0x2008, 8, false, .reg 3, 0x1002, 0, false, none, 7⟩ })
theorem test_load_arrives : tLoad.boot.recovery = false ∧ tLoad.live = true ∧ tLoad.me.load = some ⟨0x2008, 0x2008, 8, false, .reg 3, 0x1002, 0, false, none, 7⟩
    ∧ isFar 0x2008 = false ∧ homeReady tLoad (0x2008 / 64) = true ∧ poisonedAt tLoad 0x2008 8 = false := by decide
/-- Stores to memory; StoresPerform: a store on its way, performed, and acknowledged. -/
theorem test_store_memory : StoreReady .always (.s 2) (.s 1) tSt tSt 5 0x2000 ∧ InMemory tSt (0x2000 + BitVec.ofInt 64 0) 8 .write 0x2000
    ∧ heldFull (tlbKeep tSt 0 1 0x2000) (heldBy (tlbKeep tSt 0 1 0x2000) 0x2000 8) = false := ⟨store_ready rfl rfl rfl, ⟨rfl, by decide, rfl, by decide, rfl⟩, rfl⟩
/-- A posted write of eight bytes at 0x2000. -/
def tP (op : PostOp) (n : Nat) (done : Option Nat) : Posted := ⟨7, op, 0x2000, n, 5, 3, 0, 0, 1, false, [], done, false, []⟩
def tPost (op : PostOp) (n : Nat) (done : Option Nat) : State := tMod (fun m => { m with posted := [tP op n done] })
theorem test_store_performs : (tPost .store 8 none).me.posted.find? (fun q => q.id == 7) = some (tP .store 8 none)
    ∧ postReady (tPost .store 8 none) (tPost .store 8 none).me (tP .store 8 none) = true ∧ (homeLine (tPost .store 8 none) 0x80).length = 64
    ∧ memOk (tPost .store 8 none) ∧ (tPost .store 8 none).boot.recovery = false := by
  refine ⟨by decide, by decide, by decide, rfl, rfl⟩
theorem test_store_acknowledged : (tPost .store 8 (some 4)).me.posted.find? (fun q => q.id == 7) = some (tP .store 8 (some 4)) := by decide
/-- MisalignedTraps: an odd address in memory, and a window of DID 0. -/
theorem test_misaligned : LoadReady .always (.s 3) (.s 1) tSt tSt tSt 0x2000 ∧ (0x2000 + BitVec.ofInt 64 1 : Word).toNat % 2 ≠ 0
    ∧ privAccess tSt (0x2000 + BitVec.ofInt 64 1) = false ∧ onBank tSt = false := ⟨load_ready rfl rfl, by decide, rfl, rfl⟩
theorem test_priv_window : LoadReady .always (.s 3) (.s 1) (tRegs [(1, 0xFF00000400000000)]) (tRegs [(1, 0xFF00000400000000)]) (tRegs [(1, 0xFF00000400000000)]) 0xFF00000400000000
    ∧ privAccess (tRegs [(1, 0xFF00000400000000)]) (0xFF00000400000000 + BitVec.ofInt 64 1) = true := ⟨load_ready rfl rfl, rfl⟩

/-! ### Vector instructions -/

theorem test_issues_vector : Issues (vecIssue .always [] [] [1, 2, 3]) tSt tSt ∧ Issues (vecIssue .always [2] [3] [1]) tSt tSt
    ∧ Issues ({ vecIssue .always [0, 2] [] [1] with begins := [.core] }) tSt tSt := ⟨issues_of rfl, issues_of rfl, issues_of rfl⟩
/-- VectorFloats, VectorSpecials, VectorStructure: the four element sizes; an element 0 and a NaN. -/
def tVsh (n : Nat) : State := tMod (fun m => { m with vsh := BitVec.ofNat 64 n })
theorem test_float_shape : FloatShape (tVsh 0x31) .bf16 ∧ FloatShape (tVsh 0x32) .f32 ∧ (tVsh 0x30).me.vsh.toNat % 4 = 0 ∧ (tVsh 0x33).me.vsh.toNat % 4 = 3 :=
  ⟨.inl ⟨rfl, rfl⟩, .inr ⟨rfl, rfl⟩, rfl, rfl⟩
theorem test_issues_shapes : Issues (vecIssue .always [] [] [1, 2]) (tVsh 0x31) (tVsh 0x31) ∧ Issues (vecIssue .always [] [] [1, 2, 3]) (tVsh 0x33) (tVsh 0x33)
    ∧ 0 < rowsOf (tVsh 0x33) * colsOf (tVsh 0x33) ∧ rowsOf (tVsh 0x33) * colsOf (tVsh 0x33) ≤ 1024 / esOf (tVsh 0x33) := ⟨issues_of rfl, issues_of rfl, by decide, by decide⟩
theorem test_special_elements : (elemBits 4 (tSt.me.v.getD 2 0) 255).toNat = 0 ∧ isNan (decodeNum .f32 0x7FC00000) = true
    ∧ (elemBits 4 ((0x7FC00000#8192 : VWord)) 0).toNat = 0x7FC00000 := by decide
/-- VectorSpecials: 0, 1 and −1 for VEXP2, 2.0, 0.5, 1.0 and −1 for VLOG2, VRCP and VRSQ, −0 for VTANH. -/
theorem test_special_values : decodeNum .f32 0 = .fin false (0 * 2 ^ 149) (2 ^ 149) ∧ decodeNum .f32 0x3F800000 = .fin false (1 * 2 ^ 149) (2 ^ 149)
    ∧ decodeNum .f32 0xBF800000 = .fin true (1 * 2 ^ 149) (2 ^ 149) ∧ decodeNum .f32 0x40000000 = .fin false (2 ^ 1 * 2 ^ 149) (2 ^ 149)
    ∧ decodeNum .f32 0x3F000000 = .fin false (2 ^ 148) (2 ^ 149) ∧ 2 ^ (0 + 1) * 2 ^ 148 = 2 ^ 149 ∧ decodeNum .f32 0x80000000 = .fin true 0 (2 ^ 149) := by decide
/-- VectorReductions: integer and floating operations. -/
theorem test_reductions : (∃ f, redOpOf tSt .xor = some f ∧ (∀ x y, x < 2 ^ 32 → y < 2 ^ 32 → f x y < 2 ^ 32)) ∧ (∃ f, redOpOf tSt .fadd = some f)
    ∧ tSt.me.vsh.toNat / 16 % 16 + tSt.me.vsh.toNat % 4 ≤ 10 := ⟨⟨_, rfl, fun _ _ => Nat.xor_lt_two_pow⟩, ⟨_, rfl⟩, by decide⟩
/-- VectorMemory: 8 rows of 16 doublewords, 128 bytes apart. -/
def tBox : State := tMod (fun m => { m with
  vsh := 0x33
  s := regs [(0, 0xFFFFFFFFFFFC0040), (2, 128)] })
theorem test_box_inside : ∀ k < rowsOf tBox * colsOf tBox, InScratchpad tBox (elemVa tBox (tBox.me.s.getD 0 0) (tBox.me.s.getD 2 0) k) (esOf tBox)
    ((elemVa tBox (tBox.me.s.getD 0 0) (tBox.me.s.getD 2 0) k).toNat % 2 ^ 18) := by
  unfold InScratchpad; decide
theorem test_box_good : ∀ k < rowsOf tBox * colsOf tBox,
    poisonedAt tBox (spadKey 0 ((elemVa tBox (tBox.me.s.getD 0 0) (tBox.me.s.getD 2 0) k).toNat % 2 ^ 18)) (esOf tBox) = false := by decide

/-! ### Atomic steps, reservations, barriers, monitors, fences and clocks -/

theorem test_issues_sync : Issues (syncIssue .always [1, 2] [3] true [.core]) tSt tSt ∧ Issues (syncIssue .always [2, 1, 4] [2] true [.core]) tSt tSt
    ∧ Issues (syncIssue .always [2, 3, 1, 4, 5] [2, 3] true [.core]) tSt tSt ∧ Issues (syncIssue .always [1] [3] false [.core]) tSt tSt
    ∧ Issues (syncIssue .always [] [] false []) tSt tSt ∧ Issues (syncIssue .always [2] [] true []) tSt tSt ∧ Issues (syncIssue .always [1] [] true [.core]) tSt tSt :=
  ⟨issues_of rfl, issues_of rfl, issues_of rfl, issues_of rfl, issues_of rfl, issues_of rfl, issues_of rfl⟩
/-- AtomicSteps, BarriersAndMonitors: a step of each size with and without release. -/
theorem test_step_at : StepAt tSt tSt 0x2000 16 .both true .pkg 0x2000 ∧ StepAt tSt tSt 0x2000 2 .both false .core 0x2000
    ∧ StepAt tSt tSt 0x2000 32 .both true .pkg 0x2000 := by
  refine ⟨⟨⟨rfl, by decide, rfl, by decide, rfl⟩, by decide, by decide, ⟨fun _ => rfl, rfl⟩, by decide, rfl, by decide, rfl⟩,
    ⟨⟨rfl, by decide, rfl, by decide, rfl⟩, by decide, by decide, ⟨fun _ => rfl, rfl⟩, by decide, rfl, by decide, rfl⟩,
    ⟨⟨rfl, by decide, rfl, by decide, rfl⟩, by decide, by decide, ⟨fun _ => rfl, rfl⟩, by decide, rfl, by decide, rfl⟩⟩
/-- A CAS that matches, and one that does not. -/
theorem test_cas_values : homeVal tSt 0x2000 8 = (tSt.me.s.getD 6 0).toNat ∧ homeVal tSt 0x2000 8 ≠ (tSt.me.s.getD 2 0).toNat
    ∧ homeVal tSt 0x2000 16 = pairVal tSt 6 ∧ homeVal tSt 0x2000 16 ≠ pairVal tSt 2 := by decide
/-- AtomicsInScratchpad. -/
theorem test_amo_scratchpad : InScratchpad tSt 0xFFFFFFFFFFFC0040 8 0x40 ∧ Released tSt tSt true .pkg ∧ poisonedAt tSt (spadKey 0 0x40) 8 = false :=
  ⟨⟨rfl, by decide, rfl, rfl, rfl, rfl⟩, ⟨fun _ => rfl, rfl⟩, rfl⟩
/-- PostedSteps: the addresses, and each posted step on its way. -/
theorem test_posted_places : InMemory tSt 0x2000 8 .write 0x2000 ∧ InMemory tSt 0x2000 32 .write 0x2000 := ⟨⟨rfl, by decide, rfl, by decide, rfl⟩, ⟨rfl, by decide, rfl, by decide, rfl⟩⟩
theorem test_posted_perform : ∀ p ∈ [tP (.red .add) 8 none, tP .bari 32 none, tP .barx 32 none], (tPost p.op p.n none).me.posted.find? (fun q => q.id == p.id) = some p
    ∧ postReady (tPost p.op p.n none) (tPost p.op p.n none).me p = true ∧ p.key < 2 ^ 40 ∧ p.far = false ∧ p.key % 64 + p.n ≤ 64 := by decide
/-- Reservations: free, held by another, held by the strand, waited for, granted. -/
def tRsv (r : Option (Nat × Nat)) (q : KMap Resv) : State := { tMod (fun m => { m with rsv := r }) with resv := q }
theorem test_reservation_places : InMemory (tRsv none []) 0x2000 8 .both 0x2000 ∧ stepReady (tRsv none []) 0x2000 = true ∧ poisonedAt (tRsv none []) 0x2000 8 = false
    ∧ kget? (tRsv none [(0x2000, ⟨some 9, [], none⟩)]).resv 0x2000 = some ⟨some 9, [], none⟩ ∧ 9 ≠ (tRsv none []).me.key := by
  refine ⟨⟨rfl, by decide, rfl, by decide, rfl⟩, by decide, by decide, rfl, by decide⟩
theorem test_reservation_held : (tRsv (some (0x2000, 0)) []).me.rsv = some (0x2000, 0) ∧ acked (tRsv (some (0x2000, 0)) []) .pkg = true
    ∧ kget? (tRsv (some (0x2000, 0)) []).resv 0x2000 = none
    ∧ kget? (tRsv (some (0x2000, 0)) [(0x2000, ⟨some 1, [], none⟩)]).resv 0x2000 = some ⟨some (tRsv none []).me.key, [], none⟩ := ⟨rfl, rfl, rfl, rfl⟩
/-- SCH and RLS by the holder with a strand that waits. -/
theorem test_reservation_waiters : let s := tRsv (some (0x2000, 0)) [(0x2000, ⟨some 1, [(9, 2)], none⟩)]
    kget? s.resv 0x2000 = some ⟨some s.me.key, (9, 2) :: [], none⟩ ∧ s.me.rsv = some (0x2000, 0) ∧ stepReady s 0x2000 = true ∧ (homeLine s 0x80).length = 64 ∧ acked s .sys = true := by decide
theorem test_reservation_granted : let s := { tMod (fun m => { m with wait := .lrw, wkey := 0x2000, wreg := 3 }) with resv := [(0x2000, ⟨some 1, [(9, 2)], some (5, 7)⟩)] }
    s.me.wait = .lrw ∧ s.me.seat ≠ .none ∧ s.me.dead = false ∧ kget? s.resv 0x2000 = some ⟨some s.me.key, [(9, 2)], some (5, 7)⟩ ∧ poisonedAt s 0x2000 8 = false := by decide
theorem test_reservation_passed : kget? (tRsv none [(0x2000, ⟨some 1, [(9, 2)], none⟩)]).resv 0x2000 = some ⟨some 1, [(9, 2)], none⟩ := rfl
/-- A reservation that is passed on in an interval, whose line is in no slice, and one beyond the package. -/
theorem test_reservation_stalls : let s := { tRsv none [(0x2000, ⟨some 1, [(9, 2)], none⟩)] with gtc := 2 ^ 22 + 5000 }
    isFar 0x2000 = false ∧ homeReady s (0x2000 / 64) = false ∧ homeReady tSt (0x2000 / 64) = true ∧ isFar (2 ^ 53) = true := by decide
/-- BarriersAndMonitors: the memory holds zeros, so phase 0 has not completed and phase 2^32 − 1 has. -/
def tBar (w : Wait) (old wt : Nat) (mon : Option (Nat × Nat)) (t : Nat) : State :=
  { tMod (fun m => { m with
      s := regs [(1, 0x2000), (2, 0xFFFFFFFF)]
      wait := w
      wkey := 0x2000
      wva := 0x2000
      wval := old
      wn := wt
      mon := mon
      monN := (mon.map Prod.snd).getD 0 }) with lines := [(0x80, ⟨t, t, t⟩)] }
theorem test_barw : (let d (a : Nat) := (bits (homeVal (tBar .none 0 0 none 3) 0x2000 32) 63 32 + 2 ^ 32 - ((tBar .none 0 0 none 3).me.s.getD a 0).toNat % 2 ^ 32) % 2 ^ 32
    (1 ≤ d 2 ∧ d 2 < 2 ^ 31) ∧ ¬ (1 ≤ d 3 ∧ d 3 < 2 ^ 31)) ∧ InMemory (tBar .none 0 0 none 3) 0x2000 32 .read 0x2000 ∧ stepReady (tBar .none 0 0 none 3) 0x2000 = true := by
  refine ⟨by decide, ⟨rfl, by decide, rfl, by decide, rfl⟩, by decide⟩
theorem test_barw_wakes : let s := tBar .barw 0xFFFFFFFF 2 none 3
    Waits s .barw ∧ InMemory s (BitVec.ofNat 64 s.me.wva) 32 .read 0x2000 ∧ s.me.wva < 2 ^ 64 ∧ (timesOf s (s.me.wkey / 64)).n ≠ s.me.wn ∧ stepReady s 0x2000 = true
      ∧ phaseDone (homeVal s 0x2000 32) s.me.wval = true ∧ phaseDone (homeVal s 0x2000 32) 0 = false :=
  ⟨⟨rfl, rfl, by decide, rfl, rfl⟩, ⟨rfl, by decide, rfl, by decide, rfl⟩, by decide, by decide, by decide, by decide, by decide⟩
/-- The object's page has gone since (R249). -/
theorem test_barw_fails : let s := { tBar .barw 0 2 none 3 with tlb := [] }
    stalls s (BitVec.ofNat 64 s.me.wva) = false ∧ (stepPlace s (BitVec.ofNat 64 s.me.wva) 32 .read false).toBool = false := by decide
theorem test_poll_mon : InMemory tSt 0x2000 8 .read 0x2000 ∧ InMemory tSt 0x2000 64 .read 0x2000 := ⟨⟨rfl, by decide, rfl, by decide, rfl⟩, ⟨rfl, by decide, rfl, by decide, rfl⟩⟩
theorem test_mwait : (tBar .none 0 0 (some (0x80, 2)) 3).me.mon = some (0x80, 2) ∧ (timesOf (tBar .none 0 0 (some (0x80, 2)) 3) 0x80).n ≠ (tBar .none 0 0 (some (0x80, 2)) 3).me.monN
    ∧ (timesOf (tBar .none 0 0 (some (0x80, 3)) 3) 0x80).n = (tBar .none 0 0 (some (0x80, 3)) 3).me.monN ∧ (tBar .mwait 0 0 (some (0x80, 2)) 3).me.wait = .mwait
    ∧ Issues (syncIssue .always [] [] false []) (tBar .none 0 0 (some (0x80, 2)) 3) (tBar .none 0 0 (some (0x80, 2)) 3) := ⟨rfl, by decide, by decide, rfl, issues_of rfl⟩
/-- FencesAndClocks: with nothing on its way, and with a store on its way. -/
theorem test_fences : acked tSt .core = true ∧ acked (tPost .store 8 none) .core = false
    ∧ Issues (syncIssue .always [] [] true []) (tPost .store 8 none) (tPost .store 8 none) := ⟨rfl, rfl, issues_of rfl⟩

/-- The value of a result, or `d`. -/
def okGet {α β : Type} (d : β) : Except α β → β
  | .ok x => x
  | .error _ => d
theorem ok_of {α β : Type} {r : Except α β} (d : β) (h : r.toBool = true) : r = .ok (okGet d r) := by
  cases r with
  | ok x => rfl
  | error e => exact absurd h (by simp [Except.toBool])

/-! ### Streams -/

/-- A stream record in memory form: a read stream of four doublewords at 0x2000, summed. -/
def tRec : Nat := 0x2000 + (3 + 1 * 2 ^ 4 + 1 * 2 ^ 8 + 1 * 2 ^ 16) * 2 ^ 64 + (4 + 8 * 2 ^ 32) * 2 ^ 192
/-- The state with bytes at a place, with contexts, and with other registers. -/
def tMem (l : List (Nat × List Byte)) (r : List (Nat × Word)) : State := { tRegs r with mem := l.foldl (fun m x => memPut m x.1 x.2) [] }
def tCtx (x : Ctx) (r : List (Nat × Word)) (f : Strand → Strand) : State := { tMod (fun m => f { m with s := regs r }) with cores := [(0, { tCore with ctxs := [(0, x)] })] }
/-- Context 0 of the core, of DID 1, with serial number 1: its handle is 2^63 + 2^18. -/
def tX (state : Nat) : Ctx := { Ctx.reset with
  state := state
  did := 1
  owner := 1
  okey := 1
  ser := 1
  srec := parseRec tRec }
def tH : Word := 0x8000000000040000
def tSpad : State := tMem [(spadKey 0 0x40, leBytes 96 tRec)] [(2, 0xFFFFFFFFFFFC0040)]

theorem test_issues_engine : Issues (engineIssue .always [2] [3] [.core]) tSpad tSpad ∧ Issues (engineIssue .always [2] [] [.stream]) tSpad tSpad
    ∧ Issues (engineIssue .always [2] [] []) tSpad tSpad ∧ Issues (engineIssue .always [2, 3] [3] []) tSpad tSpad ∧ Issues (engineIssue .always [2, 4] [3] [.core, .copy]) tSpad tSpad :=
  ⟨issues_of rfl, issues_of rfl, issues_of rfl, issues_of rfl, issues_of rfl⟩
/-- SDEF: a record that passes R307, with a quota and a free context; the quota used up. -/
theorem test_sdef : (tSpad.me.s.getD 2 0).toNat = 2 ^ 64 - 2 ^ 18 + 0x40 ∧ checkSpad tSpad 0 1 0x40 96 = none ∧ spadBusy tSpad 0 0x40 96 1 = false
    ∧ poisonedAt tSpad (spadKey 0 0x40) 96 = false ∧ recOk (memVal tSpad.mem (spadKey 0 0x40) 96) = true ∧ (ctxOf tSpad 0 0).state = 0
    ∧ ((coreOf tSpad 0).ctxs.filter (fun e => e.2.state != 0 && e.2.did == 1)).length < (domCore tSpad 0 1).strq := by decide
theorem test_names (n : Nat) (h : n ≠ 0) : Names (tCtx (tX n) [(2, tH)] id) tH 0 where
  index := by decide
  core := show 0 < 4096 by decide
  serial := show 1 < 2 ^ 16 by decide
  handle := show tH.toNat = 2 ^ 63 + 1 * 2 ^ 18 + 0 * 2 ^ 6 + 0 by decide
  used := h
  owned := rfl
theorem test_no_handle : (tSpad.me.s.getD 4 0).toNat < 2 ^ 63 := by decide
/-- SBIND and SGO: a defined stream, no register bound to it, no sink and no completion word. -/
theorem test_sbind_sgo : (tCtx (tX 1) [(2, tH)] id).me.z.getD 0 none = none ∧ (tX 1).srec.sink = 0 ∧ (tX 1).srec.fpol ≠ 2 ∧ (tX 1).srec.write = false ∧ (tX 1).srec.op ≠ 0
    ∧ (tX 1).srec.cword = 0 ∧ (tX 1).eidx < streamLen (tX 1).srec ∧ acked (tCtx (tX 1) [(2, tH)] id) .sys = true
    ∧ Issues (engineIssue .always [2] [] [.stream]) (tCtx (tX 1) [(2, tH)] id) (tCtx (tX 1) [(2, tH)] id) := by
  refine ⟨rfl, by decide, by decide, by decide, by decide, by decide, by decide, rfl, issues_of rfl⟩
/-- SWAIT_WAKE and the recall of a stream under way. -/
theorem test_swait_recall : (∀ n < 9, Waits (tMod (fun m => { m with wait := .swait, wkey := n })) .swait ∧ (tMod (fun m => { m with wait := .swait, wkey := n })).me.wkey = n)
    ∧ (tCtx (tX 3) [] (fun m => { m with wait := .swait, wval := tH.toNat })).me.wval = 2 ^ 63 + (tX 3).ser * 2 ^ 18 + 0 * 2 ^ 6 + 0
    ∧ (ctxOf (tCtx { tX 3 with recalled := true } [] id) 0 0).recalled = true := ⟨fun _ _ => ⟨⟨rfl, rfl, nofun, rfl, rfl⟩, rfl⟩, by decide, rfl⟩
/-- A recalled context with nothing held, one whose element failed, and one of whose owner's stores are held. -/
def tHeld (x : Ctx) (h : List (Nat × Nat)) : State := tCtx x [] (fun m => { m with posted := [⟨7, .store, 0x2000, 8, 5, 3, 0, 0, 1, false, h, none, false, []⟩] })
theorem test_recall_arrives : let x := { tX 3 with recalled := true }
    holding (tCtx x [] id) 0 0 = false ∧ holding (tHeld x [(0, 0)]) 0 0 = true ∧ x.fcode = 0 ∧ { x with fcode := 1 }.fcode ≠ 0 ∧ x.srec.cword = 0
      ∧ ownerLives (tCtx { x with fcode := 1 } [] id) { x with fcode := 1 } = true ∧ holding (tCtx { x with fcode := 1 } [] id) 0 0 = false := by decide
/-- StreamsRun: an element to read; the end; an element ahead into the window; a push to write. -/
theorem test_stream_element : (tX 3).lock = 0 ∧ (tX 3).srec.fpol = 0 ∧ (tX 3).eidx < streamLen (tX 3).srec
    ∧ elemCheck (tCtx (tX 3) [] id) 0 (tX 3) 0 .read = .ok 0x2000 ∧ homeReady (tCtx (tX 3) [] id) (0x2000 / 64) = true := by decide
theorem test_stream_end : streamLen { tX 3 with eidx := 4 }.srec ≤ 4 ∧ (tX 3).srec.sink = 0 ∧ (tX 3).srec.cword = 0 ∧ bit (tX 3).srec.emask 2 = false
    ∧ ownerLives (tCtx { tX 3 with eidx := 4 } [] id) { tX 3 with eidx := 4 } = true := by decide
theorem test_window_fill : (ctxOf (tCtx (tX 2) [] id) 0 0).window.length < 64 ∧ elemCheck (tCtx (tX 2) [] id) 0 (tX 2) (0 + 0) .read = .ok 0x2000 := by decide
/-- The walks of those elements can be served, outside an interval and in one with the translation held (R262). -/
theorem test_stream_walks : walkReady (tCtx (tX 3) [] id) (ctxHolder 0 (tX 3)) 1 (elemAddr (tX 3).srec 0).toNat = true
    ∧ walkReady (tCtx (tX 2) [] id) (ctxHolder 0 (tX 2)) 1 (elemAddr (tX 2).srec 0).toNat = true ∧ homeReady (tCtx (tX 2) [] id) 0x80 = true
    ∧ walkReady { tCtx (tX 3) [] id with gtc := 2 ^ 22 + 5000 } (ctxHolder 0 (tX 3)) 1 (elemAddr (tX 3).srec 0).toNat = true ∧ (tCtx (tX 3) [] id).live = true := by decide
theorem test_window_owner : ∃ o, strandOf (tCtx (tX 2) [] id) 1 = some o := ⟨_, rfl⟩
theorem test_push_write : let x := { tX 3 with pushes := [5], srec := { (tX 3).srec with write := true, op := 0 } }
    x.pushes = [5] ∧ x.recalled = false ∧ elemCheck (tCtx x [] id) 0 x x.written .write = .ok 0x2000 ∧ 0x2000 % 64 + elemSize x.srec ≤ 64
      ∧ (homeLine (tCtx x [] id) 0x80).length = 64 := by decide

/-! ### Copies -/

/-- A shape of sixteen FP32 elements at 0x2000, sealed; a box of all of them, for the scratchpad at 0x100. -/
def tShape : Nat :=
  let r := 0x53484150 + (7 + 1 * 2 ^ 4) * 2 ^ 96 + 0x2000 * 2 ^ 128 + 16 * 2 ^ 192 + 4 * 2 ^ 256
  r + crc32c ((leBytes 128 r).drop 8) * 2 ^ 32
def tBoxD (la : Nat) : Nat := la + 1 * 2 ^ 224 + (16 + 1 * 2 ^ 32 + 1 * 2 ^ 64 + 1 * 2 ^ 96) * 2 ^ 256
def tCp (la : Nat) : State :=
  { tMem [(0x2080, leBytes 128 tShape), (spadKey 0 0x40, leBytes 64 (tBoxD la))] [(2, 0x2080), (4, 0xFFFFFFFFFFFC0040)] with
      cores := [(0, { tCore with claims := [(0, 1)] })] }
theorem ok_of3 {α β γ δ : Type} {r : Except δ (α × β × γ)} (d : α × β × γ) (h : r.toBool = true) : r = .ok ((okGet d r).1, (okGet d r).2.1, (okGet d r).2.2) := by
  cases r with
  | ok x => rfl
  | error e => exact absurd h (by simp [Except.toBool])
/-- What readShape gives there. -/
def tRead (la : Nat) : State × Nat × Nat := okGet (tCp la, 0, 0) (readShape (tCp la) 0x2080)
theorem tRead_ok (la : Nat) (h : (readShape (tCp la) 0x2080).toBool = true) : readShape (tCp la) 0x2080 = .ok ((tRead la).1, (tRead la).2.1, (tRead la).2.2) := by
  unfold tRead
  exact ok_of3 (tCp la, 0, 0) h
theorem tRead_shape : (tRead 0xFFFFFFFFFFFC0100).2.1 = tShape := by decide
theorem test_copy_ready : CopyReady (tCp 0xFFFFFFFFFFFC0100) (some .sp) 0xFFFFFFFFFFFC0040 0x2080 (tRead 0xFFFFFFFFFFFC0100).1 (tRead 0xFFFFFFFFFFFC0100).2.1 (tBoxD 0xFFFFFFFFFFFC0100)
    (tRead 0xFFFFFFFFFFFC0100).2.2 where
  window := by decide
  aligned := rfl
  held := rfl
  free := rfl
  good := by decide
  box := by decide
  place := rfl
  read := tRead_ok _ (by decide)
  ready := by decide
  isSealed := by decide
  formed := by decide
  locals := by
    intro k hk x hx
    cases hk
    exact (by decide : ∀ x ∈ localTrap (tCp 0xFFFFFFFFFFFC0100) .sp (tRead 0xFFFFFFFFFFFC0100).2.1 (tBoxD 0xFFFFFFFFFFFC0100), x = none) x hx
  steady := by decide
  bar := fun _ => ⟨rfl, fun h => absurd rfl h, none, rfl⟩
  span := by
    intro lo hi h
    have e : boxSpan (tRead 0xFFFFFFFFFFFC0100).2.1 (tBoxD 0xFFFFFFFFFFFC0100) = some (0x2000, 0x203C) := by decide
    rw [e] at h
    cases h
    decide
  inside := fun _ => .inl (by decide)
/-- TPREF: the descriptor names the record. -/
theorem test_pref_ready : CopyReady (tCp 0x2080) none 0xFFFFFFFFFFFC0040 (BitVec.ofNat 64 (bxAddr (tBoxD 0x2080))) (tRead 0x2080).1 (tRead 0x2080).2.1 (tBoxD 0x2080) (tRead 0x2080).2.2 where
  window := by decide
  aligned := rfl
  held := rfl
  free := rfl
  good := by decide
  box := by decide
  place := rfl
  read := tRead_ok _ (by decide)
  ready := by decide
  isSealed := by decide
  formed := by decide
  locals := by
    intro k hk
    cases hk
  steady := by decide
  bar := by
    intro h
    cases h
  span := by
    intro lo hi h
    have e : boxSpan (tRead 0x2080).2.1 (tBoxD 0x2080) = some (0x2000, 0x203C) := by decide
    rw [e] at h
    cases h
    decide
  inside := by
    intro h
    cases h
/-- Room in the engine, and none. -/
theorem test_copy_room : ((coreOf (tCp 0) 0).copies.filter (fun k => k.key == 1)).length < 4 ∧ (coreOf (tCp 0) 0).copies.length < 16
    ∧ Issues (engineIssue .always [2, 4] [3] [.core, .copy]) (tCp 0) (tCp 0) ∧ Issues { engineIssue .always [2] [3] [] with noTok := [3, 2] } (tCp 0) (tCp 0) :=
  ⟨by decide, by decide, issues_of rfl, issues_of rfl⟩
/-- TSEAL of the record at 0x2080: of the right form, and with another first word. -/
theorem test_tseal : checkVa (tCp 0) 0 1 0x2080 .both false = .ok 0x2080 ∧ heldBy (tCp 0) 0x2080 16 = [] ∧ poisonedAt (tCp 0) 0x2080 64 = false
    ∧ (tCp 0).me.posted = [] ∧ l1Find (tCp 0) 0 1 0x82 = none ∧ (homeLine (tCp 0) 0x82).length = 64 ∧ (homeLine (tCp 0) 0x83).length = 64 := by decide
theorem test_tseal_steady : stalls (tCp 0) 0x2080 = false ∧ homeReady (tCp 0) 0x82 = true ∧ homeReady (tCp 0) 0x83 = true := by decide
theorem test_tseal_form : (let r := leVal (homeLine (tCp 0) 0x82) + leVal (homeLine (tCp 0) 0x83) * 2 ^ 512
    shMagic r = true ∧ shForm r = true) ∧ shMagic (leVal (homeLine tSt 0x82)) = false := by decide
theorem test_l2_agrees : L2Agrees (tCp 0) := by intro l h; cases h
/-- CopyEngine: a command under way, failed, and at its end, with and without a barrier. -/
def tCmd (kind : CopyKind) (next : Nat) (bar : Option Word) (fail : Option Cause) : CopyCmd :=
  ⟨3, 1, 1, 1, kind, 3, 0x2080, tShape, tBoxD 0xFFFFFFFFFFFC0100, 2, 2, 2, next, 0, [], 0, bar, fail, false⟩
def tRun (kind : CopyKind) (next : Nat) (bar : Option Word) (fail : Option Cause) : State :=
  { tSt with cores := [(0, { tCore with copies := [tCmd kind next bar fail] })] }
theorem test_copying : Copying (tRun .sp 0 none none) 0 3 (tCmd .sp 0 none none) ∧ Copying (tRun (.tred .faddF32) 15 none none) 0 3 (tCmd (.tred .faddF32) 15 none none) := by
  constructor <;> exact ⟨rfl, by decide, rfl, by decide, rfl, by decide, by decide, by decide⟩
theorem test_copy_element : boxElem tShape (tBoxD 0xFFFFFFFFFFFC0100) 0 = some 0x2000 ∧ checkVa (tRun .sp 0 none none) 0 1 0x2000 .read false = .ok 0x2000
    ∧ homeReady (tRun .sp 0 none none) (0x2000 / 64) = true ∧ poisonedAt (tRun .sp 0 none none) 0x2000 4 = false ∧ memOk (tRun .sp 0 none none) := by
  refine ⟨by decide, by decide, by decide, by decide, rfl⟩
theorem test_copy_last : boxElem tShape (tBoxD 0xFFFFFFFFFFFC0100) 15 = some 0x203C ∧ burstRun tShape (tBoxD 0xFFFFFFFFFFFC0100) (some (0x203C / 64)) 64 15 = [15]
    ∧ checkVa (tRun .mem 15 none none) 0 1 0x203C .write false = .ok 0x203C ∧ 0x203C % 64 + fmtSize (shFmt tShape) ≤ 64
    ∧ poisonedAt (tRun .mem 15 none none) (spadKey 0 (swizzle tShape (tBoxD 0xFFFFFFFFFFFC0100) 60)) 4 = false := by decide
/-- A box that begins at element 8: its element 8 lies outside the tensor. -/
def tOut (kind : CopyKind) : CopyCmd := { tCmd kind 8 none none with box := tBoxD 0xFFFFFFFFFFFC0100 + 8 * 2 ^ 64 }
theorem test_copy_fill : ∀ k ∈ [CopyKind.sp, .mem], Copying { tSt with cores := [(0, { tCore with copies := [tOut k] })] } 0 3 (tOut k)
    ∧ boxElem tShape (tOut k).box 8 = none ∧ slotStale { tSt with cores := [(0, { tCore with copies := [tOut k] })] } 0 (tOut k) = false := by
  intro k hk
  fin_cases hk <;> exact ⟨⟨rfl, by decide, rfl, by decide, rfl, by decide, by decide, by decide⟩, by decide, by decide⟩
/-- Commands of two strands: the one not served last is due, the other is not; a parked one waits (R352). -/
theorem test_copy_rotation : let a := tCmd .sp 0 none none
    let b := { tCmd .sp 0 none none with id := 4, key := 2 }
    let s := { tSt with cores := [(0, { tCore with copies := [a, b], copyTurn := [2, 1] })] }
    burstWaits s 0 a = false ∧ copyDue s 0 = some 2 ∧ copyDue s 0 ≠ some a.key ∧ burstWaits s 0 { a with parked := true } = true
      ∧ copyDue { tSt with cores := [(0, { tCore with copies := [a, b], copyTurn := [1] })] } 0 = some 1 := by decide
theorem test_copy_stale : slotStale (tRun .sp 0 none none) 0 (tCmd .sp 0 none none) = false ∧ copyReads .sp = true ∧ copyReads .mem = false ∧ copyReads (.tred .faddF32) = false := by decide
theorem test_copy_write : (∀ n ∈ burstRun tShape (tBoxD 0xFFFFFFFFFFFC0100) (some (0x2000 / 64)) 64 0, (∀ b ∈ localBytes 0 (tCmd .mem 0 none none) 4 n, poisonedAt (tRun .mem 0 none none) b 1 = false)
      ∧ ∀ x, boxElem tShape (tBoxD 0xFFFFFFFFFFFC0100) n = some x → x % 64 + 4 ≤ 64) ∧ (homeLine (tRun .mem 0 none none) 0x80).length = 64
    ∧ checkVa (tRun .mem 0 none none) 0 1 0x2000 .write false = .ok 0x2000 := by
  have h : burstRun tShape (tBoxD 0xFFFFFFFFFFFC0100) (some (0x2000 / 64)) 64 0 = List.range 16 := by decide
  rw [h]
  refine ⟨?_, by decide, by decide⟩
  intro n hn
  have e : ∀ n ∈ List.range 16, (∀ b ∈ localBytes 0 (tCmd .mem 0 none none) 4 n, poisonedAt (tRun .mem 0 none none) b 1 = false)
      ∧ boxElem tShape (tBoxD 0xFFFFFFFFFFFC0100) n = some (0x2000 + 4 * n) ∧ n < 16 := by decide
  obtain ⟨h1, h2, h3⟩ := e n hn
  refine ⟨h1, fun x hx => ?_⟩
  rw [h2] at hx
  cases hx
  omega
theorem test_copy_poison : poisonedAt { tRun .sp 0 none none with poison := [0x80] } 0x2000 4 = true
    ∧ (∃ b ∈ localBytes 0 (tCmd .mem 0 none none) 4 0, poisonedAt { tRun .mem 0 none none with poison := [spadKey 0 0x100 / 64] } b 1 = true) :=
  ⟨by decide, spadKey 0 0x100, by decide, by decide⟩
theorem test_copy_fault : (checkVa { tRun .sp 0 none none with tlb := [] } 0 1 0x2000 .read false).toBool = false := by decide
theorem test_copy_end : (tCmd .sp 16 none none).fail.isSome = true ∨ boxLen (tCmd .sp 16 none none).box ≤ (tCmd .sp 16 none none).next := by decide
theorem test_copy_end_rest : (coreOf (tRun .sp 0 (some 0x2040) (some .xlate)) 0).copies.find? (fun x => x.id == 3) = some (tCmd .sp 0 (some 0x2040) (some .xlate))
    ∧ (∀ e ∈ (tRun .sp 0 (some 0x2040) (some .xlate)).cores, ∀ h ∈ e.2.held, ∀ m ∈ h.2, m.origin ≠ some (2 ^ 32 + 3))
    ∧ (tRun .sp 0 (some 0x2040) (some .xlate)).me.key = 1 ∧ (tRun .sp 0 (some 0x2040) (some .xlate)).me.area = none
    ∧ homeReady (tRun .sp 0 (some 0x2040) (some .xlate)) (0x2040 / 64) = true ∧ 0x2040 % 64 + 32 ≤ 64 := by decide
/-- A receipt of TCOPYM at the core's own mailbox; the completion that a barrier object waits for. -/
theorem test_copy_receipt : let k := { tCmd .multi 16 none none with recv := [0] }
    let s := { tSt with cores := [(0, { tCore with copies := [k] })] }
    k.served < k.recv.length ∧ k.parked = false ∧ calState s.gtc = 0 ∧ 0 < (domCore s 0 1).mbox ∧ kget (coreOf s 0).held 1 [] = [] ∧ (kget (coreOf s 0).mbox 1 []).length < (domCore s 0 1).mbox
      ∧ (coreOf s 0).copies.find? (fun x => x.id == 3) = some k := by decide
/-- The step on the barrier of a TCOPYM, its receipts after it; no barrier; the barrier's page can be translated and its home is ready. -/
theorem test_copy_barrier : let k := { tCmd .multi 16 (some 0x2040) none with recv := [0, 0] }
    let s := { tSt with cores := [(0, { tCore with copies := [k] })] }
    k.served < k.recv.length ∧ checkVa s 0 k.did 0x2040 .write false = .ok 0x2040 ∧ barReady s 0 k = true ∧ barSteps k = 2 ∧ { k with served := 2 }.recv[2 - barSteps k]? = some 0
      ∧ barReady (tRun .sp 16 none none) 0 (tCmd .sp 16 none none) = true ∧ barSteps (tCmd .multi 16 none none) = 0 ∧ barReady (tRun .sp 16 (some 0x2040) none) 0 (tCmd .sp 16 (some 0x2040) none) = true
      ∧ barSteps (tCmd .sp 16 (some 0x2040) none) + (tCmd .sp 16 (some 0x2040) none).recv.length ≤ (tCmd .sp 16 (some 0x2040) none).served
      ∧ checkVa (tRun .sp 16 (some 0x2040) none) 0 1 0x2040 .write false = .ok 0x2040 := by decide
theorem test_copy_complete : let s := tRun .sp 16 (some 0x2040) none
    (tCmd .sp 16 (some 0x2040) none).parked = false ∧ calState s.gtc = 0 ∧ (tCmd .sp 16 (some 0x2040) none).recv.length ≤ (tCmd .sp 16 (some 0x2040) none).served ∧ (strandOf s 1).isSome = true
      ∧ s.packets = [] ∧ (homeLine s (0x2040 / 64)).length = 64 ∧ memOk s := by
  refine ⟨by decide, by decide, by decide, by decide, rfl, by decide, rfl⟩
/-- LinesMove: a posted prefetch, of a line in no slice; a write-back. -/
theorem test_prefetch : let s := { tSt with prefq := [(0x80, 1, 0)] }
    s.prefq = [(0x80, 1, 0)] ∧ inL2 s 0x80 = false ∧ homeReady s 0x80 = true ∧ hostBias s 0x2000 = false ∧ rangeOf s 0x2000 = some 1 := by decide
theorem test_writeback : let s := { tSt with wq := [⟨4, 0x80, List.replicate 64 1⟩] }
    s.wq.find? (fun x => x.line == 0x80) = some ⟨4, 0x80, List.replicate 64 1⟩ ∧ s.wq.find? (fun x => x.id == 4) = some ⟨4, 0x80, List.replicate 64 1⟩ := by decide

/-! ### The matrix engine -/

/-- Slots 0 to 3 and accumulator 0 claimed by DID 1. -/
def tMat (q : List MatCmd) (r : List (Nat × Word)) : State :=
  { tMod (fun m => { m with
      s := regs r
      fmtc := 7 }) with cores := [(0, { tCore with
        claims := [(0, 1), (1, 1), (2, 1), (3, 1), (16, 1)]
        matq := q })] }
theorem test_issues_matrix : Issues (matIssue .always [] [] [] false) (tMat [] []) (tMat [] []) ∧ Issues (matIssue .always [1, 2] [] [] true) (tMat [] []) (tMat [] [])
    ∧ Issues (matIssue .always [1] [] [] true) (tMat [] []) (tMat [] []) ∧ Issues (matIssue .always [] [] [1] true) (tMat [] []) (tMat [] [])
    ∧ Issues (matIssue .always [] [3] [] false) (tMat [] []) (tMat [] []) := ⟨issues_of rfl, issues_of rfl, issues_of rfl, issues_of rfl, issues_of rfl⟩
/-- Unclaimed storage that has been found bad, and storage that has not (R442). -/
theorem test_found_bad : foundBad { tMat [] [] with poison := [slotKey 0 4 0 / 64] } 0 4 = true ∧ foundBad (tMat [] []) 0 4 = false ∧ foundBad (tMat [] []) 0 17 = false
    ∧ (let s := tMat [] []; foundBad { s with cores := [(0, { coreOf s 0 with accPois := 2 })] } 0 17 = true) := by decide
/-- Places that pass every check of a fill, of the scales and of a store, of a slot and of an accumulator that DID 1 has not claimed. -/
theorem test_unclaimed : claimOf (tMat [] []) 5 ≠ some 1 ∧ claimOf (tMat [] []) 17 ≠ some 1 ∧ checkSpad (tMat [] []) 0 1 0x40 64 = none ∧ checkSpad (tMat [] []) 0 1 0x40 512 = none
    ∧ granuleTrap (tMat [] []) 0 8192 = none ∧ granuleTrap (tMat [] []) 0 512 = none ∧ (∀ i < 32, checkSpad (tMat [] []) 0 1 (0x40 + i * 128) (storeRow 7) = none) ∧ isBlock 7 = false
    ∧ 0x40 + 31 * 128 + storeRow 7 ≤ 2 ^ 18 := by decide
theorem test_claims : claimOf (tMat [] []) 0 = some 1 ∧ claimOf (tMat [] []) 16 = some 1 ∧ claimOf (tMat [] []) 4 = none ∧ claimOf (tMat [] []) 4 ≠ some 1
    ∧ bit (domCore (tMat [] []) 0 1).opsm 4 = true ∧ bit (domCore (tMat [] []) 0 1).accm 1 = true := by decide
theorem test_mat_room : MatRoom (tMat [] []) := by unfold MatRoom; decide
theorem test_mat_no_room : ¬ MatRoom (tMat (List.replicate 8 ⟨1, 1, 1, 1, .mzero 0, 0, 0, 7, 0, 0, 0⟩) []) := by unfold MatRoom; decide
/-- MFILL, MLDW, MSCL, MSTC: the greatest box, the last aligned one, a stride of one row. -/
theorem test_mfill : let c : Word := 8192
    (c.toNat / 2 ^ 14 % 4 = 0 ∧ c.toNat % 2 ^ 14 ≠ 0 ∧ c.toNat % 2 ^ 14 % 64 = 0 ∧ c.toNat / 2 ^ 16 % 64 = 0 ∧ c.toNat / 2 ^ 16 + c.toNat % 2 ^ 14 ≤ 8192)
    ∧ 0x40 + 8192 ≤ 2 ^ 18 ∧ checkSpad (tMat [] []) 0 1 0x40 8192 = none := by decide
theorem test_mldw : (0xFE000#64).toNat % 64 = 0 ∧ 0xFE000 + 8192 ≤ 2 ^ 20 ∧ granuleTrap (tMat [] []) 0xFE000 8192 = none ∧ granuleTrap (tMat [] []) 0xFFE00 512 = none := by decide
theorem test_mstc : (coreOf (tMat [] []) 0).accPois.getLsbD 0 = false ∧ storeRow 7 ≤ 128 ∧ isBlock 7 = false
    ∧ (∀ i < 32, checkSpad (tMat [] []) 0 1 (0x40 + i * 128) (storeRow 7) = none) ∧ 0 + storeRegs 7 ≤ modeV (modeOfStrand (tMat [] []) (tMat [] []).me) := by decide
/-- MSTC.V to the last registers of the mode, in FP32 and as one register of FP8. -/
theorem test_mstc_v : Issues (matIssue .always [] [] (upto 0 (storeRegs (wbits (tMat [] []).me.fmtc 3 0))) true) (tMat [] []) (tMat [] [])
    ∧ storeRegs (wbits (tMat [] []).me.fmtc 3 0) = 4 ∧ accBusy (tMat [] []) 0 0 = false ∧ (tMat [] []).live = true := ⟨issues_of rfl, rfl, rfl, rfl⟩
/-- MSTC behind an MMA that writes its accumulator, and behind none. -/
theorem test_acc_busy : accBusy (tMat [] []) 0 0 = false ∧ accBusy (tMat [⟨1, 1, 1, 1, .mma 0 0 1, 0, 0, 7, 0, 0, 0⟩] []) 0 0 = true
    ∧ Issues (matIssue .always [1, 2] [] [] true) (tMat [⟨1, 1, 1, 1, .mma 0 0 1, 0, 0, 7, 0, 0, 0⟩] []) (tMat [⟨1, 1, 1, 1, .mma 0 0 1, 0, 0, 7, 0, 0, 0⟩] [])
    ∧ (∀ r ∈ upto 0 (storeRegs 7), r ∉ (tMat [] []).me.vpend) := ⟨rfl, rfl, issues_of rfl, by decide⟩
theorem test_mma : pairK 0 0 ≠ none ∧ ((coreOf (tMat [] []) 0).matq.filter (fun k => isMma k.op)).length < 2 := by decide
/-- MatrixMultiply, MatrixMoves: each command at the head of the order. -/
def tK (op : MatOp) : MatCmd := ⟨1, 1, 1, 1, op, 0, 0, 7, 0, 0, 0⟩
theorem test_at_head : ∀ op ∈ [MatOp.mma 0 0 1, .mfill 0 0x40 0 64, .mfillV 0 7 0, .mldw 15 0xFE000, .mscl 0 0, .msclSp 0 0, .mstc 0 0x40 128, .mstcV 0 0, .mzero 0, .zeroAcc 7, .zeroSlot 3],
    (coreOf (tMat [tK op] []) 0).matq = [tK op] ∧ matBlocked (tMat [tK op] []) 0 (tK op) = false := by decide
theorem test_at_head_mma : AtHead (tMat [tK (.mma 0 0 1)] []) 0 (tK (.mma 0 0 1)) [] := ⟨rfl, rfl, by decide, rfl, by decide⟩
theorem test_slots_good : slotPoisoned (tMat [] []) 0 0 = false ∧ slotPoisoned { tMat [] [] with poison := [slotKey 0 0 0 / 64] } 0 0 = true := by decide
theorem test_handover : let s := { tSt with cores := [(0, { tCore with handover := [(15, 1, 9)] })] }
    (coreOf s 0).handover.find? (fun x => x.1 == 15) = some (15, 1, 9) ∧ bankQuiet s 0 15 9 = true := by decide

/-! ### Migration, messages, queues and mailboxes -/

/-- Core 128, the home of 0x2000, and bank core 4, its channel, belong to DID 1 too. -/
def tMig (r : List (Nat × Word)) (f : Strand → Strand) (g : CoreSt → CoreSt) : State :=
  { tMod (fun m => f { m with s := regs r }) with
      cores := [(0, tCore), (128, g tCore)]
      banks := [(4, { BankSt.reset with doms := [(1, { DomCore.reset with bslots := 0xFF })] })] }
theorem test_migrate : MayMigrate (tMig [(2, 0x2000)] id id) ∧ Quiet (tMig [(2, 0x2000)] id id) ∧ checkVa (tMig [] id id) 0 1 0x2000 .read false = .ok 0x2000
    ∧ homeCore (tMig [] id id) 0x2000 = 128 ∧ inPartition (tMig [] id id) 128 1 = true ∧ namesDram 0x2000 = true ∧ bankInPartition (tMig [] id id) (channelOf 0x2000) 1 = true
    ∧ Issues (msgIssue .always [2] [] .run []) (tMig [(2, 0x2000)] id id) (tMig [(2, 0x2000)] id id) :=
  ⟨⟨rfl, by decide, rfl, by decide, rfl⟩, ⟨rfl, rfl, rfl⟩, by decide, by decide, by decide, by decide, by decide, issues_of rfl⟩
/-- At the destination; asked for and granted; TH keeps a strand from migrating. -/
theorem test_migrate_steady : (stalls (tMig [(2, 0x2000)] id id) 0x2000 = false ∧ homeCore (tMig [] id id) 0x2000 < 4096 ∧ (tMig [] id id).me.seat ≠ .none ∧ onBank (tMig [] id id) = false)
    ∧ (tMig [] id id).me.dest = none ∧ (tMig [] id id).live = true ∧ ¬ Quiet (tPost .store 8 none)
    ∧ (∀ n, (tMig [] id id).me.seat ≠ .bank (channelOf 0x2000) n) := by
  refine ⟨by decide, rfl, rfl, fun h => absurd h.2.2 (by decide), ?_⟩
  intro n h
  cases h
theorem test_migrate_here : checkVa (tMig [] id id) 0 1 0x3000 .read false = .ok 0x10000 ∧ homeCore (tMig [] id id) 0x10000 = (tMig [] id id).me.core
    ∧ (let s := tMig [] (fun m => { m with dest := some (128, true), pre := some ⟨0, [], [], []⟩ }) id; s.me.dest = some (128, true) ∧ s.me.pre ≠ none) ∧ onBank (tMig [] (fun m => { m with seat := .bank 4 0 }) id) = true := by decide
/-- The destinations take work: a core exposed, a bank core in service; one taken out. -/
theorem test_migrate_places : exposed (tMig [] id id) 128 = true ∧ (tMig [] id id).health.deadBk.contains 4 = false ∧ (tMig [] id id).health.deadBk.contains (4100 - 4096) = false
    ∧ (tMig [] (fun m => { m with dest := some (7, false) }) id).me.dest ≠ none := by decide
theorem test_migrate_not : ¬ MayMigrate (tMig [] (fun m => { m with th := true }) id) := by intro h; exact absurd h.2.2.1 (by decide)
theorem test_migration_grant : let s := tMig [] id (fun c => { c with asking := [1] })
    (coreOf s 128).asking = s.me.key :: [] ∧ (coreOf s 128).runq.length + (coreOf s 128).granted.length < 64 := by decide
theorem test_migration_packet : let s := { tMig [] id id with packets := [(tMe, 128)] }
    s.packets.find? (fun x => x.1.key == tMe.key) = some (tMe, 128) := rfl
/-- ActiveMessages: an entry at an even address, room at the home core; a handler to start; a reply. -/
theorem test_amsg : let s := tMig [(2, 0x2000), (4, 0x1000)] id id
    (s.me.s.getD 4 0).getLsbD 0 = false ∧ (s.me.s.getD 2 0).toNat < 2 ^ 56 ∧ checkVa s 0 1 0x2000 .read true = .ok 0x2000 ∧ s.me.posted = []
      ∧ (coreOf s 128).hq.length < 32 ∧ (coreOf s 128).hwait = [] := by decide
theorem test_issues_message : Issues (msgIssue .always [3, 2, 4] [3] .run []) tSt tSt ∧ Issues (msgIssue .always [2] [3] .ret [.core]) tSt tSt
    ∧ Issues (msgIssue .always [] [3] .ret []) tSt tSt ∧ Issues (msgIssue .always [3, 2] [3] .ret [.core]) tSt tSt ∧ Issues (msgIssue .always [] [] .ret []) tSt tSt :=
  ⟨issues_of rfl, issues_of rfl, issues_of rfl, issues_of rfl, issues_of rfl⟩
theorem test_handler_start : let s := tMig [] id (fun c => { c with hq := [⟨0x1000, 0x2000, 5, 1, 1, 0, 3, some 1, 0, 0, 0, 0⟩] })
    (coreOf s 128).hq = ⟨0x1000, 0x2000, 5, 1, 1, 0, 3, some 1, 0, 0, 0, 0⟩ :: [] ∧ handlerIdle s 128 = true ∧ exposed s 128 = true := by decide
theorem test_reply : let s := tMod (fun m => { m with wait := .reply, wreg := 3, ends := [(2 ^ 65, 9)] })
    s.me.wait = .reply ∧ s.me.wreg < 64 ∧ kget? s.me.ends (2 ^ 65) = some 9 ∧ kget s.me.ends (2 ^ 65 + 2) 0 = 0 := by decide
/-- A store and a load of another core's scratchpad, core 5 offset 0x40. -/
def tRemote : Posted := ⟨7, .store, spadKey 5 0x40, 8, 5, 0, 0, 0, 1, false, [], none, true, []⟩
theorem test_remote_store : let s := tMod (fun m => { m with posted := [tRemote] })
    s.me.posted.find? (fun q => q.id == tRemote.id) = some tRemote ∧ 2 ^ 48 ≤ tRemote.key ∧ tRemote.key < 2 ^ 49 ∧ (tRemote.key - 2 ^ 48) / 2 ^ 18 = 5 ∧ handlerFree s 5 = true
      ∧ spadBusy s 5 0x40 8 1 = false ∧ postReady s s.me tRemote = true := by decide
theorem test_remote_load : let l : Load := ⟨0, spadKey 5 0x40, 8, false, .reg 3, 0x1002, 0, true, none, 7⟩
    let s := tMod (fun m => { m with load := some l, wait := .load })
    s.me.load = some l ∧ handlerFree s 5 = true ∧ (∀ p ∈ s.me.posted, p.done = none → p.key / 2 ^ 18 ≠ l.key / 2 ^ 18) ∧ poisonedAt s l.key l.n = false := by decide
/-- QueuesAndMailboxes: a queue of the DID; shares empty, with a message, full, and of no size. -/
def tBox1 (n : Nat) : State :=
  { tRegs [(2, 0xFFFFFFFFFFFC0040)] with cores := [(0, { tCore with mbox := [(1, List.replicate n ⟨0, 1, 2, 3, 0, 5, none⟩)] })] }
theorem test_mailboxes : bit (domCore (tBox1 0) 0 1).qmask 7 = true ∧ exposed (tBox1 0) 0 = true ∧ (domCore (tBox1 0) 0 1).mbox ≠ 0 ∧ (domCore (tBox1 0) 5 1).mbox = 0
    ∧ kget (coreOf (tBox1 0) 0).mbox 1 [] = [] ∧ kget (coreOf (tBox1 1) 0).mbox 1 [] = ⟨0, 1, 2, 3, 0, 5, none⟩ :: [] ∧ kget (coreOf (tBox1 1) 0).held 1 [] = []
    ∧ (domCore (tBox1 4) 0 1).mbox ≤ (kget (coreOf (tBox1 4) 0).mbox 1 []).length := by decide
theorem test_mailbox_places : InScratchpad (tBox1 1) 0xFFFFFFFFFFFC0040 16 0x40 ∧ InScratchpad (tBox1 1) 0xFFFFFFFFFFFC0040 32 0x40
    ∧ checkVa (tBox1 1) 0 1 0x2000 .write true = .ok 0x2000 ∧ heldBy (tBox1 1) 0x2000 32 = [] :=
  ⟨⟨rfl, by decide, rfl, rfl, rfl, rfl⟩, ⟨rfl, by decide, rfl, rfl, rfl, rfl⟩, by decide, by decide⟩
theorem test_mailbox_memory : InMemory (tRegs [(2, 0x2000)]) 0x2000 16 .read 0x2000 ∧ coreReady (tRegs [(2, 0x2000)]) 0x2000 = true ∧ poisonedAt (tRegs [(2, 0x2000)]) 0x2000 16 = false
    ∧ exposed (tRegs [(2, 0x2000)]) 0 = true ∧ (∃ v pl, coreRead (tlbKeep (tRegs [(2, 0x2000)]) 0 1 0x2000) 0x2000 16 = (v, pl)) :=
  ⟨⟨rfl, by decide, rfl, by decide, rfl⟩, by decide, by decide, by decide, _, _, rfl⟩
theorem test_held_message : let s := { tSt with cores := [(0, { tCore with held := [(1, [⟨1, 1, 2, 3, 0, 5, some 9⟩])] })] }
    kget (coreOf s 0).held 1 [] = ⟨1, 1, 2, 3, 0, 5, some 9⟩ :: [] ∧ (kget (coreOf s 0).mbox 1 []).length < (domCore s 0 1).mbox := by decide
/-- A share whose entry that has come free goes to the message held for it first, with room behind it and without (R198, R199). -/
theorem test_held_share : let s (n : Nat) : State := { tSt with cores := [(0, { tCore with mbox := [(1, List.replicate n ⟨0, 1, 2, 3, 0, 5, none⟩)], held := [(1, [⟨1, 1, 2, 3, 0, 5, some 9⟩])] })] }
    (kget (coreOf (s 2) 0).mbox 1 []).length + (kget (coreOf (s 2) 0).held 1 []).length < (domCore (s 2) 0 1).mbox
      ∧ (domCore (s 3) 0 1).mbox ≤ (kget (coreOf (s 3) 0).mbox 1 []).length + (kget (coreOf (s 3) 0).held 1 []).length := by decide
theorem test_mbwait_wakes : Waits { tBox1 1 with me := { tMe with wait := .mbwait } } .mbwait ∧ kget (coreOf (tBox1 1) 0).mbox 1 [] ≠ [] := ⟨⟨rfl, rfl, by decide, rfl, rfl⟩, by decide⟩
/-- A strand that a message has released, which another strand then received. -/
theorem test_mbwait_taken : Waits { tBox1 0 with me := { tMe with wait := .mbwait, wkey := 1 } } .mbwait ∧ kget (coreOf (tBox1 0) 0).mbox 1 [] = [] := ⟨⟨rfl, rfl, by decide, rfl, rfl⟩, by decide⟩
theorem test_mailbox_copy : corePoisoned (tRegs [(2, 0x2000)]) 0x2000 16 = false ∧ onBank (tRegs [(2, 0x2000)]) = false := by decide

/-! ### Bank commands -/

/-- A descriptor at 0x2040: destination 0x4000, first source 0x5000, whose frames lie in one channel, the pair at 0x2080, one chunk. -/
def tDesc (x : Nat) : Nat := 0x4000 + x * 2 ^ 64 + 1 * 2 ^ 192 + 0x2080 * 2 ^ 320
def tBk (x : Nat) (q : List BankCmd) : State := { tMem [(0x2040, leBytes 64 (tDesc x))] [(2, 0x2040), (4, 0x3F80)] with bank := q }
/-- What the descriptor gives when it is read there, and its chunks. -/
def tDv (x : Nat) : State × Nat := coreRead (tlbKeep (tBk x []) 0 1 0x2040) 0x2040 64
def tChunks (x : Nat) (op : BankOp) : List (List (Word × Except (Word × Cause × Word) Nat)) :=
  chunkPlaces (tDv x).1 (op != .zero) ((op != .zero) && op != .copy && bits (tDv x).2 191 128 != 0) (tDv x).2
theorem steady_of {v : State} {l : List Word} (h : l.all (fun a => !stalls v a) = true) : ∀ a ∈ l, stalls v a = false :=
  fun a ha => by simpa using List.all_eq_true.mp h a ha
theorem test_bank_steady : ∀ x ∈ [(0x5000, BankOp.add), (0x5000, .copy), (0, .zero)],
    ((tChunks x.1 x.2).flatten.map Prod.fst ++ [BitVec.ofNat 64 (bits (tDv x.1).2 383 320), BitVec.ofNat 64 (bits (tDv x.1).2 319 256)]).all (fun a => !stalls (tDv x.1).1 a) = true := by
  decide +kernel
theorem test_bank_ready : BankReady (tBk 0x5000 []) .add 0x2040 (tDv 0x5000).1 (tDv 0x5000).2 0x2080 none (tChunks 0x5000 .add) where
  place := ⟨0x2040, rfl, by decide, by decide, by decide, by decide, by decide, rfl⟩
  formed := by decide
  aligned := ⟨by decide, by decide, by decide, by decide, by decide⟩
  chunks := rfl
  maps := ⟨by decide, by decide⟩
  steady := steady_of (test_bank_steady (0x5000, .add) (by decide))
  pair := by decide
  record := by decide
  ready := by decide
  good := by decide
  near := by decide
  line := ⟨rfl, by decide, (show memWf _ = true by decide)⟩
theorem test_bank_ready_copy : BankReady (tBk 0x5000 []) .copy 0x2040 (tDv 0x5000).1 (tDv 0x5000).2 0x2080 none (tChunks 0x5000 .copy) where
  place := ⟨0x2040, rfl, by decide, by decide, by decide, by decide, by decide, rfl⟩
  formed := by decide
  aligned := ⟨by decide, by decide, by decide, by decide, by decide⟩
  chunks := rfl
  maps := ⟨by decide, by decide⟩
  steady := steady_of (test_bank_steady (0x5000, .copy) (by decide))
  pair := by decide
  record := by decide
  ready := by decide
  good := by decide
  near := by decide
  line := ⟨rfl, by decide, (show memWf _ = true by decide)⟩
theorem test_bank_ready_zero : BankReady (tBk 0 []) .zero 0x2040 (tDv 0).1 (tDv 0).2 0x2080 none (tChunks 0 .zero) where
  place := ⟨0x2040, rfl, by decide, by decide, by decide, by decide, by decide, rfl⟩
  formed := by decide
  aligned := ⟨by decide, by decide, by decide, by decide, by decide⟩
  chunks := rfl
  maps := ⟨by decide, by decide⟩
  steady := steady_of (test_bank_steady (0, .zero) (by decide))
  pair := by decide
  record := by decide
  ready := by decide
  good := by decide
  near := by decide
  line := ⟨rfl, by decide, (show memWf _ = true by decide)⟩
/-- Room for a command, and none; BKSEQ and BKSTAT on the pair. -/
def tBc (op : BankOp) (x ops : Nat) (bufs : List (List Byte)) : BankCmd :=
  ⟨5, 1, 1, 1, op, 0x3F80, false, [⟨0x4000, x, 0, [], 0, 0, ops, bufs⟩], 1, 0x2080, 0x2080, none, 3, false, 0⟩
theorem test_bank_room : ((tBk 0 []).bank.filter (fun k => k.core == 0)).length < 16 ∧ 16 ≤ ((tBk 0 (List.replicate 16 (tBc .zero 0 0 []))).bank.filter (fun k => k.core == 0)).length
    ∧ checkVa (tBk 0 []) 0 1 0x2080 .write false = .ok 0x2080 ∧ stalls (tBk 0 []) 0x2080 = false ∧ checkVa (tBk 0 []) 0 1 0x2080 .read false = .ok 0x2080 ∧ stepReady (tBk 0 []) 0x2080 = true
    ∧ heldBy (tBk 0 []) 0x2080 16 = [] ∧ (homeLine (tBk 0 []) 0x82).length = 64 := by decide
/-- BankUnits: a clear, a copy within a subarray and across, a read, the last write, and a command that has finished. -/
theorem test_row_operation : ∀ c ∈ [tBc .zero 0 0 [], tBc .copy 0x1004000 0 [], tBc .copy 0x104000 0 [], tBc .add 0x104000 0 [], tBc .fma 0x104000 2 [List.replicate 2048 1, List.replicate 2048 2]],
    (bankNext (tBk 0 [c]) (channelOf 0x4000)).map (fun x => x.1 == c && x.2.1 == 0) = some true ∧ calState (tBk 0 [c]).gtc = 0 ∧ (tBk 0 [c]).bank.find? (fun x => x.id == c.id) = some c := by decide
/-- A bank core in service, and out of it. -/
theorem test_row_unit : (tBk 0 []).health.deadBk.contains (channelOf 0x4000) = false ∧ ({ (tBk 0 []).health with deadBk := [channelOf 0x4000] } : Health).deadBk.contains (channelOf 0x4000) = true
    ∧ (bankNext { tBk 0 [tBc .zero 0 0 []] with health := { (tBk 0 []).health with deadBk := [channelOf 0x4000] } } (channelOf 0x4000)).isSome = true := by decide
theorem test_row_same : (bankNext (tBk 0 [tBc .copy 0x4000 0 []]) (channelOf 0x4000)).map (fun x => x.1 == tBc .copy 0x4000 0 [] && x.2.1 == 0) = some true := by decide
theorem test_row_places : sameSubarray 0x4000 0x1004000 = true ∧ sameSubarray 0x4000 0x104000 = false ∧ (chunkReads (tBc .add 0x104000 0 []) ⟨0x4000, 0x104000, 0, [], 0, 0, 0, []⟩)[0]? = some 0x104000
    ∧ (chunkReads (tBc .fma 0x104000 2 []) ⟨0x4000, 0x104000, 0, [], 0, 0, 2, []⟩).length = 2 ∧ poisonedAt (tBk 0 []) 0x104000 2048 = false := by decide
theorem test_bank_end : let c := { tBc .zero 0 0 [] with chunks := [⟨0x4000, 0, 0, [], 1, 0, 1, []⟩] }
    let s := tBk 0 [c]
    s.bank.find? (fun x => x.id == c.id) = some c ∧ (∀ k ∈ c.chunks, k.state ≠ 0 ∧ k.cause ≠ causeCode .slotOverrun) ∧ s.bank.find? (fun x => x.cpair == c.cpair) = some c
      ∧ homeReady s (c.cpair / 64) = true ∧ mayReach s c.did c.cpair = true ∧ (homeLine s (c.cpair / 64)).length = 64 := by decide

/-! ### Control registers, traps, gates -/

theorem test_issues_system : Issues (sysIssue .always [] [3] .run []) tSt tSt ∧ Issues (sysIssue .always [] [] .run []) tSt tSt ∧ Issues (sysIssue .always [] [] .ret []) tSt tSt
    ∧ Issues (sysIssue .always [] [] .ill []) tSt tSt ∧ Issues (sysIssue .always [2] [] .ill [.core]) tSt tSt ∧ Issues (sysIssue .always [2, 3] [] .run [.core]) tSt tSt
    ∧ Issues (sysIssue .always [2, 3] [] .ret []) tSt tSt ∧ Issues ({ sysIssue .always [] [] .run [] with handler := true }) tSt tSt ∧ Issues (scalar .always [3] []) tSt tSt :=
  ⟨issues_of rfl, issues_of rfl, issues_of rfl, issues_of rfl, issues_of rfl, issues_of rfl, issues_of rfl, issues_of rfl, issues_of rfl⟩
/-- ControlRegisters: DID 0 and another DID; legal and reserved values of RND, FMTA, VSH, MIGP. -/
def tRoot (r : List (Nat × Word)) : State := { tMod (fun m => { m with
    did := 0
    s := regs r }) with cores := [(0, { tCore with doms := (0, ⟨0xFF, 0xFF, 0xFFFF, 0xFFFF, 0xFFFF, 0, 0, 8, 4, 0⟩) :: tCore.doms })] }
theorem test_control_values : (tRoot []).me.did = 0 ∧ tSt.me.did ≠ 0 ∧ (5#64).toNat % 8 ≤ 5 ∧ ¬ (6#64).toNat % 8 ≤ 5 ∧ (0x64#64).toNat / 16 % 16 + (0x64#64).toNat % 4 ≤ 10
    ∧ ¬ (0x83#64).toNat / 16 % 16 + (0x83#64).toNat % 4 ≤ 10 ∧ (2#64).toNat % 4 ≠ 3 := by decide
/-- TrapsAndReturns: a strand that can trap; one under TH; one of a DID without a vector; TRET in and out of a trap. -/
theorem test_can_trap : CanTrap tSt ∧ Cause.illegal ≠ .staleXlate ∧ Cause.illegal ≠ .poison := ⟨⟨by decide, rfl, by decide⟩, by decide, by decide⟩
theorem test_cannot_trap : (tMod (fun m => { m with th := true })).me.th = true ∧ (domOf (tRoot []) 0).tvec = 0 ∧ tSt.me.seat ≠ .handler ∧ tSt.live = true := by decide
theorem test_tret : let s := tMod (fun m => { m with
      th := true
      tpc := 0x1010 })
    Issues (sysIssue .always [] [] .run []) s s ∧ s.me.th = true := ⟨issues_of rfl, rfl⟩
/-- A region at 0x2000 with a budget, a use and a pool of one save area: the area at 0x4000. -/
def tRegion (budget used : Nat) (f : Strand → Strand) : State :=
  { tMem [(0x2000, leBytes 192 (budget * 2 ^ 128 + used * 2 ^ 192 + 0x2800 * 2 ^ 256)), (0x2800, leBytes 24 (0x4000 + 1 * 2 ^ 64 + 1 * 2 ^ 128))] [] with
      me := f { tMe with region := 0x2000 }
      gates := [(3, (0x8000, 0x8000000200400002))]
      tlb := [⟨walker, 1, 0, 0x2000, 4096, 0x2000, 0x0D⟩, ⟨walker, 1, 0, 0x4000, 4096, 0x4000, 0x0D⟩, ⟨walker, 1, 0, 0x5000, 4096, 0x104000, 0x0D⟩] }
def someGet {α : Type} (d : α) : Option α → α
  | some x => x
  | none => d
/-- The area that the strand takes there. -/
def tArea (s : State) : State × Nat × Nat := someGet (s, 0, 0) (okGet none (takeArea s 1 0x2000 0))
theorem area_of {s : State} (h : (takeArea s 1 0x2000 0).toBool = true) (k : (okGet none (takeArea s 1 0x2000 0)).isSome = true) :
    takeArea s 1 0x2000 0 = .ok (some ((tArea s).1, (tArea s).2.1, (tArea s).2.2)) := by
  rw [ok_of none h]
  unfold tArea
  revert k
  cases okGet none (takeArea s 1 0x2000 0) with
  | some x => intro _; rfl
  | none => intro k; exact absurd k (by simp)
theorem test_area : takeArea (tRegion 0 0 id) 1 0x2000 0 = .ok (some ((tArea (tRegion 0 0 id)).1, (tArea (tRegion 0 0 id)).2.1, (tArea (tRegion 0 0 id)).2.2)) :=
  area_of (by decide) (by decide)
theorem test_area_saved : ∃ x tm, saveTo (tArea (tRegion 0 0 id)).1 { (tArea (tRegion 0 0 id)).1.me with pc := (tArea (tRegion 0 0 id)).1.nextPc, ydl := (tArea (tRegion 0 0 id)).1.me.ydl - 1 } 1
    (tArea (tRegion 0 0 id)).2.1 = .ok (x, tm) := ⟨_, _, ok_of (tSt, 0) (by decide)⟩
/-- Gates: an open gate, a closed one, none of the strand's streams bound; a strand inside a gate, whose caller's area holds zeros. -/
theorem test_gate : gateOpen (tRegion 0 0 id) 3 = true ∧ gateOpen (tRegion 0 0 id) 4 = false ∧ (tRegion 0 0 id).me.gates.length < 4
    ∧ (∀ z : Fin 8, (tRegion 0 0 id).me.z.getD z.val none = none) ∧ (tRegion 0 0 id).me.th = false := by decide
/-- The area of a GATE can be taken, and that of a GRET given back (R262). -/
theorem test_gate_ready : takeReady (tRegion 0 0 id) 1 1 0x2000 = true ∧ giveReady (tRegion 0 0 (fun m => { m with gates := [(0x4000, 1)] })) 1 1 0x2000 0x4000 = true
    ∧ takeReady (tRegion 1 5 id) 1 1 0x2000 = true := by decide
theorem test_gate_marks : markUse (tRegion 0 0 id) 1 0x2000 = tRegion 0 0 id := rfl
theorem test_gate_quiet : Quiet (tRegion 0 0 id) ∧ Issues (sysIssue .always [] [] .ret []) (tRegion 0 0 id) (tRegion 0 0 id) := ⟨⟨rfl, rfl, rfl⟩, issues_of rfl⟩
theorem test_gret : let s := tRegion 0 0 (fun m => { m with gates := [(0x4000, 1)] })
    s.me.gates.getLast? = some (0x4000, 1) ∧ s.me.th = false ∧ s.me.rsv = none := by decide
theorem test_gret_restores : ∃ w r, restoreFrom (tRegion 0 0 (fun m => { m with gates := [(0x4000, 1)] })) (tRegion 0 0 (fun m => { m with gates := [(0x4000, 1)] })).me 1 0x4000 = .ok (w, r) :=
  ⟨_, _, ok_of (tSt, tMe) (by decide)⟩
/-- YieldGsyncRetire: no area; an exhausted region; a crowded core; a gang of one and of two; a slot whose owner changes. -/
theorem test_yield : inRotation tSt = false ∧ regionExhausted tSt 1 0 = false ∧ crowded tSt = false ∧ areaFree tSt 1 0 = false ∧ areaFree (tRegion 1 5 id) 1 0x2000 = true
    ∧ inRotation (tRegion 1 5 id) = false ∧ regionExhausted (tRegion 1 5 id) 1 0x2000 = true ∧ regionExhausted (tRegion 5 1 id) 1 0x2000 = false := by decide
/-- No area, and known so; in an interval, with the pool in no slice, not known (R262). -/
theorem test_yield_waits : takeReady tSt 1 1 0 = true ∧ regionExhausted { tRegion 1 5 id with gtc := 2 ^ 22 + 5000 } 1 0x2000 = true
    ∧ takeReady { tRegion 1 5 id with gtc := 2 ^ 22 + 5000 } 1 1 0x2000 = false := by decide
/-- The strand of an exhausted region gives its slot up: an area is taken and written. -/
theorem test_unseat : let s := tRegion 1 5 id
    let u := markUse (chargeStrand s s.me) (homeDid s.me) s.me.region
    (takeArea u (homeDid s.me) s.me.region s.me.tck).toBool = true
      ∧ (okGet none (takeArea u (homeDid s.me) s.me.region s.me.tck)).any (fun x => (saveTo x.1 s.me s.me.did x.2.1).toBool) = true := by decide
theorem test_crowded : let s := { tRegion 5 1 id with cores := [(0, { tCore with runq := [.gang 1 [0x1000, 0, 2, 0, 0, 64, 0, 0] 0 5 0] })] }
    crowded s = true ∧ inRotation s = false := by decide
theorem test_gsync : (∀ o ∈ gangOf tSt 1, o.key ≠ 1 → o.arr ≠ none ∧ o.area = none)
    ∧ (∃ o ∈ gangOf { tSt with others := [{ tMe with key := 2 }] } 1, o.key ≠ 1 ∧ o.arr = none) := by
  refine ⟨by decide, { tMe with key := 2 }, by simp [gangOf, strands, tSt, tMe]; rfl, by decide, rfl⟩
/-- The members sit on the barrier's core, or its handler slot is free (R192). -/
theorem test_gsync_place : (∀ o ∈ gangOf tSt 1, holderOf o = o.gcore ∨ handlerFree tSt o.gcore = true)
    ∧ (∀ o ∈ tSt.others ++ tSt.packets.map Prod.fst, o.key ≠ tSt.me.key) ∧ tSt.me.key < 2 ^ 32 ∧ tSt.me.area = none ∧ tSt.me.dead = false := by decide
theorem test_gsync_free : handlerFree tSt 0 = true ∧ handlerFree { tSt with cores := [(0, { tCore with hwait := [⟨0x1000, 0x2000, 5, 1, 1, 0, 3, some 1, 0, 0, 0, 0⟩] })] } 0 = false := by decide
theorem test_gsync_complete : Waits (tMod (fun m => { m with
      wait := .gsync
      arr := some 4 })) .gsync ∧ (∀ o ∈ gangOf (tMod (fun m => { m with
      wait := .gsync
      arr := some 4 })) 1, o.arr ≠ none ∧ o.area = none) := ⟨⟨rfl, rfl, by decide, rfl, rfl⟩, by decide⟩
theorem test_retire : ownWork tSt = false ∧ boundPushes tSt = false ∧ tSt.me.posted = [] ∧ tSt.me.rsv = none ∧ homeReady (tRsv (some (0x2000, 0)) []) (0x2000 / 64) = true := by decide
theorem test_rotation : let s := { tSt with cores := [(0, { tCore with slotown := tCore.slotown.set 1 2 })] }
    (coreOf s 0).slotown.getD 1 0x1F ≠ (coreOf s 0).curown.getD 1 0x1F ∧ slotEmpty s 0 1 = true := by decide

/-! ### The monitor's instructions, range maintenance -/

/-- MonitorInstructions: each change of mode on a quiescent core, DID 0 and another. -/
theorem test_repart : quiescent (tRoot []) 0 = true ∧ quiescent (tRoot []) 1 = true ∧ splitGroup (ownersNow (tRoot []) 0) 1 (modeSlots .m32) = none ∧ 0 / 2 ^ 1 + 1 ≠ modeSlots .m32
    ∧ (let s := { tRoot [] with cores := [(0, { tCore with mode := .m64 })] }; quiescent s 0 = true ∧ modeCode .m16 < modeCode (coreOf s 0).mode ∧ s.me.seat = .slot 0)
    ∧ quiescent tSt 0 = true ∧ (coreOf tSt 0).mode = .m16 := by decide
theorem test_slotset : InScratchpad (tRoot [(2, 0xFFFFFFFFFFFC0040)]) 0xFFFFFFFFFFFC0040 32 0x40 ∧ poisonedAt (tRoot []) (spadKey 0 0x40) 32 = false :=
  ⟨⟨rfl, by decide, rfl, rfl, rfl, rfl⟩, rfl⟩
theorem test_step_counter : (domOf tSt 1).sched = 0 ∧ (domOf { tSt with doms := [(1, { PkgDom.reset with sched := 0x2000 })] } 1).sched ≠ 0 := by decide
/-- TLBI and TLBSD of page 2 of DID 1, and of every page: the descriptor's fields at their bounds. -/
theorem test_tlb_descriptor : ∀ d ∈ [0x10C, 0x1438, 0x1010C], d < 2 ^ 17 ∧ d / 2 ^ 13 % 8 = 0 ∧ d / 2 ^ 6 % 4 = 0 ∧ d / 2 ^ 8 % 32 ≤ 20 ∧ 12 ≤ d % 64 ∧ d % 64 ≤ 56
    ∧ (d / 2 ^ 16 % 2 = 1 ∨ (if d % 64 = 12 then 0x2000 else 0) % 2 ^ (d % 64) = 0) := by decide
theorem test_tlbsd : (∀ x ∈ (tRoot []).shoots, x.key ≠ 1) ∧ (∀ x ∈ ({ tRoot [] with tlb := [] } : State).tlb, False) ∧ (tRoot []).bank = []
    ∧ (∃ x ∈ (tRoot []).tlb, x.did = 1 ∧ x.va < 0x3000 ∧ 0x2000 < x.va + x.size) := by
  refine ⟨by decide, by decide, rfl, ⟨0, 1, 0, 0x2000, 4096, 0x2000, 0x0D⟩, by decide, rfl, by decide, by decide⟩
theorem test_tlbsd_ends : ({ tRoot [] with shoots := [⟨1, 1, 1, 0x2000, 0x3000, []⟩] } : State).shoots.find? (fun y => y.key == 1) = some ⟨1, 1, 1, 0x2000, 0x3000, []⟩ := by decide
/-- An access on its way under a translation keeps its holder in the wait. -/
theorem test_tlbsd_uses : usesOf (tRoot []) 1 = [] ∧ 0 ∈ usesOf { tRoot [] with others := [{ tMe with key := 2, posted := [tP .store 8 none] }] } 1 := by decide
/-- A posted prefetch is such an access too, at the core that translated it (R249, R251). -/
theorem test_tlbsd_prefetch : 3 ∈ usesOf { tRoot [] with prefq := [(0x80, 1, 3)] } 1 := by decide
theorem test_holder_drops : let s := { tRoot [] with shoots := [⟨1, 1, 1, 0x2000, 0x3000, [0]⟩] }
    (0 ∈ ([0] : List Nat)) ∧ holderUses s 0 1 = false := by decide
/-- The bank unit of channel 4 drops: a command of DID 1 that used page 4 under the generation before. -/
def tMet : BankCmd := { tBc .zero 0 0 [] with chunks := [⟨0x4000, 0, 0, [(0x4000, 4096, 0)], 0, 0, 0, []⟩] }
theorem test_unit_drops : let s := { tRoot [] with
      shoots := [⟨1, 1, 1, 0x4000, 0x5000, [4096 + channelOf 0x4000]⟩]
      bank := [tMet] }
    (4096 + channelOf 0x4000 ∈ [4096 + channelOf 0x4000]) ∧ 4096 ≤ 4096 + channelOf 0x4000 ∧ 4096 + channelOf 0x4000 < 5000 ∧ holderUses s (4096 + channelOf 0x4000) 1 = false
      ∧ bankMeets tMet 1 1 0x4000 0x5000 = true ∧ s.bank[0]? = some tMet ∧ channelOf 0x4000 = (4096 + channelOf 0x4000) - 4096 := by decide
/-- RangeInstructions: no bytes, one line, the most bytes, and more. -/
theorem test_range : rangeTrap tSt .read (rangePages 0x2000 64) = none ∧ rangeTrap tSt .write (rangePages 0x2000 8192) = none ∧ acked tSt .sys = true ∧ (∀ p ∈ rangePages 0x2000 8192, stalls tSt (BitVec.ofNat 64 p) = false)
    ∧ 0x80 ∈ rangeLines tSt .read 0x2000 1 ∧ 2 ^ 24 < 2 ^ 24 + 1 ∧ 0x2000 + 2 ^ 24 ≤ 2 ^ 64
    ∧ checkVa tSt 0 1 (64 * 0x80) .read false = .ok 0x2000 := by decide

/-! ### Launches, regions, dispatch and seating -/

/-- A template at 0x40 of the scratchpad: entry 0x1000, one strand, a YDL of 64, the region at 0x2000 and a completion word at 0x2C00. -/
def tPkt (entry : Nat) : Nat := entry + 1 * 2 ^ 128 + 0x2000 * 2 ^ 256 + 64 * 2 ^ 320 + 0x2C00 * 2 ^ 448
def tLau (budget used pls : Nat) (recs : List Record) : State :=
  { tRegion budget used (fun m => { m with s := regs [(2, 0xFFFFFFFFFFFC0040), (4, 3)] }) with
      mem := memPut (tRegion budget used id).mem (spadKey 0 0x40) (leBytes 64 (tPkt 0x1000))
      doms := [(1, { PkgDom.reset with
        ranges := [(0, 1), (0, 0), (0, 0), (0, 0)]
        pls := pls
        pstate := 1 })]
      records := recs }
def tRi (s : State) : RInfo := okGet ⟨0, 0, [], false, none, 0, 0, false, 0, 0, 0, 0⟩ (regionInfo s 1 0x2000)
def tRecd (n : Nat) (ind : Bool) : Record := ⟨1, 0, 1, 1, pktOf (tPkt 0x1000), n, ind, 0, if ind then none else some n, 0, 0⟩
theorem test_issues_launch : Issues (launchIssue .always 3 2 4 false) (tLau 0 0 4 []) (tLau 0 0 4 []) ∧ Issues (launchIssue .always 3 2 4 true) (tLau 0 0 4 []) (tLau 0 0 4 []) :=
  ⟨issues_of rfl, issues_of rfl⟩
theorem test_launch : InScratchpad (tLau 0 0 4 []) 0xFFFFFFFFFFFC0040 64 0x40 ∧ poisonedAt (tLau 0 0 4 []) (spadKey 0 0x40) 64 = false
    ∧ regionInfo (tLau 0 0 4 []) 1 (BitVec.ofNat 64 ((pktOf (memVal (tLau 0 0 4 []).mem (spadKey 0 0x40) 64)).getD 4 0)) = .ok (tRi (tLau 0 0 4 [])) :=
  ⟨⟨rfl, by decide, rfl, rfl, rfl, rfl⟩, rfl, ok_of _ (by decide)⟩
theorem sound_of {s : State} (h : regionInfo s 1 0x2000 = .ok (tRi s)) (m : (tRi s).malformed = false) (r : s.regions = []) (l : s.l2 = []) : SoundRegion s 1 0x2000 where
  formed := by
    intro ri e
    rw [h] at e
    cases e
    exact m
  known := by
    intro ri e x hx
    simp [regionRec, r] at hx
  agrees := by
    intro x hx
    simp [l] at hx
theorem test_sound : SoundRegion (tLau 0 0 4 []) 1 0x2000 := sound_of (ok_of _ (by decide)) (by decide) rfl rfl
theorem test_launch_valid : let p := pktOf (memVal (tLau 0 0 4 []).mem (spadKey 0 0x40) 64)
    p.getD 0 0 % 2 = 0 ∧ p.getD 4 0 % 64 = 0 ∧ pktValid p = true ∧ (tRi (tLau 0 0 4 [])).malformed = false ∧ boundDid (tLau 0 0 4 []) (tRi (tLau 0 0 4 [])) = some 0
      ∧ pktValid (p.set 2 0) = false := by decide
/-- Room in the share, none; an exhausted region; a count of zero with a completion word; a record waiting. -/
theorem test_launch_room : exhaustedInfo (tLau 0 0 4 []) 1 (tRi (tLau 0 0 4 [])) = false ∧ exhaustedInfo (tLau 1 5 4 []) 1 (tRi (tLau 1 5 4 [])) = true
    ∧ shareUsed (tLau 0 0 4 []) 0 1 < 4 ∧ 1 ≤ shareUsed (tLau 0 0 1 [tRecd 3 false]) 0 1 ∧ acked (tLau 0 0 4 []) .pkg = true
    ∧ devCheck (tLau 0 0 4 []) 1 0x2C00 .write = .ok 0x2C00 ∧ 0x2C00 % 64 + 8 ≤ 64 ∧ (homeLine (tLau 0 0 4 []) (0x2C00 / 64)).length = 64 := by decide
/-- What the region says of itself can be read; in an interval, with its RCB in no slice, it cannot (R262). -/
theorem test_launch_readable : regionReadable (tLau 0 0 4 []) 1 0x2000 = true ∧ regionReadable { tLau 0 0 4 [] with gtc := 2 ^ 22 + 5000 } 1 0x2000 = false := by decide
/-- Every store of the strand is acknowledged, at every scope (R173). -/
theorem test_launch_acked : acked (tLau 0 0 4 []) .sys = true ∧ (tLau 0 0 4 []).live = true ∧ pktValid (pktOf (tPkt 0x1000)) = true := by decide
theorem test_launch_waits : let s := { tMod (fun m => { m with
      wait := .launch
      wreg := 3 }) with parked := [(1, tRecd 3 false)] }
    kget? s.parked s.me.key = some (tRecd 3 false) ∧ shareUsed s 0 1 < (domOf s 1).pls ∧ s.me.wait = .launch ∧ s.me.seat ≠ .none ∧ s.me.dead = false := by decide
/-- A region known to the Maltsters, with a task of three gangs; a record of an unread count at 0x2C08. -/
def tR (ready cur : Option Nat) : Region := ⟨0x2000, 0x2000, 1, 0, 1, 0, ready, 0, 0, cur, [], 0, 0, false, false, true, 0⟩
def tT : Task := ⟨9, 1, 0, 1, 0, 0x2000, 0, none, pktOf (tPkt 0x1000), 3, none, 4, [], 0, 0, [], none, 0, false⟩
def tMalt (ready cur : Option Nat) (recs : List Record) : State := { tLau 0 0 4 recs with
  regions := [tR ready cur]
  tasks := [tT] }
theorem test_dispatch : (tMalt (some 0) (some 9) []).tasks.find? (fun t => t.id == 9) = some tT ∧ tT.allSent = false ∧ headRecord (tMalt (some 0) (some 9) []) (tR (some 0) (some 9)) = none
    ∧ placement (tMalt (some 0) (some 9) []) 0 1 tT.pkt = .core 0 := by decide
theorem test_dispatch_region : regionInfo (tMalt (some 0) (some 9) []) 1 0x2000 = .ok (tRi (tMalt (some 0) (some 9) [])) := ok_of _ (by decide)
theorem test_dispatch_full : placement { tMalt (some 0) (some 9) [] with cores := [(0, { tCore with runq := List.replicate 64 (.saved 7) })] } 0 1 tT.pkt = .full := by decide
theorem test_launch_word : (∃ s1 v tm, devRead (tMalt none none []) 1 (0x2000 + 0x80) 24 0 = .ok (s1, v, tm)) ∧ regionRec (tMalt none none []) 0x2000 = some (tR none none) :=
  ⟨⟨_, _, _, ok_of (tSt, 0, 0) (by decide)⟩, by decide⟩
/-- A region that its chain binds to DID 1; one bound to DID 0, which has another page there. -/
theorem test_launch_bound : let s := { tMalt none none [] with mem := memPut (tMalt none none []).mem 0x2009 [1] }
    (regionInfo s 1 0x2000).toBool = true ∧ boundDid s (tRi s) = some 1 ∧ regionRec s (tRi s).pa = some (tR none none) := by decide
theorem test_launch_elsewhere : let s := { tMalt none none [] with
      doms := (0, { PkgDom.reset with ranges := [(0x200000, 1), (0, 0), (0, 0), (0, 0)] }) :: (tMalt none none []).doms
      tlb := ⟨walker, 0, 0, 0x2000, 4096, 0x203000, 0x0D⟩ :: (tMalt none none []).tlb }
    boundDid s (tRi s) = some 0 ∧ (regionInfo s 1 0x2000).toBool = true ∧ (regionInfo s 0 0x2000).toBool = true ∧ (tRi s).pa = 0x2000
      ∧ (okGet (tRi s) (regionInfo s 0 0x2000)).pa = 0x203000 := by decide
theorem test_launch_word_new : let v := (okGet (tSt, 0, 0) (devRead { tMalt none none [] with regions := [] } 1 (0x2000 + 0x80) 24 0)).2.1
    bits v 63 0 ≤ bits v 127 64 ∧ regionRec { tMalt none none [] with regions := [] } (tRi { tMalt none none [] with regions := [] }).pa = none := by decide
/-- Entries published by one read of the launch word, and one more at a later read: each keeps its time (R165, R169). -/
theorem test_publications : let x := { tR none none with pub := 2, pubs := [(2, 7)] }
    pubTime x 1 = 7 ∧ (∃ p ∈ x.pubs, 1 < p.1) ∧ (∀ p ∈ x.pubs, p.1 ≤ 2) ∧ x.pub < 3 ∧ (0x2000#64).toNat % 64 = 0 := by decide
theorem test_dependences : (∃ v ok tm, readDeps (tMalt none none []) (tR none none) (tRi (tMalt none none [])).rcb (bits ((tRi (tMalt none none [])).rcb.getD 1 0) 34 32) 0 = .ok (v, ok, tm))
    ∧ (readDeps (tMalt none none []) (tR none none) (List.replicate 24 4) 1 0).toBool = false := ⟨⟨_, _, _, ok_of (tSt, false, 0) (by decide)⟩, by decide⟩
theorem test_count_read : headRecord (tMalt (some 0) none [tRecd 0x2C08 true]) (tR (some 0) none) = some (tRecd 0x2C08 true) := by decide
theorem test_count_value : ∃ v n tm, devRead (tMalt (some 0) none [tRecd 0x2C08 true]) 1 (BitVec.ofNat 64 0x2C08) 8 0 = .ok (v, n, tm) ∧ n = 0 :=
  ⟨_, _, _, ok_of (tSt, 0, 0) (by decide), by decide⟩
theorem test_no_aging : ((tMalt (some 0) (some 9) []).gtc - 0) / 2 ^ 20 ≤ (tR (some 0) (some 9)).boost := by decide
theorem test_aging : (tMalt (some 0) none []).gtc < 0 + 2 ^ 20 * ((tR (some 0) none).boost + 1) ∧ 0 + 2 ^ 20 * ((tR (some 0) none).boost + 1) ≤ 2 ^ 20 := by decide
theorem test_dispatch_open : resetting (tMalt (some 0) (some 9) []) 1 = false ∧ resetting (tMalt (some 0) (some 9) []) ((boundDid (tMalt (some 0) (some 9) []) (tRi (tMalt (some 0) (some 9) []))).getD 1) = false
    ∧ resetting (tMalt (some 0) (some 9) []) tT.did = false := by decide
/-- The region of a dispatch is well formed and not exhausted, its identifiers free; a region of the highest priority does not age. -/
theorem test_dispatch_sound : (tRi (tMalt (some 0) (some 9) [])).malformed = false ∧ regionExhausted (tMalt (some 0) (some 9) []) 1 0x2000 = false
    ∧ (5 % 2 ^ 32 ≠ 0 ∧ 5 % 2 ^ 32 ∉ gidsUsed { tMalt (some 0) (some 9) [] with nextGid := 5 }) ∧ (tRi (tMalt (some 0) (some 9) [])).prio + 6 < 7 ∧ 7 ≤ (tRi (tMalt (some 0) (some 9) [])).prio + 7 := by decide
/-- SEAT_ENTRY: no entry, a gang, a migrated strand, a saved strand with its area. -/
def tSeat (q : List RunEntry) (o : List Strand) : State := { tRegion 0 0 id with
  cores := [(0, { tCore with runq := q })]
  others := o }
theorem test_seat : (domOf tSt 1).pstate ≠ 2 ∧ exposed (tSeat [] []) 0 = true ∧ wsCopy (tSeat [] []) 0 1 = false ∧ oldestOf (tSeat [] []) (coreOf (tSeat [] []) 0).runq 1 = none
    ∧ oldestOf (tSeat [.gang 1 (pktOf (tPkt 0x1000)) 4 7 9] []) [.gang 1 (pktOf (tPkt 0x1000)) 4 7 9] 1 = some (.gang 1 (pktOf (tPkt 0x1000)) 4 7 9)
    ∧ bits ((pktOf (tPkt 0x1000)).getD 2 0) 15 0 ≤ (freeSlots (tSeat [] []) 0 1).length := by decide
def tAway (area : Option Nat) : Strand := { tMe with
  key := 2
  sid := 2
  seat := .none
  area := area }
theorem test_seat_migrated : oldestOf (tSeat [.migrated 2] [tAway none]) [.migrated 2] 1 = some (.migrated 2) ∧ 1 ≤ (freeSlots (tSeat [.migrated 2] [tAway none]) 0 1).length := by decide
theorem test_seat_strands : strandOf (tSeat [.migrated 2] [tAway none]) 2 = some (tAway none) ∧ strandOf (tSeat [.saved 2] [tAway (some 0x4000)]) 2 = some (tAway (some 0x4000)) := ⟨rfl, rfl⟩
theorem test_seat_saved : oldestOf (tSeat [.saved 2] [tAway (some 0x4000)]) [.saved 2] 1 = some (.saved 2)
    ∧ modeCode (savedMode (tSeat [.saved 2] [tAway (some 0x4000)]) (tAway (some 0x4000))) ≤ modeCode (coreOf (tSeat [.saved 2] [tAway (some 0x4000)]) 0).mode := by decide
/-- No copy into the weight store is under way for the DID that the saved strand runs under (R227). -/
theorem test_seat_copies : wsCopy (tSeat [.saved 2] [tAway (some 0x4000)]) 0 (tAway (some 0x4000)).did = false := by decide
theorem test_seat_ready : reseatReady (tSeat [.saved 2] [tAway (some 0x4000)]) 2 = true := by decide
theorem test_seat_restores : ∃ w u, restoreFrom (takeSlots (updCore (tSeat [.saved 2] [tAway (some 0x4000)]) 0 (fun cs => { cs with runq := dropEntry cs.runq (.saved 2) })) 0 1
      [(freeSlots (tSeat [.saved 2] [tAway (some 0x4000)]) 0 1).headD 0]) (tAway (some 0x4000))
    (tAway (some 0x4000)).did 0x4000 = .ok (w, u) := ⟨_, _, ok_of (tSt, tMe) (by decide)⟩

/-! ### Events at an instruction boundary, the calendar -/

theorem test_async : let s := tMod (fun m => { m with async := [(.xlate, 5)] })
    s.me.async = (.xlate, 5) :: [] ∧ (s.me.wait = .none ∨ s.me.wait = .retry) ∧ s.live = true ∧ Cause.xlate ≠ .staleXlate ∧ Cause.xlate ≠ .poison := by decide
/-- Between two instructions, and in the middle of one (R28). -/
theorem test_between : Between tSt ∧ Between (tMod (fun m => { m with wait := .retry })) ∧ (let s := tMod (fun m => { m with wait := .retry, pre := some ⟨0, [], [], []⟩ })
    s.me.wait = .retry ∧ s.me.pre ≠ none) := ⟨⟨rfl, .inl rfl⟩, ⟨rfl, .inr ⟨.inl rfl, rfl⟩⟩, rfl, by decide⟩
/-- An instruction that is tried again stands at its boundary too. -/
theorem test_tried_again : (tMod (fun m => { m with wait := .again, async := [(.xlate, 5)] })).me.wait = .again ∧ CanTrap (tMod (fun m => { m with wait := .again, async := [(.xlate, 5)] })) :=
  ⟨rfl, by decide, rfl, by decide⟩
theorem test_overruns : (tMod (fun m => { m with ydl := 0 })).me.ydl = 0 ∧ (let s := { tMod (fun m => { m with
      ydl := 0
      seat := .handler
      caller := some 2 }) with others := [tAway none] }
    s.me.seat = .handler ∧ s.me.caller = some 2 ∧ 2 ≠ s.me.key) := by decide
theorem test_overrun_caller : ({ tSt with others := [tAway none] } : State).others.find? (fun x => x.key == 2) = some (tAway none) := rfl
/-- On a bank core a YDL of 0 waits for the instruction; outside an interval the state of a handler of traps is saved at once. -/
theorem test_bank_overrun : let s := tMod (fun m => { m with seat := .bank 4 0, ydl := 0 })
    onBank s = true ∧ s.me.ydl = 0 ∧ Between s ∧ inInterval s.gtc = false := ⟨rfl, rfl, ⟨rfl, .inl rfl⟩, rfl⟩
theorem test_bank_waits : (tPost .store 8 none).me.posted ≠ [] ∧ tSt.me.posted = [] ∧ (∀ p ∈ tSt.packets, p.1.key ≠ tSt.me.key) := by decide
theorem test_bank_seat : (tMod (fun m => { m with seat := .bank 511 7 })).me.seat = .bank 511 7 ∧ (tMod (fun m => { m with seat := .bank 511 7 })).me.th = false := by decide
/-- Each event of the calendar at its tick: the ends and starts about the slots at 2^14 and 2^22. -/
def tCal (mark gtc : Nat) : State := { tSt with
  calMark := mark
  gtc := gtc }
theorem test_calendar_due : calDue (tCal 49023 49024) = some .drain ∧ calDue (tCal 49151 49152) = some .minor ∧ calDue (tCal 33407 33408) = some .done
    ∧ calDue (tCal 4194303 4194304) = some .major ∧ calDue (tCal 40000 40001) = none := by decide
theorem test_times_low : timesHigh { State.reset with gtc := 4194304, calMark := 4194303 } = false :=
  decide_eq_false (fun h => h (by simp [mapTimes, strandTimes, State.reset, Strand.reset]))
theorem test_times_high : timesHigh { tCal 4194303 4194304 with me := { tMe with tck := 2 ^ 47 + 1 } } = true :=
  decide_eq_true (fun h => absurd (congrArg (fun s => s.me.tck) h) (by decide))
theorem test_slot_plain : (tCal 49151 49152).health.overrun = [] ∧ (∀ x ∈ (tCal 49151 49152).regions, x.failed = true) := by decide
/-- The regions of a minor slot that have all failed, one of them known by its RCB alone. -/
theorem test_slot_regions : let s := { tMalt none none [] with regions := [{ tR none none with failed := true }] }
    (∀ x ∈ s.regions, x.failed = true) ∧ (s.regions.map (fun r => r.pa)).Nodup ∧ (regionInfo s 1 0x2000).toBool = true := by decide
/-- A port that is down as the slot starts, and one that is up. -/
theorem test_slot_ports : let s := { tCal 4194303 4194304 with ports := [(3, Port.reset), (4, { Port.reset with up := true })] }
    (∃ e ∈ s.ports, e.2.up = false) ∧ (∃ e ∈ s.ports, e.2.up = true) ∧ calDue s = some .major := ⟨⟨(3, Port.reset), by decide, rfl⟩, ⟨(4, { Port.reset with up := true }), by decide, rfl⟩, by decide⟩
theorem test_spare : (let h := { tSt.health with pending := [5] }; h.pending = [5] ∧ 0 < h.spares.getD (5 / 1024) 0) ∧ (tCal 0 0).regions = [] := by decide

/-! ### Resets, partition registers, sets, bias, interrupts -/

theorem test_partition_reset : let s := { tSt with resets := [⟨1, 6, 1, []⟩] }
    s.resets.find? (fun r => r.did == 1) = some ⟨1, 6, 1, []⟩ ∧ ((strands s).map (fun m => m.key)).Nodup ∧ (domOf s 1).rrn = 0 ∧ (domOf s 1).resrec % 64 = 0 ∧ namesDram (domOf s 1).resrec = true
      ∧ tSt.resets.find? (fun r => r.did == 1) = none := by decide
/-- No reset of the DID asked for; a unit's users; fewer cores waiting than spares, and as many. -/
theorem test_reset_asked : tSt.resets.any (fun r => r.did == 1) = false ∧ (domOf tSt 1).pstate = 1 ∧ pendingOn tSt 0 < tSt.health.spares.getD 0 0
    ∧ ({ tSt.health with spares := [0, 0, 0, 0] } : Health).spares.getD 0 0 ≤ pendingOn { tSt with health := { tSt.health with spares := [0, 0, 0, 0] } } 0
    ∧ (∃ d ∈ bankUsers { tSt with banks := [(4, { BankSt.reset with doms := [(1, { DomCore.reset with bslots := 0xFF })] })] } 4, d ≠ 0)
    ∧ (∃ d ∈ sliceUsers { tSt with sets := [(1, 0x80000000)] } 0, d ≠ 0) := by
  refine ⟨by decide, by decide, by decide, by decide, ⟨1, by decide, by decide⟩, ⟨1, by decide, by decide⟩⟩
theorem test_fatal : (topoOf tSt 0).present = true ∧ (topoOf { tSt with topo := [(0, { Topo.reset 0 with present := false })] } 0).present = false ∧ 0 < tSt.health.spares.getD 0 0
    ∧ tSt.health.spares.getD 5 0 = 0 ∧ (∃ d ∈ coreUsers tSt 0, d ≠ 0) := by refine ⟨by decide, by decide, by decide, by decide, 1, by decide, by decide⟩
theorem test_owners : OwnersOk tSt 0 := ⟨rfl, rfl, by decide, by decide⟩
theorem test_shares : SharesOk tSt 0 1 := ⟨by decide, by decide, by decide, by decide, by decide, by decide, by decide, by decide⟩
theorem test_register_values : (4#64).toNat % 16 = 4 ∧ ¬ (4 ≤ (3#64).toNat % 16 ∧ (3#64).toNat % 16 ≤ 12) ∧ (0 < modeSlots (coreOf tSt 0).mode - 1)
    ∧ (List.range 21).foldl (fun a e => a + if e = 1 then 64 else (domCore tSt 0 e).mbox) 0 ≤ 64 ∧ 64 < (List.range 21).foldl (fun a e => a + if e = 1 then 65 else (domCore tSt 0 e).strq) 0 := by decide
/-- SetsBiasAndInterrupts: a legal range and one past the sets; WARN; a page of DID 1 with a bitmap at 0x10000; an interrupt of function 1. -/
theorem test_set_range : bits (0x80090000#64).toNat 19 16 = 9 ∧ bits (0x80090000#64).toNat 8 0 % 2 ^ 9 = 0 ∧ 9 < bits (0xA0000#64).toNat 19 16
    ∧ (∀ j < 32, j ≠ 1 → bit (kget tSt.sets (0 * 32 + j) 0) 31 = true → 0 + 2 ^ 9 ≤ bits (kget tSt.sets (0 * 32 + j) 0) 8 0) := by decide
def tBias : State := { tSt with
  doms := [(1, { PkgDom.reset with
    ranges := [(0, 1), (0, 0), (0, 0), (0, 0)]
    biastab := 0x10000 })]
  host := { State.reset.host with
    ld := [(0, 1)]
    vf := [(1, 1)] } }
/-- An interrupt of vector 0 of function 1; a delay that has expired, one that has not; a masked vector. -/
theorem test_interrupt_at : bits (1#64).toNat 26 16 ≤ (Config.msixLast 1).val ∧ (let d (g : Nat) := { PkgDom.reset with ctime := 10, mstart := some g, msi := [(1, 0)] }
    (d 39360).mstart = some 39360 ∧ 39360 + 64 * (d 39360).ctime ≤ tSt.gtc ∧ tSt.gtc < 39361 + 64 * (d 39361).ctime) ∧ ([(1, 0)] : List (Nat × Nat)).contains (1, 0) = true := by
  refine ⟨Nat.zero_le _, by decide, by decide⟩
theorem test_flip : CanFlip tBias 1 0x2000 := ⟨rfl, rfl, by decide, by decide, by decide, by decide, by decide, rfl, by decide⟩
theorem test_flip_host : kget? tBias.host.ld 0 = some 1 ∧ hdmPa (2 * 4096) (domOf tBias 1).ranges = some 0x2000 ∧ kget? tBias.host.ld 17 = none := by decide
theorem test_interrupt : funcDid tBias 1 = some tBias.me.did ∧ bits (1#64).toNat 15 10 = 0 ∧ bits (1#64).toNat 63 27 = 0 ∧ funcDid tBias 2 ≠ some tBias.me.did
    ∧ (domOf { tSt with doms := [(1, { PkgDom.reset with msi := [(1, 0)] })] } 1).msi ≠ [] := by decide

/-! ### The host, other packages, the package as a whole -/

theorem test_host : HostAt tBias 0 0 0x2000 8 1 0x2000 := ⟨rfl, by decide, by decide, by decide, by decide, by decide, by decide⟩
/-- A host access in an interval, whose home is in no slice; a write behind one that waits; the oldest access that waits, once its home is ready. -/
def tHostQ (q : List HostAcc) (gtc : Nat) : State := { tBias with
  gtc := gtc
  host := { tBias.host with queue := q } }
def tAcc : HostAcc := ⟨1, 0, 0, 0x2000, 8, some (List.replicate 8 1), false⟩
theorem test_host_waits : (hostPieces (tHostQ [] (2 ^ 22 + 5000)) 0 0 0x2000 8).any (fun x => x.2.contains (0x2000, 8)) = true ∧ homeReady (tHostQ [] (2 ^ 22 + 5000)) (0x2000 / 64) = false
    ∧ (∃ b ∈ (tHostQ [tAcc] 40000).host.queue, b.data.isSome = true ∧ b.relaxed = false ∧ b.fn = 1 ∧ b.port = 0) ∧ hostWaits (tHostQ [tAcc] 40000) [] tAcc = false
    ∧ (tHostQ [] 40000).host.queue = [] := by
  refine ⟨by decide, by decide, ⟨tAcc, by decide, by decide, rfl, rfl, rfl⟩, by decide, rfl⟩
theorem test_host_ahead : NoneAhead tBias 0 0 false ∧ ¬ NoneAhead (tHostQ [tAcc] 40000) 1 0 false := by
  constructor
  · exact .inr (fun b hb => by cases hb)
  · rintro (h | h)
    · cases h
    · exact h tAcc (List.mem_singleton.mpr rfl) rfl rfl rfl rfl
theorem test_host_outside : hostPieces tBias 0 1 0 8 = none ∧ poisonedAt tBias 0x2000 8 = false ∧ poisonedAt { tBias with poison := [0x80] } 0x2000 8 = true
    ∧ (homeLine tBias 0x80).length = 64 := by decide
theorem test_bindings : (∀ e ∈ tBias.host.ld, e.1 ≠ 31 → e.1 / 16 = 31 / 16 → e.2 ≠ 20) ∧ (∃ e ∈ tBias.host.ld, e.1 ≠ 15 ∧ e.1 / 16 = 15 / 16 ∧ e.2 = 1)
    ∧ 8 < tBias.host.lanes.getD 1 0 := by decide
/-- PackagesAndBoot: a port that is up outside a major slot; sixteen failed replays; messages admitted, refused and seen. -/
def tPeer : State := { tBias with
  ports := [(0, { Port.reset with
    up := true
    failed := 16 })]
  seen := [(3, 1)]
  peers := [(256, 0x8000000300000000)] }
theorem test_ports : (portOf tPeer 0).up = true ∧ inMajor tPeer.gtc = false ∧ 16 ≤ (portOf tPeer 0).failed ∧ (portOf tPeer 143).failed < 16 := by decide
theorem test_messages : tPeer.seen.contains (3, 1) = true ∧ tPeer.seen.contains (3, 2) = false ∧ isReply (.load 8) = false
    ∧ homeReady tPeer (0x2000 / 64) = true ∧ poisonedAt tPeer 0x2000 8 = false := by decide
/-- The replays of a port; a new message in and outside a major slot, whose home is ready or waits; a barrier whose phase has not completed. -/
theorem test_port_replays : (let p := { Port.reset with up := true, failed := 15, replay := true }
    p.failed + 1 = 16 ∧ { p with replay := false }.failed < 16) ∧ inMajor (2 ^ 22 + 5000) = true := by decide
def tMsg (op : RemoteOp) : RemoteMsg := ⟨3, 2, 1, 5, 0, 0x2000, op⟩
theorem test_new_message : NewMessage tPeer (tMsg (.load 8)) ∧ NewMessage { tPeer with gtc := 2 ^ 22 + 5000 } (tMsg (.load 8)) ∧ inMajor tPeer.gtc = false := by
  refine ⟨⟨by decide, ?_⟩, ⟨by decide, ?_⟩, by decide⟩ <;> (intro x hx; cases hx)
theorem test_message_places : peerOk tPeer (tMsg (.load 8)) = true ∧ peerOk tPeer { tMsg (.load 8) with rdid := 7 } = false ∧ homeReady { tPeer with gtc := 2 ^ 22 + 5000 } (0x2000 / 64) = false
    ∧ phaseDone (homeVal tPeer 0x2000 32) 0 = false ∧ isReply (.barw 0) = false ∧ (∀ x ∈ tPeer.inbox, x.src ≠ 3) := by decide
theorem test_boot : ({ State.reset with boot := { State.reset.boot with recovery := true } } : State).boot.recovery = true ∧ State.reset.boot.leaf < 2 ^ 20
    ∧ Instr.nop .always ≠ .packageReset true := by decide

/-! ### The whole machine -/

/-- StepRunsDecoded: an instruction boundary, a LI at the pc, YDL at 0, an unmapped pc. -/
def tAt (pc : Word) (ydl : Nat) : State := { tMod (fun m => { m with
  pc := pc
  ydl := ydl }) with mem := memPut [] 0x1000 [0x05, 0x81, 0xFF, 0xFF] }
theorem test_at_turn : AtTurn (tAt 0x1000 64) := ⟨rfl, rfl, by decide, rfl, rfl, .inl rfl, by decide, .inl rfl, by decide⟩
/-- The state and the word that a fetch gives. -/
def fetched (r : WordRead) (d : State) : State × Half :=
  match r with
  | .ok t w => (t, w)
  | _ => (d, 0)
theorem fetched_of {r : WordRead} (d : State) {w : Half} (h : (match r with
    | .ok _ x => x == w
    | _ => false) = true) : r = .ok (fetched r d).1 w := by
  cases r with
  | ok t x => simp at h; simp [fetched, h]
  | fault c v => simp at h
  | stall => simp at h
/-- The states of the fetch: a LI of one word. -/
theorem test_fetch : fetchWord (tAt 0x1000 64) 0x1000 = .ok (fetched (fetchWord (tAt 0x1000 64) 0x1000) (tAt 0x1000 64)).1 0x8105 ∧ decode [0x8105#16] = .ok (.li .always (.s 1) 5) 1
    ∧ decode [] = .short ∧ decode [0xFFFF#16] = .illegal 0xFFFF ∧ mustEnd (tAt 0x1000 64).me = false ∧ mustEnd { tMe with ending := some (0, 3, false) } = true :=
  ⟨fetched_of _ (by decide), rfl, rfl, rfl, rfl, rfl⟩
/-- An instruction in the middle of which the strand stands, kept with its words. -/
theorem test_kept : let s := { tAt 0x1000 64 with me := { (tAt 0x1000 64).me with wait := .again, pre := some ⟨0, [], [], [0x8105#16]⟩ } }
    AtTurn s ∧ mustEnd s.me = false ∧ decode [0x8105#16] = .ok (.li .always (.s 1) 5) 1 := ⟨⟨rfl, rfl, by decide, rfl, rfl, .inr rfl, by decide, .inl rfl, by decide⟩, rfl, rfl⟩
/-- A fetch outside every page, an illegal word, and a walk that waits in a maintenance slot. -/
theorem test_fetch_not : (match fetchWord (tAt 0x6000 64) 0x6000 with
      | .fault _ _ => true
      | _ => false) = true ∧ L2Agrees (tAt 0x1000 64)
    ∧ (match fetchWord { tAt 0x6000 64 with gtc := 2 ^ 22 + 5000 } 0x6000 with
      | .stall => true
      | _ => false) = true := by
  refine ⟨by decide, ?_, by decide⟩
  intro l h
  cases h
/-- IssueRules: a register beyond the mode, a pending token, a guard that fails, a handler, a bank core, an obligation not met. -/
theorem test_issue_rules : ¬ (16 < modeS (modeOfStrand tSt tSt.me)) ∧ 3 ∈ (tMod (fun m => { m with pend := [3] })).me.pend ∧ guardOk tSt (.when false 5) = false
    ∧ (tMod (fun m => { m with seat := .handler })).me.seat = .handler ∧ onBank (tMod (fun m => { m with seat := .bank 4 0, ydl := 0 })) = true ∧ (tMod (fun m => { m with seat := .bank 4 0, ydl := 0 })).me.ydl = 0
    ∧ (meetFences { tPost .store 8 none with me := { (tPost .store 8 none).me with fencex := [⟨.pkg, .core, .core, [7], [], 0⟩] } } [.core]).isNone = true := by decide
theorem test_issue_of : issueOf tSt (.slotset .always 2) = some (sysIssue .always [2] [] .ill [.core]) ∧ issueOf tSt .tret = some (sysIssue .always [] [] .run []) ∧ issueOf tSt .intervalEnd = none := ⟨rfl, rfl, rfl⟩
/-- Frames: an instruction that touches registers only, and a next state. -/
theorem test_register_only : registerOnly (.add .always (.s 3) (.s 2) (.s 4)) = true ∧ registerOnly (.vAdd .always 1 2 3) = true ∧ registerOnly (.ldD .always (.s 3) (.s 1) 0) = false := ⟨rfl, rfl, rfl⟩
theorem test_frame_steps : (∃ t, exec (.add .always (.s 3) (.s 2) (.s 4)) tSt = .next t) ∧ (∃ t, exec (.ldD .always (.s 3) (.s 1) 0) tSt = .next t)
    ∧ (∃ t, exec (.stD .always (.s 2) (.s 0) 0) tSt = .next t) := ⟨⟨_, rfl⟩, ⟨_, rfl⟩, ⟨_, rfl⟩⟩
/-- MemoryStaysCanonical: a state in which a step answers a next state. -/
theorem test_step_next : memOk (tAt 0x1000 64) ∧ ∃ t, step (tAt 0x1000 64) = .next t := ⟨by unfold memOk; decide, _, rfl⟩

/-! ### Single steps, with results by hand from the rules -/

/-- What a step or an instruction leaves, or `d` if it stops. -/
def after {α : Type} (o : Host.Outcome State Fault Refusal) (d : α) (f : State → α) : α :=
  match o with
  | .next t => f t
  | _ => d
/-- A word placed as the host places it: LI s1, 5 is the first instruction after reset. -/
theorem test_place_li : after (step (State.reset.withFetchWord 16 0x8105)) 0 (fun t => t.me.s.getD 1 0) = 5 ∧ after (step (State.reset.withFetchWord 16 0x8105)) 0 (fun t => t.me.pc) = 0x1002 := by decide
/-- R80: the sum wraps. R81: an arithmetic shift by 63. R87: a remainder by zero is the dividend. -/
theorem test_add_wraps : after (exec (.add .always (.s 3) (.s 4) (.s 4)) tSt) 9 (fun t => t.me.s.getD 3 9) = 0 := by decide
theorem test_sra : after (exec (.sraImm .always 4 63) tSt) 0 (fun t => t.me.s.getD 4 0) = 0xFFFFFFFFFFFFFFFF := by decide
theorem test_rem_zero : after (exec (.rem .always (.s 3) (.s 2) (.s 6)) tSt) 0 (fun t => t.me.s.getD 3 0) = 5 := by decide
/-- R94, R5: the low byte lies lowest; LD.B extends the sign. -/
theorem test_store_load : after (exec (.stD .always (.s 5) (.s 0) 0) tSt) 0 (fun t => after (exec (.ldB .always (.s 3) (.s 0) 7) t) 0 (fun u => u.me.s.getD 3 0)) = 0xFFFFFFFFFFFFFFFF := by decide
theorem test_byte_order : after (exec (.stW .always (.s 2) (.s 0) 0) tSt) 0 (fun t => memVal t.mem (spadKey 0 0x40) 1) = 5 := by decide
/-- R103: 1.0 + 1.0 is 2.0. R108: FP32 of 5 is 5.0. -/
theorem test_fadd : after (exec (.fadd .always (.s 2) (.s 1) (.s 1)) tF) 0 (fun t => t.me.s.getD 2 0) = 0x40000000 := by decide
theorem test_fcvt : after (exec (.fcvtF32S64 .always (.s 3) (.s 2)) tSt) 0 (fun t => t.me.s.getD 3 0) = 0x40A00000 := by decide
/-- R27, R36: TRAP raises BREAK, 0x11, with NextPC saved. -/
theorem test_trap : after (exec (.trap .always 7) tSt) 0 (fun t => t.me.tcause) = 0x11 ∧ after (exec (.trap .always 7) tSt) 0 (fun t => t.me.tpc) = 0x1002
    ∧ after (exec (.trap .always 7) tSt) 0 (fun t => t.me.pc) = 0x8000 := by decide
/-- R203: AMO.D MIN of 0 and −1 at 0x2000 writes −1 and answers 0. -/
theorem test_amo_min : after (exec (.amoD .always .relaxed .core .min 3 1 5) tSt) 0 (fun t => homeVal t 0x2000 8) = 0xFFFFFFFFFFFFFFFF := by decide
/-- R14, R59, R397: a vector register beyond the mode is ILLEGAL on a bank core too, before its return trap. -/
theorem test_bank_vector : after (exec (.vAdd .always 5 1 2) (tMod (fun m => { m with seat := .bank 4 0 }))) 0 (fun t => t.me.tcause) = 0x01 := by decide
/-- R24, R397: on a bank core with YDL at 0 a LDQ of a scratchpad window is sent back, and an ADD ends the strand. -/
theorem test_bank_order : let s := tMod (fun m => { m with seat := .bank 4 0, ydl := 0 })
    after (exec (.ldq .always 2 (.s 0) 0) s) 0 (fun t => t.packets.length) = 1 ∧ after (exec (.add .always (.s 3) (.s 2) (.s 2)) s) 9 (fun t => t.packets.length + b2n t.live) = 0 := by decide
/-- R29, R93: a store from a queue of another DID to an odd address takes MISALIGN. -/
theorem test_store_ranks : after (exec (.stD .always (.q 0) (.s 2) 0) { tSt with cores := [(0, { tCore with doms := [] })] }) 0 (fun t => t.me.tcause.toNat) = causeCode .misalign := by decide
/-- R268: a store performed at the home leaves the core's copy with the line's data of that time, another core's bytes among them. -/
theorem test_store_copy : let s := { tPost .store 8 none with
      cores := [(0, { tCore with l1 := [⟨1, 0x80, 2, 9, List.replicate 64 1⟩] })]
      lines := [(0x80, ⟨2, 9, 1⟩)]
      mem := memPut [] 0x2008 [7] }
    after (exec (.storeHomePerform 1 7) s) [] (fun t => (coreOf t 0).l1.map (fun l => (l.data.getD 0 0, l.data.getD 8 0, l.data.getD 9 0))) = [(5, 7, 0)] := by decide
/-- R356: TSTAT of a register whose token is outstanding reads 0 and does not wait, its destination pending or not. -/
theorem test_tstat : after (exec (.tstat .always 3 3) (tMod (fun m => { m with pend := [3], s := regs [(3, 9)] }))) 9 (fun t => t.me.s.getD 3 9) = 0 := by decide
/-- R97, R78: a load that traps on poison leaves the queue from which it would have popped its base. -/
theorem test_load_poison_pop : let s := { tSt with
      poison := [spadKey 0 0x40 / 64]
      cores := [(0, { tCore with queues := (Vector.replicate 8 []).setIfInBounds 0 [(0xFFFFFFFFFFFC0040, 3)] })] }
    after (exec (.ldD .always (.s 3) (.q 0) 0) s) ([], 0) (fun t => ((coreOf t 0).queues.getD 0 [], t.me.tcause.toNat)) = ([(0xFFFFFFFFFFFC0040, 3)], causeCode .poison) := by decide
/-- R151, R152: VLOG2 of −1.0 is NaN; VRCP of 2.0 is 0.5. -/
theorem test_special_results : special log2Of false 0xBF800000 = 0x7FC00000 ∧ special rcpOf false 0x40000000 = 0x3F000000 := by decide

end Sys2Proof.Tests
end

section
/-! PROOFS. Control flow, compares and predicate instructions (R82, R83, R85, R98 to R102, R107). -/

namespace Sys2Proof.Machine

/-- A branch target as the machine adds it and as the statements count it (R98). -/
theorem add_wInt (x : Word) (k : Int) : x + wInt k = BitVec.ofInt 64 (x.toNat + k) := by
  rw [BitVec.ofInt_add, BitVec.ofInt_natCast, BitVec.ofNat_toNat, BitVec.setWidth_eq]
  rfl

/-- A word whose bit 0 is clear is even. -/
theorem even_of_getLsbD_zero {x : Word} (h : x.getLsbD 0 = false) : x.toNat % 2 ≠ 1 := by
  rw [← BitVec.testBit_toNat, Nat.testBit_zero] at h
  simpa using h

/-- J, with its target counted from the PC (R99). -/
theorem exec_j_next {g : Guard} {s u : State} (imm : Int) (h : Issues (scalar g [] []) s u) :
    exec (.j g imm) s = .next (retireTo u (BitVec.ofInt 64 (u.me.pc.toNat + 2 * imm))) := by
  rw [exec_j, execJ, issue_next _ h, add_wInt]
  rfl

/-- B p.n is taken where the bit is set and falls through elsewhere (R98). -/
theorem exec_bTrue_next {g : Guard} {a : PBit} {s u : State} (imm : Int) (h : Issues (scalar g [] []) s u) :
    exec (.bTrue g a imm) s
      = .next (if pbit u a.val = true then retireTo u (BitVec.ofInt 64 (u.me.pc.toNat + 2 * imm)) else goesOn s u) := by
  rw [exec_bTrue, execBTrue, issue_next _ h, add_wInt]
  cases pbit u a.val <;> rfl

/-- B !p.n is taken where the bit is clear and falls through elsewhere (R98). -/
theorem exec_bFalse_next {g : Guard} {a : PBit} {s u : State} (imm : Int) (h : Issues (scalar g [] []) s u) :
    exec (.bFalse g a imm) s
      = .next (if pbit u a.val = false then retireTo u (BitVec.ofInt 64 (u.me.pc.toNat + 2 * imm)) else goesOn s u) := by
  rw [exec_bFalse, execBFalse, issue_next _ h, add_wInt]
  cases pbit u a.val <;> rfl

/-- JAL puts its link where the destination accepts it, and jumps (R100). -/
theorem exec_jal_next {g : Guard} {a : SOp} {s u : State} (imm : Int) (h : Op1Ready g a s u) :
    exec (.jal g a imm) s = .next (retireTo (putOp u a u.nextPc) (BitVec.ofInt 64 (u.me.pc.toNat + 2 * imm))) := by
  obtain ⟨hi, ha⟩ := h
  rw [exec_jal, execJal, issue_next _ hi, withWrite_eq _ ha, add_wInt]
  rfl

/-- JR goes to an even address (R101). -/
theorem exec_jr_next {g : Guard} {a : SOp} {s u : State} {x : Word} (h : Cmp1Ready g a s u x) (hx : x.getLsbD 0 = false) :
    exec (.jr g a) s = .next (retireTo u x) := by
  rw [exec_jr, execJr, cmp1_next _ h, if_neg (even_of_getLsbD_zero hx)]
  rfl

/-- Settles O7: each form issues, and its body gives the address it goes to. -/
theorem controlFlow : Obligations.ControlFlow :=
  ⟨fun _ imm _ _ h => exec_j_next imm h,
   fun _ _ imm _ _ h => ⟨exec_bTrue_next imm h, exec_bFalse_next imm h⟩,
   fun _ _ imm _ _ h => exec_jal_next imm h,
   fun _ _ _ _ _ h hx => exec_jr_next h hx,
   fun _ _ _ h => issue_next _ h⟩

/-! ### Predicate bits (R15) -/

/-- P[31] reads 1. -/
@[simp] theorem pbit_31 (s : State) : pbit s 31 = true := rfl

/-- Below 31 a predicate bit is the bit of the predicate word. -/
theorem pbit_of_ne {s : State} {n : Nat} (h : n ≠ 31) : pbit s n = s.me.p.getLsbD n := by
  simp [pbit, h]

/-- A predicate bit written changes that bit of the predicate word and no other. -/
theorem setPbit_getLsbD {s : State} {n m : Nat} (b : Bool) (hn : n < 31) (hm : m < 32) :
    (setPbit s n b).me.p.getLsbD m = if m = n then b else s.me.p.getLsbD m := by
  have hmask : (BitVec.ofNat 32 (2 ^ n)).getLsbD m = decide (n = m) := by
    rw [BitVec.getLsbD_ofNat, Nat.testBit_two_pow, decide_eq_true hm, Bool.true_and]
  rw [setPbit, if_neg (by omega), updMe_me]
  generalize BitVec.ofNat 32 (2 ^ n) = mask at hmask
  by_cases h : m = n
  · subst h
    cases b <;> simp [hmask, hm]
  · rw [decide_eq_false (Ne.symm h), BitVec.getLsbD_eq_getElem hm] at hmask
    cases b <;> simp [hmask, hm, h]

/-- A predicate bit written reads back, and the others read as before; a write of P[31] is discarded. -/
theorem pbit_setPbit (s : State) (n m : Fin 32) (b : Bool) :
    pbit (setPbit s n.val b) m.val = if m = n ∧ n ≠ 31 then b else pbit s m.val := by
  by_cases hn : n = 31
  · subst hn
    simp [setPbit]
  · have hn' : n.val ≠ 31 := fun h => hn (Fin.ext h)
    by_cases hm : m = 31
    · subst hm
      simp [pbit, Ne.symm hn]
    · have hm' : m.val ≠ 31 := fun h => hm (Fin.ext h)
      rw [pbit_of_ne hm', pbit_of_ne hm', setPbit_getLsbD b (by omega) m.isLt]
      simp [Fin.ext_iff, hn]

/-- A predicate bit written leaves the scalar registers alone. -/
theorem setPbit_scalars (s : State) (n : Nat) (b : Bool) : (setPbit s n b).me.s = s.me.s := by
  unfold setPbit; split <;> rfl

/-- The bits of 31 bits of a number under a bit 31 that is set: the word that MFP reads and MTP writes (R85). -/
theorem testBit_predWord (x i : Nat) : (x % 2 ^ 31 + 2 ^ 31).testBit i = (decide (i = 31) || decide (i < 31) && x.testBit i) := by
  rw [Nat.add_comm]
  rcases Nat.lt_trichotomy i 31 with h | h | h
  · rw [Nat.testBit_two_pow_add_gt h, Nat.testBit_mod_two_pow]
    simp [h, Nat.ne_of_lt h]
  · subst h
    rw [Nat.testBit_two_pow_add_eq, Nat.testBit_mod_two_pow]
    simp
  · have hlt : 2 ^ 31 + x % 2 ^ 31 < 2 ^ i :=
      calc 2 ^ 31 + x % 2 ^ 31 < 2 ^ 32 := by omega
        _ ≤ 2 ^ i := Nat.pow_le_pow_right (by decide) h
    rw [Nat.testBit_lt_two_pow hlt]
    simp [Nat.ne_of_gt h, Nat.not_lt.2 (Nat.le_of_lt h)]

/-- MFP reads the predicate word, bit 31 as 1 (R85). -/
theorem exec_mfp_next {g : Guard} {a : SOp} {s u : State} (h : Op1Ready g a s u) :
    exec (.mfp g a) s = .next (writes s u a (w64 (u.me.p.toNat % 2 ^ 31 + 2 ^ 31))) := by
  rw [exec_mfp]
  exact op1_next (fun s => w64 (s.me.p.toNat % 2 ^ 31 + 2 ^ 31)) h

/-- The word MFP reads, bit by bit. -/
theorem getLsbD_mfpWord (u : State) {i : Nat} (hi : i < 64) :
    (w64 (u.me.p.toNat % 2 ^ 31 + 2 ^ 31)).getLsbD i = (decide (i < 32) && pbit u i) := by
  rw [w64, BitVec.getLsbD_ofNat, testBit_predWord, BitVec.testBit_toNat]
  rcases Nat.lt_trichotomy i 31 with h | h | h
  · simp [pbit, hi, h, Nat.ne_of_lt h, Nat.lt_succ_of_lt h]
  · subst h; simp
  · simp [Nat.ne_of_gt h, Nat.not_lt.2 (Nat.le_of_lt h), Nat.not_lt.2 (Nat.succ_le_of_lt h)]

/-- MTP writes P[30:0] and sets the bit above them (R85). -/
theorem exec_mtp_next {g : Guard} {a : SOp} {s u : State} {x : Word} (h : Cmp1Ready g a s u x) :
    exec (.mtp g a) s = .next (goesOn s { u with me := { u.me with p := BitVec.ofNat 32 (x.toNat % 2 ^ 31 + 2 ^ 31) } }) := by
  rw [exec_mtp, execMtp, cmp1_next _ h]
  rfl

/-- The predicate word MTP writes, bit by bit. -/
theorem getLsbD_mtpWord (x : Word) {i : Nat} (hi : i < 32) :
    (BitVec.ofNat 32 (x.toNat % 2 ^ 31 + 2 ^ 31)).getLsbD i = (decide (i = 31) || decide (i < 31) && x.getLsbD i) := by
  rw [BitVec.getLsbD_ofNat, testBit_predWord, BitVec.testBit_toNat, decide_eq_true hi, Bool.true_and]

/-! ### Compares (R82, R107) -/

/-- Each integer condition, as the order of integers or of naturals it tests. -/
theorem condHolds_eqs {n : Nat} (x y : BitVec n) :
    condHolds .eq x y = decide (x = y) ∧ condHolds .ne x y = decide (x ≠ y)
      ∧ condHolds .lt x y = decide (x.toInt < y.toInt) ∧ condHolds .ltu x y = decide (x.toNat < y.toNat)
      ∧ condHolds .ge x y = decide (y.toInt ≤ x.toInt) ∧ condHolds .geu x y = decide (y.toNat ≤ x.toNat) :=
  ⟨beq_eq_decide x y, by rw [condHolds, bne, beq_eq_decide, ← decide_not], rfl, rfl, BitVec.sle_eq_not_slt.symm, (BitVec.ule_eq_not_ult y x).symm⟩

/-- CMP with an immediate, its condition in another spelling. -/
theorem exec_cmpImm_gives {g : Guard} {a : PBit} {b : SOp} {imm : Int} {k : Cond} {s u : State} {x : Word} {v : Bool}
    (hv : condHolds k x (BitVec.ofInt 64 imm) = v) (h : Cmp1Ready g b s u x) :
    exec (.cmpImm g a b imm k) s = .next (goesOn s (setPbit u a.val v)) := by
  subst hv
  rw [exec_cmpImm, execCmpImm, cmp1_next _ h]
  rfl

/-- Settles O6: the compares by their condition, the predicate forms by their body at issue, MFP and MTP by the bits of their words. -/
theorem predicates : Obligations.Predicates := by
  refine ⟨⟨?cmpReg, ?cmpImm, ?fcmp, fun _ _ _ _ _ h => issue_next _ h, fun _ _ _ _ _ h => issue_next _ h,
    fun _ _ _ _ _ h => issue_next _ h, fun _ _ _ _ _ h => issue_next _ h, fun _ _ _ _ _ h => issue_next _ h,
    fun _ _ _ _ _ h => issue_next _ h, ?mfp, ?mtp⟩, ?bits⟩
  case cmpReg =>
    intro g a b c s u x y h
    obtain ⟨heq, hne, hlt, hltu, hge, hgeu⟩ := condHolds_eqs x y
    exact ⟨opPred_gives _ heq h, opPred_gives _ hne h, opPred_gives _ hlt h, opPred_gives _ hltu h, opPred_gives _ hge h,
      opPred_gives _ hgeu h⟩
  case cmpImm =>
    intro g a b imm s u x h y hy
    subst hy
    obtain ⟨heq, hne, hlt, hltu, hge, hgeu⟩ := condHolds_eqs x (BitVec.ofInt 64 imm)
    exact ⟨exec_cmpImm_gives heq h, exec_cmpImm_gives hne h, exec_cmpImm_gives hlt h, exec_cmpImm_gives hltu h, exec_cmpImm_gives hge h,
      exec_cmpImm_gives hgeu h⟩
  case fcmp =>
    intro g a b c s u x y h
    exact ⟨opPred_gives _ rfl h, opPred_gives _ rfl h, opPred_gives _ rfl h, opPred_gives _ rfl h⟩
  case mfp => exact fun g a s u h => ⟨_, exec_mfp_next h, fun i hi => getLsbD_mfpWord u hi⟩
  case mtp =>
    intro g a s u x h
    refine ⟨_, exec_mtp_next h, getLsbD_mtpWord x (by decide), fun i hi => ?_⟩
    rw [getLsbD_mtpWord x (Nat.lt_succ_of_lt hi)]
    simp [hi, Nat.ne_of_lt hi]
  case bits =>
    exact fun s n m b => ⟨pbit_31 s, pbit_setPbit s n m b, setPbit_scalars s n.val b, setPbit_mem s n.val b⟩

end Sys2Proof.Machine
end

section
/-! PROOFS. The three-operand integer forms (R80, R84, R86 to R89). -/

namespace Sys2Proof.Machine

/-- A form that is `op3` of one function claims that function's values. -/
theorem gives3_of_op3 {mk : Guard → SOp → SOp → SOp → Instr} {f F : State → Word → Word → Word}
    (hmk : ∀ g a b c, exec (mk g a b c) = op3 g a b c f) (hF : ∀ u x y, f u x y = F u x y) : Gives3 mk F :=
  fun g a b c _ u x y h => by rw [hmk, op3_gives _ (hF u x y) h]

/-- A form that is `op2` of one function claims what holds of that function's values. -/
theorem gives2P_of_op2 {mk : Guard → SOp → SOp → Instr} {f : State → Word → Word} {P : Word → Word → Prop}
    (hmk : ∀ g a b, exec (mk g a b) = op2 g a b f) (hP : ∀ u x, P x (f u x)) : Gives2P mk P :=
  fun g a b _ u x h => ⟨f u x, by rw [hmk, op2_next f h], hP u x⟩

/-- The low six bits of a word, which a rotate or a bit field reads (R89, R91). -/
theorem wbits_5_0 (y : Word) : wbits y 5 0 = y.toNat % 64 := by
  simp [wbits, bits]

/-- A product of words, by their numbers. -/
theorem mul_eq_ofNat (x y : Word) : x * y = BitVec.ofNat 64 (x.toNat * y.toNat) :=
  BitVec.eq_of_toNat_eq (by rw [BitVec.toNat_mul, BitVec.toNat_ofNat])

/-- The signed "less than" of MIN and MAX as a choice (R88). -/
theorem ite_slt {α : Type} (x y : Word) (p q : α) : (if x.slt y then p else q) = if x.toInt < y.toInt then p else q := by
  simp only [BitVec.slt, decide_eq_true_eq]

/-- The unsigned "less than" of MINU and MAXU as a choice (R88). -/
theorem ite_ult {α : Type} (x y : Word) (p q : α) : (if x.ult y then p else q) = if x.toNat < y.toNat then p else q := by
  simp only [BitVec.ult, decide_eq_true_eq]

/-! ### Division (R87) -/

/-- The signed quotient by zero is all ones. -/
@[simp] theorem divS_zero (x : Word) : divS x 0#64 = BitVec.allOnes 64 := if_pos rfl

/-- The signed remainder by zero is the dividend. -/
@[simp] theorem remS_zero (x : Word) : remS x 0#64 = x := if_pos rfl

/-- The signed quotient by a non-zero divisor truncates toward zero, modulo 2^64. -/
theorem divS_of_ne {x y : Word} (h : y ≠ 0) : divS x y = x.sdiv y := by
  rw [divS, if_neg h]
  exact BitVec.eq_of_toInt_eq (by rw [wInt, BitVec.toInt_ofInt, BitVec.toInt_sdiv])

/-- The signed remainder by a non-zero divisor has the sign of the dividend. -/
theorem remS_of_ne {x y : Word} (h : y ≠ 0) : remS x y = x.srem y := by
  rw [remS, if_neg h, wInt, ← BitVec.toInt_srem, BitVec.ofInt_toInt]

/-- The identity of R87, in 64-bit wrapping arithmetic, for every pair of operands. -/
theorem divS_mul_add_remS (x y : Word) : x = divS x y * y + remS x y := by
  by_cases h : y = 0
  · subst h; simp
  · rw [divS, remS, if_neg h, if_neg h]
    have hy : y = wInt y.toInt := BitVec.ofInt_toInt.symm
    calc x = wInt x.toInt := BitVec.ofInt_toInt.symm
      _ = wInt (x.toInt.tdiv y.toInt * y.toInt + x.toInt.tmod y.toInt) := by rw [Int.tdiv_mul_add_tmod]
      _ = wInt (x.toInt.tdiv y.toInt) * y + wInt (x.toInt.tmod y.toInt) := by
        conv_rhs => rw [hy]
        simp only [wInt, BitVec.ofInt_add, BitVec.ofInt_mul, BitVec.ofInt_toInt]

/-- Away from −2^63 by −1 the signed quotient is the truncated one. -/
theorem toInt_divS {x y : Word} (h0 : y ≠ 0) (h : ¬ (x = BitVec.ofInt 64 (-(2 ^ 63)) ∧ y = BitVec.allOnes 64)) :
    (divS x y).toInt = x.toInt.tdiv y.toInt := by
  rw [divS_of_ne h0]
  apply BitVec.toInt_sdiv_of_ne_or_ne
  exact Classical.or_iff_not_imp_left.2 (fun hx hy => h ⟨Classical.not_not.1 hx, hy⟩)

/-- The signed remainder is what the truncated quotient leaves. -/
theorem toInt_remS {x y : Word} (h : y ≠ 0) : (remS x y).toInt = x.toInt - x.toInt.tdiv y.toInt * y.toInt := by
  rw [remS_of_ne h, BitVec.toInt_srem, Int.tmod_def, Int.mul_comm]

/-- The unsigned quotient, its zero divisor told by its number. -/
theorem divU_eq (x y : Word) : divU x y = if y.toNat = 0 then BitVec.allOnes 64 else BitVec.ofNat 64 (x.toNat / y.toNat) :=
  if_congr BitVec.toNat_eq rfl rfl

/-- The unsigned remainder, its zero divisor told by its number. -/
theorem remU_eq (x y : Word) : remU x y = if y.toNat = 0 then x else BitVec.ofNat 64 (x.toNat % y.toNat) :=
  if_congr BitVec.toNat_eq rfl rfl

/-- DIV and REM, with the quotient and the remainder that R87 describes. -/
theorem exec_div_rem {g : Guard} {a b c : SOp} {s u : State} {x y : Word} (h : Op3Ready g a b c s u x y) :
    exec (.div g a b c) s = .next (writes s u a (divS x y)) ∧ exec (.rem g a b c) s = .next (writes s u a (remS x y)) :=
  ⟨op3_next _ h, op3_next _ h⟩

/-- At −2^63 by −1 the quotient is −2^63 and the remainder 0 (R87). -/
theorem div_overflow : divS (BitVec.ofInt 64 (-(2 ^ 63))) (BitVec.allOnes 64) = BitVec.ofInt 64 (-(2 ^ 63))
    ∧ remS (BitVec.ofInt 64 (-(2 ^ 63))) (BitVec.allOnes 64) = 0 := by decide

/-- Settles O1: every form completes (`op3_next`), and its result is respelt; DIV and REM by the identity of R87 and its corner cases. -/
theorem integerForms : Obligations.IntegerForms := by
  refine ⟨⟨?add, ?sub, ?and, ?or, ?xor, ?sel, ?mul, ?mulh, ?mulhu, ?min, ?max, ?minu, ?maxu, ?rol, ?ror⟩, ?div, ?divu, ?remu⟩
  case add => exact gives3_of_op3 exec_add fun _ _ _ => rfl
  case sub => exact gives3_of_op3 exec_sub fun _ _ _ => rfl
  case and => exact gives3_of_op3 exec_and fun _ _ _ => rfl
  case or => exact gives3_of_op3 exec_or fun _ _ _ => rfl
  case xor => exact gives3_of_op3 exec_xor fun _ _ _ => rfl
  case sel => exact fun n => gives3_of_op3 (fun g a b c => exec_sel g a b c n) fun _ _ _ => rfl
  case mul => exact gives3_of_op3 exec_mul fun _ x y => mul_eq_ofNat x y
  case mulh => exact gives3_of_op3 exec_mulh fun _ _ _ => rfl
  case mulhu => exact gives3_of_op3 exec_mulhu fun _ _ _ => rfl
  case min => exact gives3_of_op3 exec_min fun _ x y => ite_slt x y x y
  case max => exact gives3_of_op3 exec_max fun _ x y => ite_slt x y y x
  case minu => exact gives3_of_op3 exec_minu fun _ x y => ite_ult x y x y
  case maxu => exact gives3_of_op3 exec_maxu fun _ x y => ite_ult x y y x
  case rol => exact gives3_of_op3 exec_rol fun _ x y => congrArg x.rotateLeft (wbits_5_0 y)
  case ror => exact gives3_of_op3 exec_ror fun _ x y => congrArg x.rotateRight (wbits_5_0 y)
  case div =>
    intro g a b c s u x y h
    obtain ⟨hdiv, hrem⟩ := exec_div_rem h
    refine ⟨divS x y, remS x y, hdiv, hrem, divS_mul_add_remS x y, ?zero, ?overflow, ?truncates⟩
    case zero =>
      rintro rfl
      exact ⟨divS_zero x, remS_zero x⟩
    case overflow =>
      rintro rfl rfl
      exact div_overflow
    case truncates => exact fun h0 ho => ⟨toInt_divS h0 ho, toInt_remS h0⟩
  case divu => exact gives3_of_op3 exec_divu fun _ x y => divU_eq x y
  case remu => exact gives3_of_op3 exec_remu fun _ x y => remU_eq x y

end Sys2Proof.Machine
end

section
/-! PROOFS. Counts, reversals, extensions, bit fields and carry-less products (R90 to R92). -/

namespace Sys2Proof.Machine

/-! ### Counts (R90) -/

/-- The leading zeros of a word below 2^64: the word has no bit above them, and the bit below them. -/
theorem clz64_spec {x : Nat} (hx : x < 2 ^ 64) : clz64 x ≤ 64 ∧ x < 2 ^ (64 - clz64 x) ∧ (clz64 x < 64 → 2 ^ (63 - clz64 x) ≤ x) := by
  unfold clz64
  split
  · next h => subst h; simp
  · next h =>
    have hlog : x.log2 < 64 := (Nat.log2_lt h).2 hx
    refine ⟨by omega, ?_, fun _ => ?_⟩
    · rw [show 64 - (63 - x.log2) = x.log2 + 1 by omega]
      exact Nat.lt_log2_self
    · rw [show 63 - (63 - x.log2) = x.log2 by omega]
      exact Nat.log2_self_le h

/-- The bit below the leading zeros is set. -/
theorem testBit_clz64 {x : Nat} (hx : x < 2 ^ 64) (h : clz64 x < 64) : x.testBit (63 - clz64 x) = true := by
  obtain ⟨_, hlt, hge⟩ := clz64_spec hx
  exact Nat.testBit_of_two_pow_le_and_two_pow_add_one_gt (hge h) (by rwa [show 63 - clz64 x + 1 = 64 - clz64 x by omega])

/-- The low n bits reversed are n bits. -/
theorem brevN_lt (n x : Nat) : brevN n x < 2 ^ n := by
  induction n generalizing x with
  | zero => exact Nat.one_pos
  | succ n ih =>
    have hlow : x % 2 * 2 ^ n ≤ 1 * 2 ^ n := Nat.mul_le_mul_right _ (by omega)
    have := ih (x / 2)
    rw [brevN, Nat.pow_succ]
    omega

/-- Bit i of the low n bits reversed is bit n − 1 − i. -/
theorem testBit_brevN {n i : Nat} (x : Nat) (hi : i < n) : (brevN n x).testBit i = x.testBit (n - 1 - i) := by
  induction n generalizing x with
  | zero => omega
  | succ n ih =>
    rw [brevN, Nat.mul_comm, Nat.testBit_two_pow_mul_add _ (brevN_lt n _)]
    split
    · next h => rw [ih _ h, Nat.testBit_div_two, show n - 1 - i + 1 = n + 1 - 1 - i by omega]
    · next h =>
      obtain rfl : i = n := by omega
      simp [Nat.testBit_zero]

/-- Only zero is zero reversed. -/
theorem brevN_eq_zero {n x : Nat} (hx : x < 2 ^ n) : brevN n x = 0 ↔ x = 0 := by
  induction n generalizing x with
  | zero => simpa [brevN] using hx
  | succ n ih =>
    have hpos : 2 ^ n ≠ 0 := Nat.two_pow_pos n |>.ne'
    rw [brevN, Nat.add_eq_zero_iff, ih (by omega), Nat.mul_eq_zero, or_iff_left hpos]
    omega

/-- The trailing zeros of a word: its lowest bits up to there are clear, and the next one is set. -/
theorem ctz64_spec {x : Nat} (hx : x < 2 ^ 64) :
    ctz64 x ≤ 64 ∧ (∀ i < ctz64 x, x.testBit i = false) ∧ (ctz64 x < 64 → x.testBit (ctz64 x) = true) := by
  have hctz : ctz64 x = clz64 (brevN 64 x) := by
    simp only [ctz64, clz64, brevN_eq_zero hx]
  obtain ⟨hle, hlt, _⟩ := clz64_spec (brevN_lt 64 x)
  have htop := testBit_clz64 (brevN_lt 64 x)
  rw [← hctz] at hle hlt htop
  generalize ctz64 x = n at hle hlt htop
  refine ⟨hle, fun i hi => ?_, fun hn => ?_⟩
  · have hbit := testBit_brevN x (n := 64) (i := 63 - i) (by omega)
    rw [Nat.testBit_lt_two_pow (Nat.lt_of_lt_of_le hlt (Nat.pow_le_pow_right (by decide) (by omega)))] at hbit
    rw [hbit, show 64 - 1 - (63 - i) = i by omega]
  · have hbit := testBit_brevN x (n := 64) (i := 63 - n) (by omega)
    rwa [htop hn, show 64 - 1 - (63 - n) = n by omega, eq_comm] at hbit

/-- The ones among the low n bits. -/
theorem popcount_eq (n x : Nat) : popcount n x = ((List.range n).filter (fun i => x.testBit i)).length := by
  induction n generalizing x with
  | zero => rfl
  | succ n ih =>
    have htail : (List.range n).filter ((fun i => x.testBit i) ∘ Nat.succ) = (List.range n).filter (fun i => (x / 2).testBit i) :=
      List.filter_congr fun i _ => Nat.testBit_succ x i
    rw [popcount, ih, List.range_succ_eq_map, List.filter_cons, List.filter_map, htail]
    rcases Nat.mod_two_eq_zero_or_one x with h | h <;> simp [h, Nat.add_comm]

/-! ### Bytes (R5, R90) -/

/-- Byte i of the value of some bytes. -/
theorem leVal_byte (l : List Byte) (i : Nat) : BitVec.ofNat 8 (leVal l / 256 ^ i) = l.getD i 0 := by
  induction l generalizing i with
  | nil => simp [leVal]
  | cons b bs ih =>
    cases i with
    | zero =>
      refine BitVec.eq_of_toNat_eq ?_
      simp [leVal, Nat.add_mul_mod_self_left, Nat.mod_eq_of_lt b.isLt]
    | succ i =>
      have hdiv : leVal (b :: bs) / 256 = leVal bs := by
        have := b.isLt
        rw [leVal]
        omega
      rw [Nat.pow_succ', ← Nat.div_div_eq_div_mul, hdiv, ih, List.getD_cons_succ]

/-- Eight bytes make a word. -/
theorem leVal_lt (l : List Byte) : leVal l < 256 ^ l.length := by
  induction l with
  | nil => simp [leVal]
  | cons b bs ih =>
    have := b.isLt
    rw [leVal, List.length_cons, Nat.pow_succ']
    omega

/-- Byte i of a word, taken out of it. -/
theorem extractLsb'_byte (x : Word) (i : Nat) : x.extractLsb' (8 * i) 8 = BitVec.ofNat 8 (x.toNat / 256 ^ i) := by
  refine BitVec.eq_of_toNat_eq ?_
  rw [BitVec.extractLsb'_toNat, BitVec.toNat_ofNat, Nat.shiftRight_eq_div_pow, Nat.pow_mul]

/-- BSWAP puts byte 7 − i where byte i was. -/
theorem bswap_byte (x : Word) {i : Nat} (hi : i < 8) :
    (w64 (leVal (leBytes 8 x.toNat).reverse)).extractLsb' (8 * i) 8 = x.extractLsb' (8 * (7 - i)) 8 := by
  have hlt : leVal (leBytes 8 x.toNat).reverse < 2 ^ 64 := by
    have := leVal_lt (leBytes 8 x.toNat).reverse
    rwa [List.length_reverse, leBytes_length] at this
  have hget : (leBytes 8 x.toNat).reverse.getD i 0 = (leBytes 8 x.toNat).getD (7 - i) 0 := by
    rw [List.getD_eq_getElem?_getD, List.getElem?_reverse (by rwa [leBytes_length]), leBytes_length, List.getD_eq_getElem?_getD]
  rw [extractLsb'_byte, extractLsb'_byte, w64, BitVec.toNat_ofNat, Nat.mod_eq_of_lt hlt, leVal_byte, hget,
    leBytes_get 8 _ _ (by omega)]

/-! ### Extensions (R38, R90) -/

/-- The low n bits of a number, sign-extended, are the bit vector of that width read as a signed number. -/
theorem sextN_eq (n x : Nat) : sextN n x = (BitVec.ofNat n x).toInt := by
  simp [sextN, BitVec.toInt]

/-- SEXT: the low n bits of a word, sign-extended. -/
theorem sext_eq (n : Nat) (x : Word) : sext n x.toNat = (x.truncate n).signExtend 64 := by
  rw [sext, sextN_eq, BitVec.ofNat_toNat]
  rfl

/-- ZEXT: the low n bits of a word, zero-extended. -/
theorem zext_eq (n : Nat) (x : Word) : w64 (x.toNat % 2 ^ n) = (x.truncate n).zeroExtend 64 :=
  BitVec.eq_of_toNat_eq (by simp [w64])

/-! ### Bit fields (R91) -/

/-- The low w bits of a number, as a mask takes them out of a word. -/
theorem bext_eq (x : Word) (p : Nat) {w : Nat} (hw : w ≤ 64) :
    w64 (x.toNat / 2 ^ p % 2 ^ w) = (x >>> p) &&& BitVec.ofNat 64 (2 ^ w - 1) := by
  have hmask : 2 ^ w - 1 < 2 ^ 64 := by
    have := Nat.pow_le_pow_right (n := 2) (by decide) hw
    omega
  have hfield : x.toNat / 2 ^ p % 2 ^ w < 2 ^ 64 :=
    Nat.lt_of_le_of_lt (Nat.le_trans (Nat.mod_le _ _) (Nat.div_le_self _ _)) x.isLt
  refine BitVec.eq_of_toNat_eq ?_
  rw [w64, BitVec.toNat_and, BitVec.toNat_ofNat, BitVec.toNat_ofNat, BitVec.toNat_ushiftRight, Nat.mod_eq_of_lt hmask,
    Nat.mod_eq_of_lt hfield, Nat.and_two_pow_sub_one_eq_mod, Nat.shiftRight_eq_div_pow]

/-- A mask of w bits at position p. -/
theorem fieldMask_eq (w p : Nat) : w64 ((2 ^ w - 1) * 2 ^ p) = BitVec.ofNat 64 (2 ^ w - 1) <<< p := by
  refine BitVec.eq_of_toNat_eq ?_
  rw [w64, BitVec.toNat_shiftLeft, BitVec.toNat_ofNat, BitVec.toNat_ofNat, Nat.shiftLeft_eq, Nat.mod_mul_mod]

/-- The position and the width of a bit field, by the number that gives them. -/
theorem fieldOf_eq (y : Word) :
    fieldOf y = (y.toNat % 64, min (min (y.toNat / 2 ^ 8 % 2 ^ 7) 64) (64 - y.toNat % 64)) := by
  rw [fieldOf, wbits_5_0]
  rfl

/-! ### Carry-less products (R92) -/

/-- The carry-less product over n bits of the second factor has at most 64 + n bits. -/
theorem clmulBits_lt {x : Nat} (hx : x < 2 ^ 64) (y n : Nat) : clmulBits x y n < 2 ^ (64 + n) := by
  induction n with
  | zero => exact Nat.two_pow_pos _
  | succ n ih =>
    have hup : 2 ^ (64 + n) ≤ 2 ^ (64 + (n + 1)) := Nat.pow_le_pow_right (by decide) (by omega)
    rw [clmulBits]
    refine Nat.xor_lt_two_pow (Nat.lt_of_lt_of_le ih hup) ?_
    split
    · refine Nat.lt_of_lt_of_le ?_ hup
      rw [Nat.pow_add]
      exact Nat.mul_lt_mul_of_pos_right hx (Nat.two_pow_pos n)
    · exact Nat.two_pow_pos _

/-- A bit of a number as the machine reads it. -/
theorem bit_eq_testBit (x i : Nat) : bit x i = x.testBit i := by
  rw [bit, Nat.testBit_eq_decide_div_mod_eq, beq_eq_decide]

/-- The product over 128 bits is the product over numbers. -/
theorem clmulUpTo_eq (x y : Word) (n : Nat) : clmulUpTo x y n = BitVec.ofNat 128 (clmulBits x.toNat y.toNat n) := by
  induction n with
  | zero => rfl
  | succ n ih =>
    rw [clmulUpTo, clmulBits, BitVec.ofNat_xor, ih, bit_eq_testBit, BitVec.testBit_toNat]
    congr 1
    split
    · refine BitVec.eq_of_toNat_eq ?_
      simp [Nat.shiftLeft_eq]
    · rfl

/-- CLMUL: the low half of the product. -/
theorem clmul_low (x y : Word) : w64 (clmul128 x.toNat y.toNat) = (clmulUpTo x y 64).truncate 64 := by
  rw [clmulUpTo_eq]
  exact BitVec.eq_of_toNat_eq (by simp [w64, clmul128])

/-- CLMULH: the high half of the product. -/
theorem clmul_high (x y : Word) : w64 (clmul128 x.toNat y.toNat / 2 ^ 64) = (clmulUpTo x y 64 >>> 64).truncate 64 := by
  have hlt : clmulBits x.toNat y.toNat 64 < 2 ^ 128 := clmulBits_lt x.isLt y.toNat 64
  rw [clmulUpTo_eq]
  refine BitVec.eq_of_toNat_eq ?_
  rw [BitVec.truncate_eq_setWidth, BitVec.toNat_setWidth, BitVec.toNat_ushiftRight, BitVec.toNat_ofNat, Nat.mod_eq_of_lt hlt,
    Nat.shiftRight_eq_div_pow]
  rfl

/-- Settles O2: every form completes, and its result is known by the lemma on its function. -/
theorem bitForms : Obligations.BitForms := by
  refine ⟨⟨?clz, ?ctz, ?popc, ?brev, ?bswap, ?sextB, ?sextH, ?sextW, ?zextB, ?zextH, ?zextW⟩, ?bext, ?bins, ?clmul, ?clmulh⟩
  case clz => exact gives2P_of_op2 exec_clz fun _ x => ⟨_, rfl, clz64_spec x.isLt⟩
  case ctz => exact gives2P_of_op2 exec_ctz fun _ x => ⟨_, rfl, ctz64_spec x.isLt⟩
  case popc => exact gives2P_of_op2 exec_popc fun _ x => congrArg w64 (popcount_eq 64 x.toNat)
  case brev =>
    refine gives2P_of_op2 exec_brev fun _ x i hi => ?_
    rw [w64, BitVec.getLsbD_ofNat, testBit_brevN _ hi, decide_eq_true hi, Bool.true_and, BitVec.testBit_toNat]
  case bswap => exact gives2P_of_op2 exec_bswap fun _ x i hi => bswap_byte x hi
  case sextB => exact gives2P_of_op2 exec_sextB fun _ x => sext_eq 8 x
  case sextH => exact gives2P_of_op2 exec_sextH fun _ x => sext_eq 16 x
  case sextW => exact gives2P_of_op2 exec_sextW fun _ x => sext_eq 32 x
  case zextB => exact gives2P_of_op2 exec_zextB fun _ x => zext_eq 8 x
  case zextH => exact gives2P_of_op2 exec_zextH fun _ x => zext_eq 16 x
  case zextW => exact gives2P_of_op2 exec_zextW fun _ x => zext_eq 32 x
  case bext =>
    refine gives3_of_op3 exec_bext fun _ x y => ?_
    rw [bext, fieldOf_eq]
    exact bext_eq x _ (by omega)
  case bins =>
    intro g a b c s u x y h
    refine opRmw3_gives _ ?_ h
    rw [bins, fieldOf_eq]
    simp only [fieldMask_eq]
  case clmul => exact gives3_of_op3 exec_clmul fun _ x y => clmul_low x y
  case clmulh => exact gives3_of_op3 exec_clmulh fun _ x y => clmul_high x y

end Sys2Proof.Machine
end

section
/-! PROOFS. Scalar FP32 arithmetic, minimum and maximum (R103 to R106). -/

namespace Sys2Proof.Machine

/-- RND.SAT is bit 3 of RND (R17). -/
theorem rndSat_eq (r : Word) : rndSat r = r.getLsbD 3 := by
  rw [rndSat, bit_eq_testBit, BitVec.testBit_toNat]

/-- The value of the FP32 code in the low half of a word (R103). -/
def lowF32 (x : Word) : Num := decodeNum .f32 (x.toNat % 2 ^ 32)

/-- Three-operand forms that round one exact result under RND. -/
theorem op3_rounds {g : Guard} {a b c : SOp} {s u : State} {x y : Word} (f : Fmt) (N : State → Word → Word → Num) (h : Op3Ready g a b c s u x y) :
    op3 g a b c (fun s x y => w64 (roundTo f (rndMode s.me.rnd) (rndSat s.me.rnd) (N s x y))) s
      = .next (writes s u a (BitVec.ofNat 64 (roundTo f (u.me.rnd.toNat % 8) (u.me.rnd.getLsbD 3) (N u x y)))) := by
  rw [op3_next _ h, rndSat_eq]
  rfl

/-- Two-operand forms that round one exact result under RND. -/
theorem op2_rounds {g : Guard} {a b : SOp} {s u : State} {x : Word} (f : Fmt) (N : Word → Num) (h : Op2Ready g a b s u x) :
    op2 g a b (fun s x => w64 (roundTo f (rndMode s.me.rnd) (rndSat s.me.rnd) (N x))) s
      = .next (writes s u a (BitVec.ofNat 64 (roundTo f (u.me.rnd.toNat % 8) (u.me.rnd.getLsbD 3) (N x)))) := by
  rw [op2_next _ h, rndSat_eq]
  rfl

/-- Forms that read their destination and round one exact result under RND. -/
theorem opRmw3_rounds {g : Guard} {a : SReg} {b c : SOp} {s u : State} {x y : Word} (f : Fmt) (N : State → Word → Word → Word → Num)
    (h : Rmw3Ready g a b c s u x y) :
    opRmw3 g a b c (fun s z x y => w64 (roundTo f (rndMode s.me.rnd) (rndSat s.me.rnd) (N s z x y))) s
      = .next (goesOn s (setSreg u a.val
          (BitVec.ofNat 64 (roundTo f (u.me.rnd.toNat % 8) (u.me.rnd.getLsbD 3) (N u (sreg u a.val) x y))))) := by
  rw [opRmw3_next _ h, rndSat_eq]
  rfl

/-! ### Division (R105) -/

/-- Without RND.SAT an infinity stays one. -/
theorem satInf_false (f : Fmt) (x y r : Num) (c : Nat) : satInf f false x y r c = c := by
  unfold satInf
  split <;> rfl

/-- Without RND.SAT a quotient is rounded and nothing else. -/
theorem divCode_noSat (f : Fmt) (mode a b : Nat) : divCode f mode false a b = roundTo f mode false (divNum (decodeNum f a) (decodeNum f b)) :=
  satInf_false _ _ _ _ _

/-- A non-zero number by zero is the only quotient of finite operands that is an infinity: any other is rounded and nothing else. -/
theorem divCode_exact {f : Fmt} {a b : Nat} (mode : Nat) (sat : Bool)
    (h : ∀ p n d q e, decodeNum f a = .fin p n d → decodeNum f b = .fin q 0 e → n = 0) :
    divCode f mode sat a b = roundTo f mode sat (divNum (decodeNum f a) (decodeNum f b)) := by
  unfold divCode
  generalize decodeNum f a = x at h
  generalize decodeNum f b = y at h
  cases x with
  | nan => rfl
  | inf p => rfl
  | fin p n d =>
    cases y with
    | nan => rfl
    | inf q => rfl
    | fin q m e =>
      by_cases hm : m = 0
      · subst hm
        obtain rfl : n = 0 := h p n d q e rfl rfl
        rfl
      · simp [divNum, hm, satInf]

/-- Under RND.SAT a non-zero number by zero is the largest finite value, with the sign of the quotient. -/
theorem divCode_sat {f : Fmt} {a b : Nat} (mode : Nat) {p q : Bool} {n d e : Nat} (ha : decodeNum f a = .fin p n d)
    (hb : decodeNum f b = .fin q 0 e) (hn : n ≠ 0) : divCode f mode true a b = signBit f (p != q) + maxCode f := by
  simp [divCode, ha, hb, divNum, hn, satInf]

/-- The largest finite FP32 value with the sign of a quotient. -/
theorem f32Max_signed (p q : Bool) : signBit .f32 (p != q) + maxCode .f32 = if p = q then 0x7F7FFFFF else 0xFF7FFFFF := by
  cases p <;> cases q <;> rfl

/-! ### The order of exact values (R107) -/

/-- A value that is below another, or has one below it, is no NaN. -/
theorem ltNum_noNan {x y : Num} (h : ltNum x y = true) : isNan x = false ∧ isNan y = false := by
  cases x <;> cases y <;> simp_all [ltNum, isNan]

/-- "Less" is one-sided. -/
theorem ltNum_asymm {x y : Num} (h : ltNum x y = true) : ltNum y x = false := by
  cases x <;> cases y <;> simp_all [ltNum]
  omega

/-- Of two values of which one is less, neither equals the other. -/
theorem eqNum_of_ltNum {x y : Num} (h : ltNum x y = true) : eqNum x y = false ∧ eqNum y x = false := by
  cases x <;> cases y <;> simp_all [ltNum, eqNum]
  omega

/-! ### Minimum and maximum (R106) -/

section
variable {f : Fmt} {a b : Nat}

/-- Two NaNs give the canonical NaN. -/
theorem minMaxCode_nan_nan (isMax : Bool) (ha : isNan (decodeNum f a) = true) (hb : isNan (decodeNum f b) = true) :
    minMaxCode f isMax a b = nanCode f := by
  simp [minMaxCode, ha, hb]

/-- A NaN as first operand gives the second. -/
theorem minMaxCode_nan_left (isMax : Bool) (ha : isNan (decodeNum f a) = true) (hb : isNan (decodeNum f b) = false) :
    minMaxCode f isMax a b = b := by
  simp [minMaxCode, ha, hb]

/-- A NaN as second operand gives the first. -/
theorem minMaxCode_nan_right (isMax : Bool) (ha : isNan (decodeNum f a) = false) (hb : isNan (decodeNum f b) = true) :
    minMaxCode f isMax a b = a := by
  simp [minMaxCode, ha, hb]

/-- Two operands of one code give that code. -/
theorem minMaxCode_self (isMax : Bool) (ha : isNan (decodeNum f a) = false) : minMaxCode f isMax a a = a := by
  simp [minMaxCode, ha]

/-- The lesser operand is the minimum and the other the maximum. -/
theorem minMaxCode_lt (h : ltNum (decodeNum f a) (decodeNum f b) = true) : minMaxCode f false a b = a ∧ minMaxCode f true a b = b := by
  obtain ⟨ha, hb⟩ := ltNum_noNan h
  simp [minMaxCode, ha, hb, h]

/-- The lesser operand is the minimum and the other the maximum, in either order. -/
theorem minMaxCode_gt (h : ltNum (decodeNum f b) (decodeNum f a) = true) : minMaxCode f false a b = b ∧ minMaxCode f true a b = a := by
  obtain ⟨hb, ha⟩ := ltNum_noNan h
  obtain ⟨_, heq⟩ := eqNum_of_ltNum h
  simp [minMaxCode, ha, hb, ltNum_asymm h, heq]

end

/-- −0 is below +0. -/
theorem minMaxCode_zeros : minMaxCode .f32 false 0x80000000 0 = 0x80000000 ∧ minMaxCode .f32 true 0x80000000 0 = 0
    ∧ minMaxCode .f32 false 0 0x80000000 = 0x80000000 ∧ minMaxCode .f32 true 0 0x80000000 = 0 := by decide

/-- FMIN and FMAX write the codes of R106. -/
theorem exec_fmin_fmax {g : Guard} {a b c : SOp} {s u : State} {x y : Word} (h : Op3Ready g a b c s u x y) :
    exec (.fmin g a b c) s = .next (writes s u a (BitVec.ofNat 64 (minMaxCode .f32 false (x.toNat % 2 ^ 32) (y.toNat % 2 ^ 32))))
      ∧ exec (.fmax g a b c) s = .next (writes s u a (BitVec.ofNat 64 (minMaxCode .f32 true (x.toNat % 2 ^ 32) (y.toNat % 2 ^ 32)))) :=
  ⟨op3_next _ h, op3_next _ h⟩

/-- Settles O4: every form completes with its exact result rounded once; FDIV by the three cases of R105, FMIN and FMAX by those of R106. -/
theorem floatForms : Obligations.FloatForms := by
  refine ⟨⟨?fadd, ?fsub, ?fmul, ?ffma, ?fdiv⟩, ?minMax⟩
  case fadd => exact fun _ _ _ _ _ _ _ _ h => op3_rounds .f32 (fun s x y => addNum (rndMode s.me.rnd == 2) (lowF32 x) (lowF32 y)) h
  case fsub => exact fun _ _ _ _ _ _ _ _ h => op3_rounds .f32 (fun s x y => addNum (rndMode s.me.rnd == 2) (lowF32 x) (negNum (lowF32 y))) h
  case fmul => exact fun _ _ _ _ _ _ _ _ h => op3_rounds .f32 (fun _ x y => mulNum (lowF32 x) (lowF32 y)) h
  case ffma =>
    exact fun _ _ _ _ _ _ _ _ h =>
      opRmw3_rounds .f32 (fun s z x y => addNum (rndMode s.me.rnd == 2) (mulNum (lowF32 x) (lowF32 y)) (lowF32 z)) h
  case fdiv =>
    intro g a b c s u x y h
    refine ⟨divCode .f32 (u.me.rnd.toNat % 8) (u.me.rnd.getLsbD 3) (x.toNat % 2 ^ 32) (y.toNat % 2 ^ 32), ?next, ?noSat, ?exact, ?sat⟩
    case next => 
      refine op3_gives _ ?_ h
      rw [rndSat_eq]
      rfl
    case noSat =>
      intro hs
      simp only [hs, divCode_noSat]
    case exact =>
      intro he
      rw [divCode_exact _ _ he]
    case sat =>
      rintro hs p n d q m e hx hy hn rfl
      rw [hs, divCode_sat _ hx hy hn, f32Max_signed]
  case minMax =>
    intro g a b c s u x y h
    obtain ⟨hmin, hmax⟩ := exec_fmin_fmax h
    obtain ⟨hnMin, hnMax, hpMin, hpMax⟩ := minMaxCode_zeros
    refine ⟨_, _, hmin, hmax, fun hx hy => ⟨minMaxCode_nan_nan _ hx hy, minMaxCode_nan_nan _ hx hy⟩,
      fun hx hy => ⟨minMaxCode_nan_left _ hx hy, minMaxCode_nan_left _ hx hy⟩,
      fun hx hy => ⟨minMaxCode_nan_right _ hx hy, minMaxCode_nan_right _ hx hy⟩,
      fun hxy hx => ?same, minMaxCode_lt, minMaxCode_gt, ?negZero, ?posZero⟩
    case same =>
      rw [← hxy]
      exact ⟨minMaxCode_self _ hx, minMaxCode_self _ hx⟩
    case negZero => exact fun hx hy => by rw [hx, hy]; exact ⟨hnMin, hnMax⟩
    case posZero => exact fun hx hy => by rw [hx, hy]; exact ⟨hpMin, hpMax⟩

end Sys2Proof.Machine
end

section
/-! PROOFS. Conversions between integers, FP32 and BF16 (R108). -/

namespace Sys2Proof.Machine

/-! ### To an integer -/

/-- A natural number as an exact value has no sign. -/
theorem ofInt_natCast (n : Nat) : ofInt n = .fin false n 1 := by
  simp [ofInt]

/-- A clamped value lies in its range. -/
theorem clampInt_range {lo hi : Int} (h : lo ≤ hi) (x : Int) : lo ≤ clampInt lo hi x ∧ clampInt lo hi x ≤ hi := by
  unfold clampInt
  split
  · exact ⟨Int.le_refl _, h⟩
  · split <;> omega

/-- A conversion to an integer gives one of the destination's range, NaN's 0 among them. -/
theorem toInt_range (mode : Nat) {lo hi : Int} (hlo : lo ≤ 0) (hhi : 0 ≤ hi) (x : Num) :
    lo ≤ Machine.toInt mode lo hi x ∧ Machine.toInt mode lo hi x ≤ hi := by
  cases x with
  | nan => exact ⟨hlo, hhi⟩
  | inf neg => cases neg <;> simp only [Machine.toInt] <;> omega
  | fin neg n d => exact clampInt_range (Int.le_trans hlo hhi) _

/-- FCVT.S64.F32 and FCVT.U64.F32 write the clamped integers. -/
theorem exec_fcvt_toInt {g : Guard} {a b : SOp} {s u : State} {x : Word} (h : Op2Ready g a b s u x) :
    exec (.fcvtS64F32 g a b) s
        = .next (writes s u a (BitVec.ofInt 64 (Machine.toInt (u.me.rnd.toNat % 8) (-(2 ^ 63)) (2 ^ 63 - 1) (lowF32 x))))
      ∧ exec (.fcvtU64F32 g a b) s
        = .next (writes s u a (BitVec.ofInt 64 (Machine.toInt (u.me.rnd.toNat % 8) 0 (2 ^ 64 - 1) (lowF32 x)))) :=
  ⟨op2_next _ h, op2_next _ h⟩

/-! ### Exact rounding (R122) -/

/-- The search finds the greatest code for which its test holds. -/
theorem searchBits_eq {p : Nat → Bool} {k : Nat} (hp : ∀ c, p c = decide (c ≤ k)) {n acc : Nat} (hacc : acc ≤ k) (hk : k < acc + 2 ^ n) :
    searchBits p n acc = k := by
  induction n generalizing acc with
  | zero => rw [searchBits]; omega
  | succ n ih =>
    rw [Nat.pow_succ] at hk
    rw [searchBits, hp]
    by_cases h : acc + 2 ^ n ≤ k
    · rw [if_pos (decide_eq_true h)]
      exact ih h (by omega)
    · rw [if_neg (by simpa using h)]
      exact ih hacc (by omega)

/-- A magnitude that a code of the format has exactly is rounded to that code, whatever the mode. -/
theorem roundMag_exact {f : Fmt} {k num den : Nat} (mode : Nat) (neg : Bool) (hden : 0 < den) (hk : k ≤ maxCode f)
    (hmono : ∀ c ≤ maxCode f, magUnits f c ≤ magUnits f k ↔ c ≤ k) (h : magUnits f k * den = num * 2 ^ unitExp f) :
    roundMag f mode neg num den = k := by
  have hmax : maxCode f < 2 ^ magW f := by cases f <;> decide
  have hp : ∀ c, (decide (c ≤ maxCode f) && decide (magUnits f c * den ≤ num * 2 ^ unitExp f)) = decide (c ≤ k) := by
    intro c
    rw [← h, ← Bool.decide_and, decide_eq_decide, Nat.mul_le_mul_right_iff hden]
    exact ⟨fun ⟨hc, hle⟩ => (hmono c hc).1 hle, fun hc => ⟨Nat.le_trans hc hk, (hmono c (Nat.le_trans hc hk)).2 hc⟩⟩
  have hlo := searchBits_eq hp (Nat.zero_le k) (n := magW f) (by omega)
  simp only [roundMag, hlo]
  rw [if_pos h]

/-- The magnitude of an FP32 code (R111). -/
theorem magUnits_f32 (c : Nat) : magUnits .f32 c = if c / 2 ^ 23 = 0 then c else (2 ^ 23 + c % 2 ^ 23) * 2 ^ (c / 2 ^ 23 - 1) := rfl

/-- The magnitude of a BF16 code (R112). -/
theorem magUnits_bf16 (c : Nat) : magUnits .bf16 c = if c / 2 ^ 7 = 0 then c else (2 ^ 7 + c % 2 ^ 7) * 2 ^ (c / 2 ^ 7 - 1) := rfl

/-- Up to the least normal FP32 code, that one included, a code counts the units of its magnitude. -/
theorem magUnits_f32_subnormal {r : Nat} (hr : r ≤ 2 ^ 23) : magUnits .f32 r = r := by
  rw [magUnits_f32]
  rcases Nat.lt_or_eq_of_le hr with h | h
  · rw [if_pos (by omega)]
  · subst h; rfl

/-- From one power of two to the next, that one included, FP32 magnitudes are evenly spaced. -/
theorem magUnits_f32_normal (e : Nat) {r : Nat} (hr : r ≤ 2 ^ 23) : magUnits .f32 ((e + 1) * 2 ^ 23 + r) = (2 ^ 23 + r) * 2 ^ e := by
  rw [magUnits_f32, if_neg (by omega)]
  rcases Nat.lt_or_eq_of_le hr with h | h
  · rw [show ((e + 1) * 2 ^ 23 + r) / 2 ^ 23 = e + 1 by omega, show ((e + 1) * 2 ^ 23 + r) % 2 ^ 23 = r by omega, Nat.add_sub_cancel]
  · subst h
    rw [show ((e + 1) * 2 ^ 23 + 2 ^ 23) / 2 ^ 23 = e + 1 + 1 by omega, show ((e + 1) * 2 ^ 23 + 2 ^ 23) % 2 ^ 23 = 0 by omega,
      Nat.add_sub_cancel, Nat.pow_succ']
    omega

/-- A greater FP32 code has a greater magnitude. -/
theorem magUnits_f32_strictMono : StrictMono (magUnits .f32) := by
  refine strictMono_nat_of_lt_succ fun c => ?_
  have hr : c % 2 ^ 23 < 2 ^ 23 := Nat.mod_lt _ (by decide)
  cases he : c / 2 ^ 23 with
  | zero => rw [magUnits_f32_subnormal (by omega), magUnits_f32_subnormal (by omega)]; omega
  | succ e =>
    obtain ⟨r, hrc, hlt⟩ : ∃ r, c = (e + 1) * 2 ^ 23 + r ∧ r < 2 ^ 23 := ⟨c % 2 ^ 23, by omega, hr⟩
    rw [hrc, magUnits_f32_normal e (Nat.le_of_lt hlt), Nat.add_assoc, magUnits_f32_normal e hlt]
    exact Nat.mul_lt_mul_of_pos_right (Nat.lt_succ_self _) (Nat.two_pow_pos e)

/-- A BF16 code moved up by 16 bits is an FP32 code of the same magnitude. -/
theorem magUnits_widen (c : Nat) : magUnits .f32 (c * 2 ^ 16) = magUnits .bf16 c * 2 ^ 16 := by
  rw [magUnits_f32, magUnits_bf16, show c * 2 ^ 16 / 2 ^ 23 = c / 2 ^ 7 by omega, show c * 2 ^ 16 % 2 ^ 23 = c % 2 ^ 7 * 2 ^ 16 by omega]
  split
  · rfl
  · rw [show 2 ^ 23 + c % 2 ^ 7 * 2 ^ 16 = (2 ^ 7 + c % 2 ^ 7) * 2 ^ 16 by omega, Nat.mul_right_comm]

/-- The magnitude of a finite BF16 code is rounded to FP32 exactly. -/
theorem roundMag_widen (mode : Nat) (neg : Bool) {m : Nat} (hm : m ≤ 0x7F7F) :
    roundMag .f32 mode neg (magUnits .bf16 m) (2 ^ 133) = m * 2 ^ 16 := by
  have hk : m * 2 ^ 16 ≤ maxCode .f32 := by rw [maxCode]; omega
  refine roundMag_exact mode neg (Nat.two_pow_pos _) hk (fun c _ => magUnits_f32_strictMono.le_iff_le) ?_
  rw [magUnits_widen, unitExp, Nat.mul_assoc, ← Nat.pow_add]

/-- A BF16 code of 16 bits by its sign and its magnitude. -/
theorem bf16_split {c : Nat} (hc : c < 2 ^ 16) : c * 2 ^ 16 = signBit .f32 (bit c 15) + c % 2 ^ 15 * 2 ^ 16 := by
  rcases Nat.lt_or_ge c (2 ^ 15) with h | h
  · have hbit : bit c 15 = false := by rw [bit, Nat.div_eq_of_lt h]; rfl
    rw [hbit, show signBit .f32 false = 0 from rfl, Nat.mod_eq_of_lt h, Nat.zero_add]
  · have hbit : bit c 15 = true := by rw [bit, show c / 2 ^ 15 = 1 by omega]; rfl
    rw [hbit, show signBit .f32 true = 2 ^ 31 from rfl]
    omega

/-- A BF16 code decoded: an infinity, a NaN above it, or a finite value below. -/
theorem decodeNum_bf16 (c : Nat) : decodeNum .bf16 c = if c % 2 ^ 15 = 0x7F80 then .inf (bit c 15) else if 0x7F7F < c % 2 ^ 15 then .nan
    else .fin (bit c 15) (magUnits .bf16 (c % 2 ^ 15)) (2 ^ 133) := by
  change (if (c % 2 ^ 15 == 0x7F80) = true then Num.inf (bit c 15) else if decide (0x7F7F < c % 2 ^ 15) = true then .nan
    else .fin (bit c 15) (magUnits .bf16 (c % 2 ^ 15)) (2 ^ 133)) = _
  simp only [beq_iff_eq, decide_eq_true_eq]

/-- A finite FP32 magnitude that a code has exactly is rounded to that code, with the sign. -/
theorem roundTo_f32_of_roundMag {neg : Bool} {mode num den m : Nat} (sat : Bool) (h : roundMag .f32 mode neg num den = m)
    (hm : m ≤ maxCode .f32) : roundTo .f32 mode sat (.fin neg num den) = signBit .f32 neg + m := by
  simp only [roundTo, h]
  rw [if_neg (Nat.not_lt.2 hm)]
  split
  · next h0 => subst h0; cases neg <;> rfl
  · rfl

/-- A BF16 code that is no NaN widens to FP32 by 16 zero bits. -/
theorem roundTo_widen {c : Nat} (hc : c < 2 ^ 16) (hn : isNan (decodeNum .bf16 c) = false) :
    roundTo .f32 0 false (decodeNum .bf16 c) = c * 2 ^ 16 := by
  rw [bf16_split hc]
  rw [decodeNum_bf16] at hn ⊢
  split
  · next hinf => rw [hinf]; rfl
  · next hfin =>
    have hm : c % 2 ^ 15 ≤ 0x7F7F := by
      rw [if_neg hfin] at hn
      by_contra hgt
      rw [if_pos (by omega)] at hn
      exact Bool.noConfusion hn
    rw [if_neg (by omega)]
    exact roundTo_f32_of_roundMag false (roundMag_widen 0 _ hm) (by rw [maxCode]; omega)

/-- A NaN rounds to the canonical NaN of the format. -/
theorem roundTo_nan {x : Num} (f : Fmt) (mode : Nat) (sat : Bool) (h : isNan x = true) : roundTo f mode sat x = nanCode f := by
  cases x with
  | nan => rfl
  | inf neg => exact Bool.noConfusion h
  | fin neg n d => exact Bool.noConfusion h

/-- Settles O5: the forms that round complete by `op2_rounds`, those toward an integer by the range of `toInt`, and BF16 widens exactly. -/
theorem conversions : Obligations.Conversions := by
  refine ⟨?f32S64, ?f32U64, ?bf16F32, ?toInt, ?f32Bf16⟩
  case f32S64 => exact fun _ _ _ _ _ _ h => op2_rounds .f32 (fun x => ofInt x.toInt) h
  case f32U64 =>
    intro g a b s u x h
    have hx := op2_rounds .f32 (fun x => ofInt x.toNat) h
    simp only [ofInt_natCast] at hx
    exact hx
  case bf16F32 => exact fun _ _ _ _ _ _ h => op2_rounds .bf16 lowF32 h
  case toInt =>
    intro g a b s u x h
    obtain ⟨hs, hu⟩ := exec_fcvt_toInt h
    obtain ⟨hsLo, hsHi⟩ := toInt_range (u.me.rnd.toNat % 8) (lo := -(2 ^ 63)) (hi := 2 ^ 63 - 1) (by decide) (by decide) (lowF32 x)
    obtain ⟨huLo, huHi⟩ := toInt_range (u.me.rnd.toNat % 8) (lo := 0) (hi := 2 ^ 64 - 1) (by decide) (by decide) (lowF32 x)
    refine ⟨_, _, hs, hu, ⟨hsLo, by omega⟩, ⟨huLo, by omega⟩, ?nan, ?inf, ?fin⟩
    case nan => exact fun hx => by rw [show lowF32 x = .nan from hx]; exact ⟨rfl, rfl⟩
    case inf => exact fun neg hx => by rw [show lowF32 x = .inf neg from hx]; exact ⟨rfl, rfl⟩
    case fin => exact fun neg n d hx => by rw [show lowF32 x = .fin neg n d from hx]; exact ⟨rfl, rfl⟩
  case f32Bf16 =>
    refine gives2P_of_op2 exec_fcvtF32Bf16 fun _ x => ?_
    intro c
    have hc : c < 2 ^ 16 := Nat.mod_lt _ (by decide)
    split
    · next hn => exact congrArg w64 (roundTo_nan .f32 0 false hn)
    · next hn => exact congrArg w64 (roundTo_widen hc (Bool.eq_false_of_not_eq_true hn))

end Sys2Proof.Machine
end

section
/-! PROOFS. Elements of vector registers, and the integer class (R130, R131, R138 to R140). -/

namespace Sys2Proof.Machine

/-! ### Elements read and packed (R130) -/

/-- An element that lies within the register ends within it. -/
theorem elem_end_le {es k : Nat} (hk : k < 1024 / es) : 8 * es * k + 8 * es ≤ 8192 := by
  have h : es * (k + 1) ≤ 1024 := Nat.mul_comm es _ ▸ Nat.mul_le_of_le_div es (k + 1) 1024 hk
  rw [Nat.mul_succ] at h
  rw [Nat.mul_assoc]
  omega

/-- The elements of a register are its bit fields, in the order of their index. -/
theorem elems_eq (es : Nat) (v : VWord) : elems es v = (List.range (1024 / es)).map (fun k => (elemBits es v k).toNat) := by
  simp [elems, upto, elemBits, Nat.shiftRight_eq_div_pow]

/-- A bit field of a number cut to m bits is that of the number, where it ends within those bits. -/
theorem toNat_extractLsb'_ofNat (x : Nat) {p w m : Nat} (h : p + w ≤ m) :
    ((BitVec.ofNat m x).extractLsb' p w).toNat = x / 2 ^ p % 2 ^ w := by
  obtain ⟨r, rfl⟩ := Nat.exists_eq_add_of_le h
  rw [BitVec.extractLsb'_toNat, BitVec.toNat_ofNat, Nat.shiftRight_eq_div_pow, Nat.add_assoc, Nat.pow_add, Nat.mod_mul_right_div_self,
    Nat.mod_mod_of_dvd _ (Nat.pow_dvd_pow 2 (Nat.le_add_right w r))]

/-- Packed elements taken apart again: field k of what `ofElems` packs is element k, cut to its width. -/
theorem packed_field (w k : Nat) (l : List Nat) :
    l.foldr (fun x acc => x % 2 ^ w + 2 ^ w * acc) 0 / 2 ^ (w * k) % 2 ^ w = l.getD k 0 % 2 ^ w := by
  induction l generalizing k with
  | nil => simp
  | cons x l ih =>
    cases k with
    | zero => simp
    | succ k =>
      rw [List.foldr_cons, List.getD_cons_succ, ← ih k, Nat.mul_succ, Nat.pow_add', ← Nat.div_div_eq_div_mul,
        Nat.add_mul_div_left _ _ (Nat.two_pow_pos w), Nat.div_eq_of_lt (Nat.mod_lt _ (Nat.two_pow_pos w)), Nat.zero_add]

/-- Element k of a register made of a list is the k-th of the list, cut to its width; beyond the list it is zero. -/
theorem toNat_elemBits_ofElems {es k : Nat} (l : List Nat) (hk : k < 1024 / es) :
    (elemBits es (ofElems es l) k).toNat = l.getD k 0 % 2 ^ (8 * es) := by
  rw [elemBits, ofElems, toNat_extractLsb'_ofNat _ (elem_end_le hk), packed_field]

/-- Element k of a register made of a list, as a bit vector of the element's width. -/
theorem elemBits_ofElems {es k : Nat} (l : List Nat) (hk : k < 1024 / es) :
    elemBits es (ofElems es l) k = BitVec.ofNat (8 * es) (l.getD k 0) :=
  BitVec.eq_of_toNat_eq (by rw [toNat_elemBits_ofElems l hk, BitVec.toNat_ofNat])

/-- An entry of a list that is given by its index. -/
theorem getD_map_range {α : Type} {n k : Nat} (f : Nat → α) (d : α) (hk : k < n) : ((List.range n).map f).getD k d = f k := by
  simp [hk]

/-- Entry k of one operand's elements mapped by a function. -/
theorem getD_map_elems {es k : Nat} (f : Nat → Nat) (v : VWord) (hk : k < 1024 / es) :
    ((elems es v).map f).getD k 0 = f (elemBits es v k).toNat := by
  rw [elems_eq, List.map_map, getD_map_range _ _ hk]
  rfl

/-- Entry k of three operands' elements combined by a function. -/
theorem getD_map_elems3 {es k : Nat} (f : Nat → Nat → Nat → Nat) (v w z : VWord) (hk : k < 1024 / es) :
    (((elems es v).zip ((elems es w).zip (elems es z))).map (fun (x : Nat × Nat × Nat) => f x.1 x.2.1 x.2.2)).getD k 0
      = f (elemBits es v k).toNat (elemBits es w k).toNat (elemBits es z k).toNat := by
  simp only [elems_eq]
  rw [List.zip_map', List.zip_map', List.map_map, getD_map_range _ _ hk]
  rfl

/-! ### The integer class (R138 to R140) -/

/-- A form that is `vecInt` of one function claims the elementwise operation which that function computes modulo the width. -/
theorem vecGives3_of_vecInt {mk : Guard → VReg → VReg → VReg → Instr} {f : Nat → Nat → Nat → Nat → Nat}
    {F : (n : Nat) → BitVec n → BitVec n → BitVec n → BitVec n} (hmk : ∀ g a b c, exec (mk g a b c) = vecInt g a b c f)
    (hF : ∀ n (x y z : BitVec n), BitVec.ofNat n (f n x.toNat y.toNat z.toNat) = F n x y z) : VecGives3 mk F := by
  intro g a b c s u h
  rw [hmk, vecInt, issue_next _ h]
  refine ⟨_, rfl, fun k hk => ?_⟩
  rw [elemBits_ofElems _ hk, getD_map_elems3 (f (8 * esOf u)) _ _ _ hk, hF]
  rfl

/-- A form that is `vecInt1` of one function claims the elementwise operation which that function computes modulo the width. -/
theorem vecGives2_of_vecInt1 {mk : Guard → VReg → VReg → Instr} {f : Nat → Nat → Nat} {F : (n : Nat) → BitVec n → BitVec n}
    (hmk : ∀ g a b, exec (mk g a b) = vecInt1 g a b f) (hF : ∀ n (x : BitVec n), BitVec.ofNat n (f n x.toNat) = F n x) :
    VecGives2 mk F := by
  intro g a b s u h
  rw [hmk, vecInt1, issue_next _ h]
  refine ⟨_, rfl, fun k hk => ?_⟩
  rw [elemBits_ofElems _ hk, getD_map_elems _ _ hk, hF]
  rfl

section
variable {n : Nat} (x y : BitVec n)

/-- An element sign-extended is the element read as a signed number. -/
theorem sextN_toNat : sextN n x.toNat = x.toInt := by
  rw [sextN_eq, BitVec.ofNat_toNat, BitVec.setWidth_eq]

/-- A product of elements wraps at their width. -/
theorem ofNat_mul_toNat : BitVec.ofNat n (x.toNat * y.toNat) = x * y := by
  simp only [BitVec.ofNat_mul, BitVec.ofNat_toNat, BitVec.setWidth_eq]

/-- A choice between the numbers of two elements is the number of the one chosen. -/
theorem ofNat_ite_toNat (p : Prop) [Decidable p] : BitVec.ofNat n (if p then x.toNat else y.toNat) = if p then x else y := by
  split <;> simp

/-- The number that is subtracted from the modulus gives the negation. -/
theorem ofNat_two_pow_sub : BitVec.ofNat n (2 ^ n - x.toNat) = -x :=
  BitVec.eq_of_toNat_eq (by rw [BitVec.toNat_ofNat, BitVec.toNat_neg])

/-- A difference of elements, kept from going below zero by the modulus, wraps at their width. -/
theorem ofNat_add_two_pow_sub : BitVec.ofNat n (x.toNat + 2 ^ n - y.toNat) = x - y := by
  rw [Nat.add_sub_assoc (Nat.le_of_lt y.isLt), BitVec.ofNat_add, ofNat_two_pow_sub, BitVec.ofNat_toNat, BitVec.setWidth_eq,
    BitVec.sub_eq_add_neg]

/-- The magnitude of the signed number is the element or its negation; the least number's wraps to itself. -/
theorem ofNat_natAbs_toInt : BitVec.ofNat n x.toInt.natAbs = if x.toInt < 0 then -x else x := by
  rw [← BitVec.ofInt_natCast]
  split
  · next h => rw [Int.ofNat_natAbs_of_nonpos (Int.le_of_lt h), BitVec.ofInt_neg, BitVec.ofInt_toInt]
  · next h => rw [Int.natAbs_of_nonneg (Int.not_lt.1 h), BitVec.ofInt_toInt]

/-- The elements that a compare writes: all ones or zero (R139). -/
theorem ofNat_ite_ones (p : Bool) : BitVec.ofNat n (if p then 2 ^ n - 1 else 0) = if p then BitVec.allOnes n else 0 := by
  cases p
  · rfl
  · exact BitVec.eq_of_toNat_eq (by simp)

/-- The carry-less product over the low m bits of the second factor, as the shifted first factors that those bits choose. -/
theorem ofNat_clmulBits (m : Nat) :
    BitVec.ofNat n (clmulBits x.toNat y.toNat m) = ((List.range m).filter (fun i => y.getLsbD i)).foldl (fun acc i => acc ^^^ (x <<< i)) 0 := by
  induction m with
  | zero => rfl
  | succ m ih =>
    have hshift : BitVec.ofNat n (x.toNat * 2 ^ m) = x <<< m :=
      BitVec.eq_of_toNat_eq (by rw [BitVec.toNat_ofNat, BitVec.toNat_shiftLeft, Nat.shiftLeft_eq])
    rw [clmulBits, BitVec.ofNat_xor, ih, bit_eq_testBit, BitVec.testBit_toNat, List.range_succ, List.filter_append, List.foldl_append]
    cases hy : y.getLsbD m <;> simp [hy, hshift]

end

/-- VCMP under a condition claims the choice between all ones and zero that the condition makes (R139). -/
theorem vecGives3_vCmp {k : Cond} {F : (n : Nat) → BitVec n → BitVec n → BitVec n → BitVec n}
    (hF : ∀ n (x y z : BitVec n), (if condHolds k x y then BitVec.allOnes n else 0) = F n x y z) :
    VecGives3 (fun g a b c => .vCmp g a b c k) F := by
  refine vecGives3_of_vecInt (fun g a b c => exec_vCmp g a b c k) fun n x y z => ?_
  simp only [ofNat_ite_ones, condN, BitVec.ofNat_toNat, BitVec.setWidth_eq]
  exact hF n x y z

/-- Settles O14: every form completes with `vecInt` or `vecInt1` of a function on numbers, and modulo the width that function is the operation on elements. -/
theorem vectorIntegers : Obligations.VectorIntegers := by
  refine ⟨?add, ?sub, ?mul, ?fma, ?min, ?max, ?and, ?or, ?xor, ?shl, ?shr, ?sel, ?clmul, ?eq, ?ne, ?lt, ?ltu, ?ge, ?geu, ?abs, ?neg, ?popc⟩
  case add => exact vecGives3_of_vecInt exec_vAdd fun _ _ _ _ => by simp [BitVec.ofNat_add]
  case sub => exact vecGives3_of_vecInt exec_vSub fun _ x y _ => ofNat_add_two_pow_sub x y
  case mul => exact vecGives3_of_vecInt exec_vMul fun _ x y _ => ofNat_mul_toNat x y
  case fma =>
    refine vecGives3_of_vecInt exec_vFma fun _ x y z => ?_
    rw [BitVec.ofNat_add, ofNat_mul_toNat, BitVec.ofNat_toNat, BitVec.setWidth_eq]
  case min =>
    refine vecGives3_of_vecInt exec_vMin fun _ x y _ => ?_
    rw [sextN_toNat, sextN_toNat, ofNat_ite_toNat]
  case max =>
    refine vecGives3_of_vecInt exec_vMax fun _ x y _ => ?_
    rw [sextN_toNat, sextN_toNat, ofNat_ite_toNat]
  case and => exact vecGives3_of_vecInt exec_vAnd fun _ _ _ _ => by simp
  case or => exact vecGives3_of_vecInt exec_vOr fun _ _ _ _ => by simp
  case xor => exact vecGives3_of_vecInt exec_vXor fun _ _ _ _ => by simp
  case shl =>
    refine vecGives3_of_vecInt exec_vShl fun _ x y _ => BitVec.eq_of_toNat_eq ?_
    rw [BitVec.toNat_ofNat, BitVec.toNat_shiftLeft, Nat.shiftLeft_eq]
  case shr =>
    refine vecGives3_of_vecInt exec_vShr fun _ x y _ => BitVec.eq_of_toNat_eq ?_
    rw [BitVec.toNat_ofNat, BitVec.toNat_ushiftRight, Nat.shiftRight_eq_div_pow, Nat.mod_eq_of_lt (Nat.lt_of_le_of_lt (Nat.div_le_self _ _) x.isLt)]
  case sel =>
    refine vecGives3_of_vecInt exec_vSel fun _ x y z => ?_
    rw [ofNat_ite_toNat]
    exact if_congr (BitVec.toNat_inj (y := 0)) rfl rfl
  case clmul =>
    refine vecGives3_of_vecInt exec_vClmul fun n x y _ => ?_
    rw [clmulN, ← ofNat_clmulBits]
    exact BitVec.eq_of_toNat_eq (by simp)
  case eq => exact vecGives3_vCmp fun _ x y _ => by simp [condHolds_eqs x y]
  case ne => exact vecGives3_vCmp fun _ x y _ => by simp [condHolds_eqs x y]
  case lt => exact vecGives3_vCmp fun _ x y _ => by simp [condHolds_eqs x y]
  case ltu => exact vecGives3_vCmp fun _ x y _ => by simp [condHolds_eqs x y]
  case ge => exact vecGives3_vCmp fun _ x y _ => by simp [condHolds_eqs x y]
  case geu => exact vecGives3_vCmp fun _ x y _ => by simp [condHolds_eqs x y]
  case abs =>
    refine vecGives2_of_vecInt1 exec_vAbs fun _ x => ?_
    rw [sextN_toNat, ofNat_natAbs_toInt]
  case neg => exact vecGives2_of_vecInt1 exec_vNeg fun _ x => ofNat_two_pow_sub x
  case popc => exact vecGives2_of_vecInt1 exec_vPopc fun n x => congrArg (BitVec.ofNat n) (popcount_eq n x.toNat)

end Sys2Proof.Machine
end

section
/-! PROOFS. The floating class (R132, R142, R143). -/

namespace Sys2Proof.Machine

/-- VSH.ESZ as a field of VSH (R20). -/
theorem eszOf_eq (u : State) : eszOf u = u.me.vsh.toNat % 4 := by
  simp [eszOf, wbits, bits]

/-- The format of the elements under a shape that the floating class allows (R132). -/
theorem floatFmt_of_floatShape {u : State} {m : Fmt} (h : FloatShape u m) : floatFmt u = some m := by
  rcases h with ⟨he, rfl⟩ | ⟨he, rfl⟩ <;> simp [floatFmt, eszOf_eq, he]

/-- An element of a floating format has its sign in its top bit. -/
theorem width_of_floatShape {u : State} {m : Fmt} (h : FloatShape u m) : 8 * esOf u = magW m + 1 := by
  rcases h with ⟨he, rfl⟩ | ⟨he, rfl⟩ <;> simp [esOf, eszOf_eq, he, magW]

/-- A form that is `vecFloat` of one function claims that function's codes. -/
theorem vecFloat3_of_vecFloat {mk : Guard → VReg → VReg → VReg → Instr} {f F : State → Fmt → Nat → Nat → Nat → Nat}
    (hmk : ∀ g a b c, exec (mk g a b c) = vecFloat g a b c f) (hF : ∀ u m x y z, f u m x y z = F u m x y z) : VecFloat3 mk F := by
  intro g a b c s u m h hm
  rw [hmk, vecFloat, issue_next _ h, floatFmt_of_floatShape hm]
  refine ⟨_, rfl, fun k hk => ?_⟩
  rw [toNat_elemBits_ofElems _ hk, getD_map_elems3 (f u m) _ _ _ hk, hF]
  rfl

/-- A form that is `vecFloat1` of one function claims that function's codes, for the codes of the format. -/
theorem vecFloat2_of_vecFloat1 {mk : Guard → VReg → VReg → Instr} {f F : State → Fmt → Nat → Nat}
    (hmk : ∀ g a b, exec (mk g a b) = vecFloat1 g a b f) (hF : ∀ u m x, x < 2 ^ (magW m + 1) → f u m x = F u m x) : VecFloat2 mk F := by
  intro g a b s u m h hm
  rw [hmk, vecFloat1, issue_next _ h, floatFmt_of_floatShape hm]
  refine ⟨_, rfl, fun k hk => ?_⟩
  rw [toNat_elemBits_ofElems _ hk, getD_map_elems (f u m) _ hk, hF u m _ (width_of_floatShape hm ▸ BitVec.isLt _)]
  rfl

/-- The sign bit flipped is the sign bit added, without a carry out of the code (R142). -/
theorem xor_signBit {x w : Nat} (hx : x < 2 ^ (w + 1)) : x ^^^ 2 ^ w = (x + 2 ^ w) % 2 ^ (w + 1) := by
  refine Nat.eq_of_testBit_eq fun i => ?_
  rw [Nat.testBit_xor, Nat.testBit_two_pow, Nat.testBit_mod_two_pow, Nat.add_comm x]
  rcases Nat.lt_trichotomy i w with h | h | h
  · simp [Nat.testBit_two_pow_add_gt h, Nat.ne_of_gt h, Nat.lt_succ_of_lt h]
  · simp [h, Nat.testBit_two_pow_add_eq]
  · simp [Nat.ne_of_lt h, Nat.not_lt.2 (Nat.succ_le_of_lt h), Nat.testBit_lt_two_pow (Nat.lt_of_lt_of_le hx (Nat.pow_le_pow_right (by decide) h))]

/-- Settles O15: every form completes with `vecFloat` or `vecFloat1`, and its function rounds the exact result of the statement once. -/
theorem vectorFloats : Obligations.VectorFloats := by
  refine ⟨?add, ?sub, ?mul, ?fma, ?min, ?max, ?eq, ?lt, ?le, ?un, ?abs, ?neg⟩
  case add => exact vecFloat3_of_vecFloat exec_vAddF fun _ _ _ _ _ => by rw [addCode, rndSat_eq]; rfl
  case sub => exact vecFloat3_of_vecFloat exec_vSubF fun _ _ _ _ _ => by rw [subCode, rndSat_eq]; rfl
  case mul => exact vecFloat3_of_vecFloat exec_vMulF fun _ _ _ _ _ => by rw [mulCode, rndSat_eq]; rfl
  case fma => exact vecFloat3_of_vecFloat exec_vFmaF fun _ _ _ _ _ => by rw [fmaCode, rndSat_eq]; rfl
  case min => exact vecFloat3_of_vecFloat exec_vMinF fun _ _ _ _ _ => rfl
  case max => exact vecFloat3_of_vecFloat exec_vMaxF fun _ _ _ _ _ => rfl
  case eq => exact vecFloat3_of_vecFloat (fun g a b c => exec_vCmpF g a b c .eq) fun _ _ _ _ _ => rfl
  case lt => exact vecFloat3_of_vecFloat (fun g a b c => exec_vCmpF g a b c .lt) fun _ _ _ _ _ => rfl
  case le => exact vecFloat3_of_vecFloat (fun g a b c => exec_vCmpF g a b c .le) fun _ _ _ _ _ => rfl
  case un => exact vecFloat3_of_vecFloat (fun g a b c => exec_vCmpF g a b c .un) fun _ _ _ _ _ => rfl
  case abs => exact vecFloat2_of_vecFloat1 exec_vAbsF fun _ _ _ _ => rfl
  case neg => exact vecFloat2_of_vecFloat1 exec_vNegF fun _ _ _ hx => by rw [xor_signBit hx]

end Sys2Proof.Machine
end

section
/-! PROOFS. Reductions by tree and scans in order (R130, R131, R145 to R147). -/

namespace Sys2Proof.Machine

/-! ### Rows and columns of a register (R130, R131) -/

/-- A list given by its index, cut into k pieces of n. -/
theorem chunksOf_map_range (n k : Nat) (e : Nat → Nat) :
    chunksOf n k ((List.range (k * n)).map e) = (List.range k).map (fun i => (List.range n).map (fun j => e (i * n + j))) := by
  induction k generalizing e with
  | zero => rfl
  | succ k ih =>
    have hrange : List.range ((k + 1) * n) = List.range n ++ (List.range (k * n)).map (n + ·) := by
      rw [Nat.succ_mul, Nat.add_comm, List.range_add]
    rw [hrange, List.map_append, List.map_map, chunksOf, List.take_left' (by simp), List.drop_left' (by simp), ih, List.range_succ_eq_map,
      List.map_cons, List.map_map]
    congr 1
    · simp
    · simp [Function.comp_def, Nat.succ_mul, Nat.add_comm, Nat.add_left_comm]

/-- Entry (i, j) of lists of length n put one after another. -/
theorem getD_flatten {L : List (List Nat)} {n : Nat} (hL : ∀ l ∈ L, l.length = n) (i : Nat) {j : Nat} (hj : j < n) :
    L.flatten.getD (i * n + j) 0 = (L.getD i []).getD j 0 := by
  induction L generalizing i with
  | nil => simp
  | cons l L ih =>
    obtain ⟨hl, hL⟩ := List.forall_mem_cons.1 hL
    rw [List.flatten_cons]
    cases i with
    | zero => rw [List.getD_append _ _ _ _ (by omega), Nat.zero_mul, Nat.zero_add, List.getD_cons_zero]
    | succ i =>
      rw [List.getD_append_right _ _ _ _ (by rw [Nat.succ_mul]; omega), List.getD_cons_succ, ← ih hL i,
        show (i + 1) * n + j - l.length = i * n + j by rw [Nat.succ_mul]; omega]

/-- Entry (i, j) of rows of n that are given by their index and put one after another. -/
theorem getD_flatMap_rows {k n i j : Nat} {F : Nat → List Nat} (hF : ∀ i, (F i).length = n) (hi : i < k) (hj : j < n) :
    ((List.range k).flatMap F).getD (i * n + j) 0 = (F i).getD j 0 := by
  rw [List.flatMap_def, getD_flatten (by simp [hF]) i hj, getD_map_range _ _ hi]

/-- The elements of row i, by column. -/
def rowOf (s : State) (v : VWord) (i : Nat) : List Nat :=
  (List.range (colsOf s)).map (fun j => (elemBits (esOf s) v (i * colsOf s + j)).toNat)

/-- The elements of column j, by row. -/
def colOf (s : State) (v : VWord) (j : Nat) : List Nat :=
  (List.range (rowsOf s)).map (fun i => (elemBits (esOf s) v (i * colsOf s + j)).toNat)

@[simp] theorem rowOf_length (s : State) (v : VWord) (i : Nat) : (rowOf s v i).length = colsOf s := by
  simp [rowOf]

/-- An element of a row, by its column. -/
theorem rowOf_getD {s : State} (v : VWord) (i : Nat) {j : Nat} (hj : j < colsOf s) :
    (rowOf s v i).getD j 0 = (elemBits (esOf s) v (i * colsOf s + j)).toNat :=
  getD_map_range _ _ hj

section
variable {u : State} (h : u.me.vsh.toNat / 16 % 16 + u.me.vsh.toNat % 4 ≤ 10)
include h

/-- Under a shape that R131 allows, the rows hold every element of the register, and no row is empty. -/
theorem rowsOf_mul_colsOf : rowsOf u * colsOf u = 1024 / esOf u ∧ 0 < colsOf u := by
  have hrows : rowsOf u = 2 ^ (u.me.vsh.toNat / 16 % 16) := by simp [rowsOf, wbits, bits]
  have hes : esOf u = 2 ^ (u.me.vsh.toNat % 4) := by rw [esOf, eszOf_eq]
  have hcols : colsOf u = 2 ^ (10 - (u.me.vsh.toNat / 16 % 16 + u.me.vsh.toNat % 4)) := by
    rw [colsOf, hrows, hes, ← Nat.pow_add, ← Nat.pow_div h (by decide)]
  refine ⟨?_, hcols ▸ Nat.two_pow_pos _⟩
  rw [hrows, hcols, hes, ← Nat.pow_add, show 1024 = 2 ^ 10 from rfl, Nat.pow_div (by omega) (by decide)]
  congr 1
  omega

/-- A row and a column of the shape meet in an element of the register. -/
theorem index_lt {i j : Nat} (hi : i < rowsOf u) (hj : j < colsOf u) : i * colsOf u + j < 1024 / esOf u := by
  obtain ⟨hsize, _⟩ := rowsOf_mul_colsOf h
  rw [← hsize]
  calc i * colsOf u + j < (i + 1) * colsOf u := by rw [Nat.succ_mul]; omega
    _ ≤ rowsOf u * colsOf u := Nat.mul_le_mul_right _ hi

/-- The rows of a register. -/
theorem rowLists_eq (v : VWord) : rowLists u v = (List.range (rowsOf u)).map (rowOf u v) := by
  obtain ⟨hsize, _⟩ := rowsOf_mul_colsOf h
  rw [rowLists, elems_eq, ← hsize, chunksOf_map_range]
  rfl

/-- The columns of a register. -/
theorem colLists_eq (v : VWord) : colLists u v = (List.range (colsOf u)).map (colOf u v) := by
  rw [colLists, rowLists_eq h, upto, List.map_map]
  refine List.map_congr_left fun j hj => ?_
  rw [Function.comp_apply, Nat.zero_add, List.map_map]
  exact List.map_congr_left fun i _ => rowOf_getD v i (List.mem_range.1 hj)

end

/-! ### Scans (R147) -/

/-- A whole row scanned: its first element stays. -/
def scanOf (f : Nat → Nat → Nat) : List Nat → List Nat
  | [] => []
  | x :: l => x :: scanRow f x l

/-- VSCAN scans every row by `scanOf`. -/
theorem exec_vScan_eq (g : Guard) (op : RedOp) (a b : VReg) :
    exec (.vScan g op a b) = vecRed g op a b (fun s f v => (rowLists s v).flatMap (scanOf f)) := rfl

/-- A scan has as many elements as its source. -/
theorem scanRow_length (f : Nat → Nat → Nat) (acc : Nat) (l : List Nat) : (scanRow f acc l).length = l.length := by
  induction l generalizing acc with
  | nil => rfl
  | cons x l ih => rw [scanRow, List.length_cons, List.length_cons, ih]

/-- A scanned row has as many elements as the row. -/
theorem scanOf_length (f : Nat → Nat → Nat) (l : List Nat) : (scanOf f l).length = l.length := by
  cases l with
  | nil => rfl
  | cons x l => rw [scanOf, List.length_cons, List.length_cons, scanRow_length]

/-- The first element of a scanned row is the row's. -/
theorem scanOf_getD_zero (f : Nat → Nat → Nat) (l : List Nat) : (scanOf f l).getD 0 0 = l.getD 0 0 := by
  cases l <;> rfl

/-- The next element of a scan combines the one before it, `acc` before the first, with the source's. -/
theorem scanRow_getD (f : Nat → Nat → Nat) (acc : Nat) {l : List Nat} {j : Nat} (hj : j < l.length) :
    (scanRow f acc l).getD j 0 = f ((acc :: scanRow f acc l).getD j 0) (l.getD j 0) := by
  induction l generalizing acc j with
  | nil => exact absurd hj (Nat.not_lt_zero j)
  | cons x l ih =>
    cases j with
    | zero => rfl
    | succ j => exact ih (f acc x) (Nat.lt_of_succ_lt_succ hj)

/-- The next element of a scanned row combines the one before it with the source's. -/
theorem scanOf_getD_succ (f : Nat → Nat → Nat) {l : List Nat} {j : Nat} (hj : j + 1 < l.length) :
    (scanOf f l).getD (j + 1) 0 = f ((scanOf f l).getD j 0) (l.getD (j + 1) 0) := by
  cases l with
  | nil => exact absurd hj (Nat.not_lt_zero _)
  | cons x l => exact scanRow_getD f x (Nat.lt_of_succ_lt_succ hj)

/-- Where the operation keeps a bound, every element of a scanned row keeps it. -/
theorem scanOf_getD_lt {f : Nat → Nat → Nat} {N : Nat} (hf : ∀ x y, x < N → y < N → f x y < N) {l : List Nat} {j : Nat}
    (hl : ∀ j < l.length, l.getD j 0 < N) (hj : j < l.length) : (scanOf f l).getD j 0 < N := by
  induction j with
  | zero => exact scanOf_getD_zero f l ▸ hl 0 hj
  | succ j ih => exact scanOf_getD_succ f hj ▸ hf _ _ (ih (Nat.lt_of_succ_lt hj)) (hl (j + 1) hj)

/-! ### The instructions (R145 to R147) -/

/-- A reduction or scan that has an operation writes the elements that its function gives. -/
theorem vecRed_next {g : Guard} {op : RedOp} {a b : VReg} {s u : State} {f : Nat → Nat → Nat}
    (k : State → (Nat → Nat → Nat) → VWord → List Nat) (hi : Issues (vecIssue g [] [] [a.val, b.val]) s u) (hf : redOpOf u op = some f) :
    vecRed g op a b k s = .next (goesOn s (setVreg u a.val (ofElems (esOf u) (k u f (vreg u b.val))))) := by
  rw [vecRed, issue_next _ hi, hf]
  rfl

section
variable {u : State} (h : u.me.vsh.toNat / 16 % 16 + u.me.vsh.toNat % 4 ≤ 10)
include h

/-- Element (i, j) of rows that are each made of the source's row. -/
theorem toNat_elemBits_rows {R : List Nat → List Nat} (hR : ∀ l, l.length = colsOf u → (R l).length = colsOf u) (v : VWord) {i j : Nat}
    (hi : i < rowsOf u) (hj : j < colsOf u) :
    (elemBits (esOf u) (ofElems (esOf u) ((rowLists u v).flatMap R)) (i * colsOf u + j)).toNat
      = (R (rowOf u v i)).getD j 0 % 2 ^ (8 * esOf u) := by
  rw [toNat_elemBits_ofElems _ (index_lt h hi hj), rowLists_eq h, List.flatMap_map,
    getD_flatMap_rows (fun _ => hR _ (rowOf_length _ _ _)) hi hj]

/-- Element (i, j) of the reduced rows: the reduction of row i in column 0, zero elsewhere. -/
theorem toNat_elemBits_redr (t : List Nat → Nat) (v : VWord) {i j : Nat} (hi : i < rowsOf u) (hj : j < colsOf u) :
    (elemBits (esOf u) (ofElems (esOf u) ((rowLists u v).flatMap (fun r => t r :: List.replicate (colsOf u - 1) 0))) (i * colsOf u + j)).toNat
      = if j = 0 then t (rowOf u v i) % 2 ^ (8 * esOf u) else 0 := by
  rw [toNat_elemBits_rows h (R := fun r => t r :: List.replicate (colsOf u - 1) 0) (fun l _ => by simp; omega) v hi hj]
  cases j with
  | zero => rfl
  | succ j => rw [List.getD_cons_succ, List.getD_replicate _ (by omega), Nat.zero_mod, if_neg (Nat.succ_ne_zero j)]

/-- Element (i, j) of the reduced columns: the reduction of column j in row 0, zero elsewhere. -/
theorem toNat_elemBits_redc (t : List Nat → Nat) (v : VWord) {i j : Nat} (hi : i < rowsOf u) (hj : j < colsOf u) :
    (elemBits (esOf u) (ofElems (esOf u) ((colLists u v).map t)) (i * colsOf u + j)).toNat
      = if i = 0 then t (colOf u v j) % 2 ^ (8 * esOf u) else 0 := by
  rw [toNat_elemBits_ofElems _ (index_lt h hi hj), colLists_eq h, List.map_map]
  split
  · next hi0 => rw [hi0, Nat.zero_mul, Nat.zero_add, getD_map_range _ _ hj, Function.comp_apply]
  · next hi0 =>
    have hbeyond : colsOf u ≤ i * colsOf u := Nat.le_mul_of_pos_left _ (Nat.pos_of_ne_zero hi0)
    rw [List.getD_eq_default _ _ (by simp; omega), Nat.zero_mod]

/-- Element (i, j) of the scanned rows. -/
theorem toNat_elemBits_scan (f : Nat → Nat → Nat) (v : VWord) {i j : Nat} (hi : i < rowsOf u) (hj : j < colsOf u) :
    (elemBits (esOf u) (ofElems (esOf u) ((rowLists u v).flatMap (scanOf f))) (i * colsOf u + j)).toNat
      = (scanOf f (rowOf u v i)).getD j 0 % 2 ^ (8 * esOf u) :=
  toNat_elemBits_rows h (fun l hl => by rw [scanOf_length, hl]) v hi hj

/-- The first element of a scanned row. -/
theorem elemBits_scan_first (f : Nat → Nat → Nat) (v : VWord) {i : Nat} (hi : i < rowsOf u) :
    elemBits (esOf u) (ofElems (esOf u) ((rowLists u v).flatMap (scanOf f))) (i * colsOf u) = elemBits (esOf u) v (i * colsOf u) := by
  obtain ⟨_, hcols⟩ := rowsOf_mul_colsOf h
  refine BitVec.eq_of_toNat_eq ?_
  have hscan := toNat_elemBits_scan h f v hi hcols
  rw [scanOf_getD_zero, rowOf_getD v i hcols, Nat.mod_eq_of_lt (BitVec.isLt _)] at hscan
  exact hscan

/-- The element after the j-th of a scanned row, where the operation keeps to the width of the elements. -/
theorem toNat_elemBits_scan_succ {f : Nat → Nat → Nat}
    (hf : ∀ x y, x < 2 ^ (8 * esOf u) → y < 2 ^ (8 * esOf u) → f x y < 2 ^ (8 * esOf u)) (v : VWord) {i j : Nat}
    (hi : i < rowsOf u) (hj : j + 1 < colsOf u) :
    (elemBits (esOf u) (ofElems (esOf u) ((rowLists u v).flatMap (scanOf f))) (i * colsOf u + j + 1)).toNat
      = f (elemBits (esOf u) (ofElems (esOf u) ((rowLists u v).flatMap (scanOf f))) (i * colsOf u + j)).toNat
          (elemBits (esOf u) v (i * colsOf u + j + 1)).toNat := by
  have hlt : ∀ j < (rowOf u v i).length, (rowOf u v i).getD j 0 < 2 ^ (8 * esOf u) := fun j hj =>
    rowOf_getD v i (rowOf_length u v i ▸ hj) ▸ BitVec.isLt _
  have hscan : ∀ j < colsOf u, (scanOf f (rowOf u v i)).getD j 0 < 2 ^ (8 * esOf u) := fun j hj =>
    scanOf_getD_lt hf hlt (by rwa [rowOf_length])
  have hj' := Nat.lt_of_succ_lt hj
  rw [Nat.add_assoc, toNat_elemBits_scan h f v hi hj, toNat_elemBits_scan h f v hi hj', Nat.mod_eq_of_lt (hscan _ hj),
    Nat.mod_eq_of_lt (hscan _ hj'), scanOf_getD_succ f (by rwa [rowOf_length]), rowOf_getD v i hj]

end

/-- Settles O18: each form writes the elements of `vecRed_next`, read back by their row and column. -/
theorem vectorReductions : Obligations.VectorReductions := by
  intro g op a b s u f hi hf hshape
  refine ⟨?redr, ?redc, ?scan⟩
  case redr =>
    rw [exec_vRedr, execVRedr]
    exact ⟨_, vecRed_next _ hi hf, fun i hi j hj => toNat_elemBits_redr hshape (treeRed f 10) _ hi hj⟩
  case redc =>
    rw [exec_vRedc, execVRedc]
    exact ⟨_, vecRed_next _ hi hf, fun i hi j hj => toNat_elemBits_redc hshape (treeRed f 10) _ hi hj⟩
  case scan =>
    rw [exec_vScan_eq]
    exact ⟨_, vecRed_next _ hi hf, fun i hi => elemBits_scan_first hshape f _ hi,
      fun hbound i hi j hj => toNat_elemBits_scan_succ hshape hbound _ hi hj⟩

end Sys2Proof.Machine
end

section
/-! PROOFS. Fences, clock merging and clock reading (R274, R275, R281, R282). -/

namespace Sys2Proof.Machine

/-! ### The fences (R274, R275) -/

/-- FENCE with every write of its scope acknowledged brings the clock to the store horizon (R274). -/
theorem exec_fence_acked {g : Guard} {sc : Scope} {s u : State} (h : Issues (syncIssue g [] [] true []) s u) (ha : acked u sc = true) :
    exec (.fence g sc) s = .next (goesOn s (raiseClock u u.me.h)) := by
  rw [exec_fence, execFence, issue_next _ h, if_pos ha]
  rfl

/-- FENCE.S with every write of its scope acknowledged brings the store floor to the store horizon and leaves the clock (R274). -/
theorem exec_fenceS_acked {g : Guard} {sc : Scope} {s u : State} (h : Issues (syncIssue g [] [] true []) s u) (ha : acked u sc = true) :
    exec (.fenceS g sc) s = .next (goesOn s (updMe u (fun t => { t with sf := max t.sf t.h }))) := by
  rw [exec_fenceS, execFenceS, issue_next _ h, if_pos ha]
  rfl

/-- FENCE waits while a write of its scope is on its way (R274). -/
theorem exec_fence_waits {g : Guard} {sc : Scope} {s u : State} (h : Issues (syncIssue g [] [] true []) s u) (ha : acked u sc = false) :
    exec (.fence g sc) s = .next (updMe s (fun t => { t with wait := .retry })) := by
  rw [exec_fence, execFence, issue_next _ h, if_neg (Bool.eq_false_iff.1 ha)]
  rfl

/-- FENCE.S waits as FENCE does (R274). -/
theorem exec_fenceS_waits {g : Guard} {sc : Scope} {s u : State} (h : Issues (syncIssue g [] [] true []) s u) (ha : acked u sc = false) :
    exec (.fenceS g sc) s = .next (updMe s (fun t => { t with wait := .retry })) := by
  rw [exec_fenceS, execFenceS, issue_next _ h, if_neg (Bool.eq_false_iff.1 ha)]
  rfl

/-- The obligation that FENCE.X lays on the next work of path `k2` (R275). -/
def fenceObligation (u : State) (sc : Scope) (k1 k2 : Path) : FenceX :=
  ⟨sc, k1, k2, fenceWork u sc k1 k2, fencePush u k1, if k1 = .core then 0 else kget u.me.ends (2 ^ 64 + pathNo k1) 0⟩

/-- FENCE.X waits for nothing: it adds its obligation behind those that stand (R275). -/
theorem exec_fenceX_next {g : Guard} {sc : Scope} {k1 k2 : Path} {s u : State} (h : Issues (syncIssue g [] [] true []) s u) :
    exec (.fenceX g sc k1 k2) s = .next (goesOn s (updMe u (fun t => { t with fencex := t.fencex ++ [fenceObligation u sc k1 k2] }))) := by
  rw [exec_fenceX, execFenceX, issue_next _ h]
  rfl

/-- From CORE, a FENCE.X of any scope waits for every write on its way inside the package (R275, R276). -/
theorem mem_fenceWork_core {u : State} {p : Posted} (sc : Scope) (k2 : Path) (hp : p ∈ u.me.posted) (hnear : p.far = false) :
    p.id ∈ fenceWork u sc .core k2 :=
  List.mem_append_left _ (List.mem_map_of_mem (List.mem_filter.2 ⟨hp, by simp [hnear]⟩))

/-- From BANK, a FENCE.X waits for every bank command of the strand (R276). -/
theorem mem_fenceWork_bank {u : State} {c : BankCmd} (sc : Scope) (k2 : Path) (hc : c ∈ u.bank) (hkey : c.key = u.me.key) :
    c.id ∈ fenceWork u sc .bank k2 :=
  List.mem_map_of_mem (List.mem_filter.2 ⟨hc, beq_iff_eq.2 hkey⟩)

/-- From COPY, a FENCE.X waits for every copy of the strand, on whichever core it runs (R276). -/
theorem mem_fenceWork_copy {u : State} {e : Nat × CoreSt} {c : CopyCmd} (sc : Scope) (k2 : Path) (he : e ∈ u.cores) (hc : c ∈ e.2.copies)
    (hkey : c.key = u.me.key) : c.id ∈ fenceWork u sc .copy k2 :=
  List.mem_flatMap.2 ⟨e, he, List.mem_map_of_mem (List.mem_filter.2 ⟨hc, beq_iff_eq.2 hkey⟩)⟩

/-- From MATRIX, a FENCE.X waits for every matrix command of the strand, on whichever core it runs (R276). -/
theorem mem_fenceWork_matrix {u : State} {e : Nat × CoreSt} {c : MatCmd} (sc : Scope) (k2 : Path) (he : e ∈ u.cores) (hc : c ∈ e.2.matq)
    (hkey : c.key = u.me.key) : c.id ∈ fenceWork u sc .matrix k2 :=
  List.mem_flatMap.2 ⟨e, he, List.mem_map_of_mem (List.mem_filter.2 ⟨hc, beq_iff_eq.2 hkey⟩)⟩

/-! ### The clock as data (R281, R282) -/

/-- The era in a clock word, its bits 63 to 48 (R282). -/
theorem bits_era (x : Word) : bits x.toNat 63 48 = x.toNat / 2 ^ 48 := by
  rw [bits, Nat.mod_eq_of_lt (by omega)]

/-- The clock in a clock word, its bits 47 to 0 (R282). -/
theorem bits_clock (x : Word) : bits x.toNat 47 0 = x.toNat % 2 ^ 48 := by
  rw [bits, Nat.pow_zero, Nat.div_one]

/-- An era of 16 bits is the one before another exactly where that one comes next after it; both wrap at 2^16 (R281). -/
theorem era_before_iff {e n : Nat} (he : e < 2 ^ 16) : e = (n + 2 ^ 16 - 1) % 2 ^ 16 ↔ (e + 1) % 2 ^ 16 = n % 2 ^ 16 := by
  omega

/-- The clock CLKMAX merges from the word `x` in the era of number `era`, before its bound: that of this era, that of the one before less 2^46, or 0 (R281). -/
def mergedClock (era x : Nat) : Nat :=
  let e := x / 2 ^ 48
  let c := x % 2 ^ 48
  if e = era % 2 ^ 16 then c else if (e + 1) % 2 ^ 16 = era % 2 ^ 16 then c - 2 ^ 46 else 0

/-- CLKMAX goes on whatever its word is, with the word's clock merged by its era (R281). -/
theorem exec_clkmax_next {g : Guard} {a : SReg} {s u : State} (h : Issues (syncIssue g [a.val] [] true []) s u) :
    exec (.clkmax g a) s = .next (goesOn s (raiseClock u (min (mergedClock u.era (sreg u a.val).toNat) (5 * 2 ^ 45)))) := by
  have he : (sreg u a.val).toNat / 2 ^ 48 < 2 ^ 16 := by omega
  rw [exec_clkmax, execClkmax, issue_next _ h]
  simp only [bits_era, bits_clock, era_before_iff he]
  rfl

/-- RDTCK reads the era above the clock, 16 and 48 bits of them (R282). -/
theorem exec_rdtck_next {g : Guard} {a : SReg} {s u : State} (h : Issues (syncIssue g [] [a.val] true []) s u) :
    exec (.rdtck g a) s = .next (goesOn s (setSreg u a.val (w64 (u.era % 2 ^ 16 * 2 ^ 48 + u.me.tck % 2 ^ 48)))) := by
  rw [exec_rdtck, execRdtck, issue_next _ h]
  rfl

/-- Settles O25: each form issues, and its body gives the state it goes on in or the wait; what FENCE.X waits for stands in its obligation's work. -/
theorem fencesAndClocks : Obligations.FencesAndClocks := by
  refine ⟨fun _ _ _ _ h ha => ⟨exec_fence_acked h ha, exec_fenceS_acked h ha⟩,
    fun _ _ _ _ h ha => ⟨exec_fence_waits h ha, exec_fenceS_waits h ha⟩, ?fenceX,
    fun _ _ _ _ h => exec_clkmax_next h, fun _ _ _ _ h => exec_rdtck_next h⟩
  case fenceX =>
    intro g sc k1 k2 s u h
    refine ⟨fenceObligation u sc k1 k2, exec_fenceX_next h, rfl, rfl, ?core, ?bank, ?copy, ?matrix⟩
    case core => rintro rfl _ p hp hnear; exact mem_fenceWork_core sc k2 hp hnear
    case bank => rintro rfl c hc hkey; exact mem_fenceWork_bank sc k2 hc hkey
    case copy => rintro rfl e he c hc hkey; exact mem_fenceWork_copy sc k2 he hc hkey
    case matrix => rintro rfl e he c hc hkey; exact mem_fenceWork_matrix sc k2 he hc hkey

end Sys2Proof.Machine
end
